-- ==== Sys2Proof/Word.lean ====
section
/-!
DEFINITION. The word types of the model: bytes, 32-bit words and 64-bit words, as the register and memory
descriptions of the manual use them (00_scope R10, R21).
-/
namespace Sys2Proof

/-- One byte of memory. -/
abbrev Byte := BitVec 8

/-- A 32-bit register or mailbox word (R21). -/
abbrev Word32 := BitVec 32

/-- A 64-bit register (R21); a 32-bit register is held in the low half. -/
abbrev Word64 := BitVec 64

/-- A table from numbers to values: the keys rise strictly, and no entry equals what an absent key reads as. -/
abbrev Tbl (α : Type) := List (Nat × α)

end Sys2Proof
end

