-- ==== Sys2Proof/Syntax.lean ====
section
/-!
DEFINITION. The commands of the block: one constructor per row of spec/opcode_table.json, with the operands an event or
a command carries, and the types of those operands.
-/
namespace Sys2Proof


/-- The commands and events of the AQ4096, one constructor per row of the opcode table. -/
inductive Instr where
  /-- DOORBELL_WRITE (R363). A host write of ones to DOORBELL hands each named mailbox slot to firmware; bits already set are ignored and counted in DB_IGN. -/
  | doorbellWrite (v : Nat)
  /-- MAILBOX_SLOT_WRITE (R362). A host write to a mailbox slot or result extension is stored while the host owns the slot, and otherwise discarded, counted in MB_VIOL and logged. -/
  | mailboxSlotWrite (off size v : Nat)
  /-- BAR0_REFUSED_ACCESS (R358). A BAR0 access of the wrong width or alignment completes with Unsupported Request or is discarded, and is counted in BAD_ACC. -/
  | bar0RefusedAccess (write ep : Bool) (off size : Nat)
  /-- BAR2_ACCESS (R374). A host access through a BAR2 aperture is decoded to a system address and answered, discarded or poisoned according to the aperture and the response. -/
  | bar2Access (write : Bool) (off len : Nat) (bytes : List Nat) (ep : Bool)
  /-- COMMAND_TAKE_UP (R366). Firmware takes up the next handed-over slot in doorbell order, checks it under R365 and carries out the command or accepts it as a job. -/
  | commandTakeUp (s0 s1 : Nat)
  /-- MSIX_SPACING_END (R376). When the INT_MOD spacing of a vector ends with a cause latched, one MSI-X message is sent. -/
  | msixSpacingEnd (vector : Nat)
  /-- ENDPOINT_RESET (R360). An FLR of PF0, a hot reset, a link-down reset or PERST# resets the PCIe endpoint only. -/
  | endpointReset (kind : Nat)
  /-- OUTBOUND_TIMEOUT (R375). An outbound PCIe read with no completion within 50 ms gives its master an error response. -/
  | outboundTimeout (master addr : Nat)
  /-- HEARTBEAT_TICK (R361). Each millisecond of the core 0 timer, firmware advances DEVSTAT HEARTBEAT. -/
  | heartbeatTick
  /-- JOB_DONE (R370). A job finishes its work, takes its final code and COUNT, reaches DONE and sets its JOB_DONE bit. -/
  | jobDone (index : Nat) (bad : List Nat)
  /-- SMBUS_WRITE (R377). An SMBus Block Write stores data in the register window, or is discarded when its PEC is wrong. -/
  | smbusWrite (off : Nat) (data : List Nat) (pecOk : Bool)
  /-- SMBUS_DOORBELL (R378). A write of 1 to SMB_DB queues the SMBus mailbox command with the PCIe slots. -/
  | smbusDoorbell
  /-- SMBUS_TIMEOUT (R377). A clock held low for more than 25 ms makes the SMBus port release the bus and discard the transaction. -/
  | smbusTimeout
  /-- SMBUS_ALERT_RESPONSE (R487). The device answers the Alert Response Address and releases SMB_ALERT_N, or asserts it again when a new cause arose. -/
  | smbusAlertResponse (again : Bool)
  /-- SPI_FRAME (R379). An SPI frame delimited by the chip select reads or writes the management window, or is ignored when its opcode is unknown. -/
  | spiFrame (bytes : List Nat) (len : Nat)
  /-- SPI_CS_TIMEOUT (R483). A chip select held low for more than 10 ms abandons the frame and releases MISO. -/
  | spiCsTimeout
  /-- PING (R380). Returns four echoed words followed by DEVSTAT. -/
  | ping (slot : Nat)
  /-- DEV_INFO (R380). Returns the identity block, both QSPI image versions and the profile generation. -/
  | devInfo (slot : Nat)
  /-- JOB_QUERY (R369). Returns the status word, result area and bytes valid of a ticket, or BAD_PARAM for a stale ticket. -/
  | jobQuery (slot : Nat)
  /-- JOB_CANCEL (R372). Cancels a queued or cancellable running job, or is refused for a job that cannot be cancelled. -/
  | jobCancel (slot : Nat)
  /-- JOB_RELEASE (R369). Frees the index and result area of a DONE job. -/
  | jobRelease (slot : Nat)
  /-- APER_SET (R373). Places a BAR2 aperture once earlier BAR2 transactions have completed. -/
  | aperSet (slot : Nat)
  /-- COPY (R349). Starts a DMA copy on a firmware channel as a job. -/
  | copy (slot : Nat)
  /-- ROLE_SET (R2). Changes the native role while no batch is open, otherwise completes with BAD_STATE. -/
  | roleSet (slot : Nat)
  /-- MODE_SET (R1). Records the device mode for the next boot and requests a commit. -/
  | modeSet (slot s0 s1 : Nat)
  /-- HOST_CONFIG (R375). Sets OB_BASE of the outbound window. -/
  | hostConfig (slot : Nat)
  /-- SYS_RESET (R380). Requests a device reset 10 ms after the release of the slot. -/
  | sysReset (slot : Nat)
  /-- PERS_STATUS (R448). Returns the state, DC_STATUS, k, counters and output link of each personality. -/
  | persStatus (slot : Nat)
  /-- PERS_ASSIGN (R435). Sets the enabled personalities, channel counts, spectrum period, SPN bases and epoch, and requests a commit. -/
  | persAssign (slot s0 s1 : Nat)
  /-- PERS_RESET (R448). Applies RESET to a named personality. -/
  | persReset (slot : Nat)
  /-- PERS_LOG (R439). Copies the accounting of each dump of a personality to a system address as a job. -/
  | persLog (slot : Nat)
  /-- TIM_REF_SET (R304). Sets the reference settings, the priority table and REVERT and PBO. -/
  | timRefSet (slot : Nat)
  /-- TIM_LOOP_SET (R285). Sets the loop bandwidth, lock criterion, dwell and holdover parameters. -/
  | timLoopSet (slot : Nat)
  /-- TIM_FORCE (R283). Forces a qualified reference or releases the force. -/
  | timForce (slot : Nat)
  /-- TIM_PHASE_STEP (R295). Applies an immediate or slewed phase step, and optionally sets PH_SLEW. -/
  | timPhaseStep (slot : Nat)
  /-- TIM_OUTPUT (R305). Sets APLLs, clock outputs, SYSREF outputs and LREFs. -/
  | timOutput (slot : Nat)
  /-- TIM_SNG (R296). Sets the rate, epoch and source reference of a sample-number generator. -/
  | timSng (slot : Nat)
  /-- TIM_XO (R292). Sets the XO_IN nominal, identity, temperature table and temperature source; a new identity discards timing history. -/
  | timXo (slot : Nat)
  /-- TIM_HISTORY (R288). Copies timing history and model to a system address as a job, optionally discarding them. -/
  | timHistory (slot : Nat)
  /-- TIM_STATUS (R302). Returns timing registers, counters, model and t_s of each reference, with an optional clear. -/
  | timStatus (slot : Nat)
  /-- TIM_SYSREF_GO (R298). Names the start SN of gapped SYSREF outputs, refused when missed. -/
  | timSysrefGo (slot : Nat)
  /-- TIM_CLOCKS (R301). Sets TCLK while no run is active. -/
  | timClocks (slot : Nat)
  /-- LANE_SET (R86). Configures up to 16 lanes, clearing their ORDER bits and continuity tables. -/
  | laneSet (slot : Nat)
  /-- LANE_STATUS (R83). Returns lane status, counters and the link's reversed or permuted report. -/
  | laneStatus (slot : Nat)
  /-- LANE_POWER (R80). Makes a lane mask enter or leave LOWPOWER. -/
  | lanePower (slot : Nat)
  /-- EYE_SCAN (R84). Starts a grid eye scan of one lane as a job. -/
  | eyeScan (slot : Nat)
  /-- PRBS (R78). Sets the pattern generator and checker of a lane and reads their counts. -/
  | prbs (slot : Nat)
  /-- ERR_INJECT (R79). Injects one form of error on one lane. -/
  | errInject (slot : Nat)
  /-- LANE_GROUP (R67). Defines or deletes an N+1 group, or tuckpoints a lane at a named SPN. -/
  | laneGroup (slot : Nat)
  /-- JESD_LINK (R70). Configures a JESD204C receive link within the supported options. -/
  | jesdLink (slot : Nat)
  /-- JESD_ALIGN (R73). Arms SYSREF alignment of a link, one-shot or continuous. -/
  | jesdAlign (slot : Nat)
  /-- FRONT_CONFIG (R122). Configures the front's shape, mode, rates, widths and inputs, and reports G and HBM demand. -/
  | frontConfig (slot : Nat)
  /-- DELAY_MODEL (R121). Loads one or two delay and phase model segments. -/
  | delayModel (slot : Nat)
  /-- MODEL_TABLE (R95). Loads segments for many inputs from a system address as a job. -/
  | modelTable (slot : Nat)
  /-- COEF_LOAD (R120). Loads the interpolator bank or filterbank window as a job. -/
  | coefLoad (slot : Nat)
  /-- GAIN_LOAD (R109). Fills the inactive gain buffer and names its swap SPN. -/
  | gainLoad (slot : Nat)
  /-- DETECT_SET (R120). Sets detector parameters. -/
  | detectSet (slot : Nat)
  /-- DETECT_READ (R120). Copies detector result or event rings to a system address as a job. -/
  | detectRead (slot : Nat)
  /-- ROUTE_SET (R116). Replaces the front route table after checking lane budgets. -/
  | routeSet (slot : Nat)
  /-- FRONT_START (R120). Names the output SN at which the front starts or stops. -/
  | frontStart (slot : Nat)
  /-- FRONT_STATUS (R119). Returns front state, counters and pending swaps, with an optional counter clear. -/
  | frontStatus (slot : Nat)
  /-- XCOR_PLAN (R153). Computes the correlator plan for given parameters without changing anything. -/
  | xcorPlan (slot : Nat)
  /-- BOND_READ (R152). Copies the active or inactive bond table to a system address as a job. -/
  | bondRead (slot : Nat)
  /-- BOND_SET (R154). Checks a bond table, loads it into the inactive copy and requests the swap, as a job. -/
  | bondSet (slot : Nat)
  /-- TUCKPOINT (R150). Tuckpoints a named active tile at the next batch boundary. -/
  | tuckpoint (slot : Nat)
  /-- AUDIT_CTRL (R147). Enables or disables rotating audits and forces an audit of a position. -/
  | auditCtrl (slot : Nat)
  /-- TILE_STATUS (R151). Returns tile status, audit state and XCOR counters, with an optional clear. -/
  | tileStatus (slot : Nat)
  /-- RUN_START (R28). Checks and starts a correlator run, returning the plan. -/
  | runStart (slot : Nat)
  /-- RUN_STOP (R171). Ends the run at a batch-boundary barrier as a job, dumping the partial integration. -/
  | runStop (slot : Nat)
  /-- INTEG_SET (R158). Changes NINT at a later integration boundary and reports it. -/
  | integSet (slot : Nat)
  /-- DUMP_ROUTE (R181). Replaces the dump route table from the next dump on. -/
  | dumpRoute (slot : Nat)
  /-- DUMP_NOW (R158). Ends the current integration at a batch-boundary barrier, as a job. -/
  | dumpNow (slot : Nat)
  /-- PEEK (R173). Takes a peek image of selected channels at a barrier, as a job. -/
  | peek (slot : Nat)
  /-- ACC_STATUS (R179). Returns accumulation registers, counters, pending barriers and recent dump digests. -/
  | accStatus (slot : Nat)
  /-- BEAM_CONFIG (R205). Configures the beam engine, places and zeroes both weight buffers and restarts the swap state. -/
  | beamConfig (slot : Nat)
  /-- BEAM_ROUTE (R206). Replaces the beam route table when every check passes. -/
  | beamRoute (slot : Nat)
  /-- BEAM_WLOAD (R189). Copies weights and scales into the inactive buffer as a job, then sets READY. -/
  | beamWload (slot : Nat)
  /-- BEAM_WSWAP (R190). Requests a weight swap at a named SPN. -/
  | beamWswap (slot : Nat)
  /-- BEAM_STATUS (R203). Returns beam registers and counters, with an optional clear. -/
  | beamStatus (slot : Nat)
  /-- MEM_STATUS (R239). Returns memory registers, channel states, dead-grain map and region plan. -/
  | memStatus (slot : Nat)
  /-- MEM_QOS (R213). Sets latency targets of the non-real-time ports. -/
  | memQos (slot : Nat)
  /-- MEM_RETRAIN (R219). Retrains a named channel at its next pause. -/
  | memRetrain (slot : Nat)
  /-- CAP_CONFIG (R240). Sets the capture selection, trigger filters, post length and forwarding route. -/
  | capConfig (slot : Nat)
  /-- CAP_ARM (R230). Arms capture from the first segment boundary not yet closed. -/
  | capArm (slot : Nat)
  /-- CAP_TRIGGER (R234). Issues a kind-2 trigger by SPN or NOW. -/
  | capTrigger (slot : Nat)
  /-- CAP_READ (R237). Reads frozen capture segments to a destination as a job. -/
  | capRead (slot : Nat)
  /-- CAP_RELEASE (R237). Returns capture to IDLE or to FILLING, and clears the trigger log. -/
  | capRelease (slot : Nat)
  /-- CAP_STATUS (R238). Returns capture registers, epoch table, trigger log and counters. -/
  | capStatus (slot : Nat)
  /-- ETH_PORT (R273). Sets a MAC's mode, addresses, VIDs and PFC. -/
  | ethPort (slot : Nat)
  /-- STREAM_SET (R272). Defines, redefines or deletes up to five streams. -/
  | streamSet (slot : Nat)
  /-- ACP_RX (R274). Replaces the ACP receive bindings. -/
  | acpRx (slot : Nat)
  /-- NET_STATUS (R270). Returns port registers and stream and binding counters, with an optional clear. -/
  | netStatus (slot : Nat)
  /-- ADDR_TABLE (R254). Reads the resolution cache, and sets or deletes static entries. -/
  | addrTable (slot : Nat)
  /-- PTP_CONFIG (R275). Sets the PTP clock type, domain, ports, mechanism, transport and intervals. -/
  | ptpConfig (slot : Nat)
  /-- PTP_STATUS (R271). Returns port states, master identity, last offset and delay, and UTC offset. -/
  | ptpStatus (slot : Nat)
  /-- TIME_SET (R263). Sets the time source, seconds label and UTC offset, and optionally arms a step. -/
  | timeSet (slot : Nat)
  /-- TIME_GET (R271). Returns the time of day, VALID, offset and slew state. -/
  | timeGet (slot : Nat)
  /-- PULSE_SET (R268). Sets the mode, start, period, width and polarity of one pulse output. -/
  | pulseSet (slot : Nat)
  /-- PORT_DELAY (R271). Sets the fixed latencies and delay asymmetry of a port. -/
  | portDelay (slot : Nat)
  /-- CORE_LOAD (R337). Copies PM, XM and YM images into a stopped core as a job. -/
  | coreLoad (slot : Nat)
  /-- CORE_START (R337). Sets the start PC, windows, watchdog and lines of a core and starts it. -/
  | coreStart (slot : Nat)
  /-- CORE_STOP (R337). Halts a core at a boundary or resets it, resetting it after 1 ms without a halt. -/
  | coreStop (slot : Nat)
  /-- CORE_STATUS (R337). Returns core registers, halted state, CR_MAP and the tuckpointing record. -/
  | coreStatus (slot : Nat)
  /-- CORE_TUCK (R335). Tuckpoints a logical core onto the reserve as a job. -/
  | coreTuck (slot : Nat)
  /-- ERR_READ (R400). Returns ER_STAT, ER_FIRST and error log entries from a log index. -/
  | errRead (slot : Nat)
  /-- ERR_ACK (R397). Clears named ERR_SUM bits and optionally ER_FIRST and LOST. -/
  | errAck (slot : Nat)
  /-- ECC_STATUS (R400). Returns ECC registers and tables, optionally clearing counters and SPARED entries. -/
  | eccStatus (slot : Nat)
  /-- SCRUB_CTRL (R390). Sets scrubbing of one memory class. -/
  | scrubCtrl (slot : Nat)
  /-- CVU_SET (R398). Configures a check-value unit and its owner, and with RUN feeds a system range to it as a job. -/
  | cvuSet (slot : Nat)
  /-- ECC_INJECT (R394). Writes one granule with given data and check bits under BYPASS. -/
  | eccInject (slot : Nat)
  /-- THERM_STATUS (R427). Returns thermal registers, sensors, offsets and counters. -/
  | thermStatus (slot : Nat)
  /-- THERM_SET (R404). Sets zone thresholds, steps, DUTY_MAX or EXCLUDE of a failed sensor. -/
  | thermSet (slot : Nat)
  /-- WEAR_REPORT (R414). Returns margins, fits, forecasts, set point and availability buckets. -/
  | wearReport (slot : Nat)
  /-- RESERVE_STATUS (R428). Returns the reserve inventory and spare map. -/
  | reserveStatus (slot : Nat)
  /-- LEASE_CONFIG (R429). Configures the device as a twin with its lease identity and service addresses, and requests a commit. -/
  | leaseConfig (slot : Nat)
  /-- LEASE_STATUS (R428). Returns lease registers, counters and recent lease words. -/
  | leaseStatus (slot : Nat)
  /-- ARBITER_CONFIG (R418). Sets L, G, PAIR_ID and PREF, and starts or stops the arbiter function. -/
  | arbiterConfig (slot : Nat)
  /-- HEALTH_READ (R428). Returns recent health reports of each twin or of the device itself. -/
  | healthRead (slot : Nat)
  /-- PROFILE_READ (R474). Copies the profile to a system address. -/
  | profileRead (slot : Nat)
  /-- PROFILE_WRITE (R471). Puts, deletes or replaces profile records and requests a commit. -/
  | profileWrite (slot s0 s1 : Nat)
  /-- COMMIT (R467). Requests a commit of retained state as a job. -/
  | commit (slot : Nat)
  /-- HOLDUP_STATUS (R468). Returns the hold-up result and slot state, optionally measuring the bank now. -/
  | holdupStatus (slot s0 s1 : Nat)
  /-- FW_IMAGE (R461). Writes and verifies a firmware image slot and commits BOOT_PREF with TRIAL, as a job. -/
  | fwImage (slot : Nat)
  /-- FACTORY_DEFAULTS (R473). Empties the profile, clears the lease identity and commits. -/
  | factoryDefaults (slot s0 s1 : Nat)
  /-- SELFTEST (R517). Runs one self-test on one unit as a job. -/
  | selftest (slot : Nat)
  /-- SELFTEST_RESULT (R518). Returns the last result of every test and unit. -/
  | selftestResult (slot : Nat)
  /-- DEBUG_LOCK (R516). Sets the debug lock level and optionally burns DBG_MIN. -/
  | debugLock (slot : Nat)
  /-- DC512_DOORBELL (R444). A write to DC_DOORBELL hands personality slots to the device. -/
  | dc512Doorbell (pers v : Nat) (writes : List (Nat × Nat))
  /-- DC512_RESET (R444). DC-512 RESET: stops the personality, halts its control program and clears k and output settings. -/
  | dc512Reset (pers slot : Nat)
  /-- DC512_START (R440). DC-512 START: starts the personality from a named counter value. -/
  | dc512Start (pers slot : Nat)
  /-- DC512_STOP (R440). DC-512 STOP: ends the personality's output at its next dump boundary. -/
  | dc512Stop (pers slot : Nat)
  /-- SET_DUMP (R440). Sets the dump exponent k from the next boundary of the old k. -/
  | setDump (pers slot : Nat)
  /-- SET_OUTPUT (R442). Sets the output MAC, IP addresses, ports and UNIT while stopped. -/
  | setOutput (pers slot : Nat)
  /-- LOAD_DSP (R444). Writes words into control-program memory. -/
  | loadDsp (pers slot : Nat)
  /-- RUN_DSP (R446). Starts the personality's control program. -/
  | runDsp (pers slot : Nat)
  /-- HALT_DSP (R444). Halts the personality's control program. -/
  | haltDsp (pers slot : Nat)
  /-- GET_STATUS (R444). Returns DC_STATUS, DC_COUNTER and frame error counts of the 16 lanes. -/
  | getStatus (pers slot : Nat)
  /-- DC512_FLR (R445). An FLR of PF1 to PF4 resets the personality and returns its slots to the host. -/
  | dc512Flr (pers : Nat)
  /-- DC512_FRAME_RECEIVED (R437). A DC-512 channel frame is checked, extended to an SPN and passed to alignment or dropped. -/
  | dc512FrameReceived (lane : Nat) (bytes : List Nat)
  /-- PERSONALITY_SWITCH (R447). After 1,024 KCLK cycles or a WAIT, the core exchanges register banks to run the other personality. -/
  | personalitySwitch (core : Nat)
  /-- SIGNAL_DETECT (R53). A signal present for 100 µs moves a lane from DETECT to CDR. -/
  | signalDetect (lane : Nat)
  /-- CDR_LOCK (R53). Phase lock held for 50 µs moves a lane from CDR to ADAPT. -/
  | cdrLock (lane : Nat)
  /-- ADAPTATION_SETTLED (R53). Settled equaliser adaptation moves a lane from ADAPT to FEC_LOCK. -/
  | adaptationSettled (lane : Nat)
  /-- FEC_LOCK (R53). Found codeword or block boundaries move a lane to FRAME_LOCK. -/
  | fecLock (lane : Nat)
  /-- FRAME_LOCK (R53). Four consecutive frame syncs move a lane to IDENTIFY. -/
  | frameLock (lane : Nat) (inverted : Bool)
  /-- IDENTIFY (R53). The source identity is compared, moving the lane to UP or MISWIRED. -/
  | identify (lane srcDev link : Nat)
  /-- LANE_STATE_TIMEOUT (R53). A receiver state whose time limit expires returns the lane to CDR and counts RETRAIN. -/
  | laneStateTimeout (lane : Nat)
  /-- LOSS_OF_LANE_LOCK (R54). A lane in UP drops to CDR, FEC_LOCK or FRAME_LOCK on the listed fault. -/
  | lossOfLaneLock (lane kind : Nat)
  /-- LOWPOWER_ENTER (R80). LN_CTRL.LP = 1 puts a lane in LOWPOWER and turns off group PLLs when the whole group is down. -/
  | lowpowerEnter (lane : Nat)
  /-- LOWPOWER_EXIT (R81). LN_CTRL.LP = 0 restores adaptation values and sends the lane to DETECT. -/
  | lowpowerExit (lane : Nat)
  /-- LP_EXIT_LATE (R81). A lane not in UP 20 ms after an exit request raises LP_EXIT_LATE. -/
  | lpExitLate (lane : Nat)
  /-- ASL_FRAME_RECEIVED (R61). A received ASL frame is checked in order, rebuilt where possible, and passed to alignment or dropped. -/
  | aslFrameReceived (lane slot fecCorr fecUncorr header : Nat) (payload : List Nat)
  /-- BULK_AUDIT_POINT (R66). Once per batch, or every 100 ms without a run, a bulk credit audit point is set. -/
  | bulkAuditPoint
  /-- ASL_FRAME_SLOT (R57). At each frame slot a transmitter starts a frame, IDLE when it has nothing to send, with parity on N+1 groups. -/
  | aslFrameSlot (lane : Nat)
  /-- BULK_FRAME_SEND (R65). A waiting bulk frame is sent once credit is available. -/
  | bulkFrameSend (link ch : Nat) (payload : List Nat)
  /-- LANE_TUCKPOINT (R69). At the first frame at or after the named SPN the parity lane carries the failed lane's frames. -/
  | laneTuckpoint (group num : Nat)
  /-- TX_MONITOR_FAIL (R412). A failed transmit pad monitor tuckpoints the lane in an N+1 group or reports LANE_FAILED. -/
  | txMonitorFail (lane : Nat)
  /-- LANE_FAIL_TIMEOUT (R412). A run lane out of UP for 10 s with signal present is declared failed. -/
  | laneFailTimeout (lane : Nat)
  /-- JESD_MULTIBLOCK_RECEIVED (R71). A JESD204C multiblock is CRC-checked and its samples delivered or marked missing. -/
  | jesdMultiblockReceived (link lane : Nat) (crcOk : Bool) (samples : List (Nat × Nat × Nat × Nat))
  /-- SYSREF_EDGE (R73). A SYSREF edge is filtered and aligns, compares or realigns the link. -/
  | sysrefEdge (link cycles since : Nat)
  /-- SYSREF_TIMEOUT (R73). No SYSREF edge accepted within 1 s of arming raises SYSREF_TIMEOUT. -/
  | sysrefTimeout (link : Nat)
  /-- JESD_LINK_FAULT (R74). A device-clock failure, lane loss or elastic buffer fault marks the link's inputs missing. -/
  | jesdLinkFault (link : Nat)
  /-- EYE_POINT_START (R75). LN_EYE.EN = 1 starts one offset-sampler point. -/
  | eyePointStart (lane : Nat)
  /-- EYE_POINT_DONE (R85). A dwell ends, the point's counts are written, and the scan moves to its next point. -/
  | eyePointDone (lane errs ui : Nat)
  /-- EYE_SCAN_WAIT_TIMEOUT (R76). A lane not back in UP within 1 s ends the scan PARTIAL. -/
  | eyeScanWaitTimeout (lane : Nat)
  /-- CHECKER_LOCK (R77). The pattern checker locks after 128 error-free bits, or relocks after 64 errors in 1,024 bits. -/
  | checkerLock (lane bits errs : Nat)
  /-- INJ_GO (R79). A write of INJ_GO starts error injection on the lane. -/
  | injGo (lane : Nat)
  /-- PERIODIC_INJECTION (R79). Every 2^INJ_LOG2 bits an error is injected in periodic mode. -/
  | periodicInjection (lane : Nat)
  /-- CNT_CLR (R82). A write of LN_CTRL.CNT_CLR clears every counter of the lane. -/
  | cntClr (lane : Nat)
  /-- SAMPLE_DEADLINE (R91). The input sample counter reaching a sample's deadline leaves its group MISSING when not received. -/
  | sampleDeadline (input group : Nat)
  /-- DELAY_KNOT (R94). At each knot the front evaluates the delay model, clamps it and activates or expires segments. -/
  | delayKnot
  /-- FRONT_SPECTRUM (R104). The front computes one spectrum through filterbank, FFT, rotation, gain and requantiser, and emits it. -/
  | frontSpectrum
  /-- DETECTOR_INTERVAL_END (R109). A peak, RMS or channel-power interval ends and its result is written to the result ring. -/
  | detectorIntervalEnd (kind input channel interval : Nat)
  /-- ENVELOPE_EVENT (R110). An envelope event ends after EVT_HOLD quiet samples, blanking groups and logging the event. -/
  | envelopeEvent (input : Nat)
  /-- KURTOSIS_BLOCK (R113). At the end of M_K spectra SK is computed and the block blanked when outside bounds. -/
  | kurtosisBlock
  /-- FRONT_START_REACHED (R120). The front starts or stops at the output SN named by FRONT_START. -/
  | frontStartReached
  /-- BATCH_CLOSE (R29). E(t) reaching S0 + (b + 1)·T + W closes batch b, zero-fills missing slots and starts its staging. -/
  | batchClose (selftest : Bool)
  /-- STAGING_READ_COMPLETE (R144). A course set read from HBM becomes complete in the staging ring. -/
  | stagingReadComplete (bad : List (Nat × Nat × Nat)) (ce : List Nat)
  /-- COURSE_DISPATCH (R34). A course is broadcast to the tiles and beam engine once its set is complete and no hold applies. -/
  | courseDispatch
  /-- ITEM_SLOT (R133). A slot time ends with a plane swap, saving the previous item's context and loading the next. -/
  | itemSlot (ce ue : List (Nat × Nat)) (flips : List (Nat × Nat × Nat))
  /-- PAUSE_CYCLES_END (R146). Throttling pause cycles at a course boundary run out and dispatch resumes. -/
  | pauseCyclesEnd
  /-- MORTAR_RELEASE (R159). The mortar releases the next context in ascending order once all earlier ones are released. -/
  | mortarRelease
  /-- CHUNK_PROMOTE (R161). A promotion unit adds a chunk record exactly into its long accumulator, or opens or closes the integration. -/
  | chunkPromote
  /-- DUMP_START (R168). Once closing promotion has finished, the dump reader checks accounting and starts reading the dump. -/
  | dumpStart
  /-- DUMP_COMPLETE (R179). The dump reader finishes a dump, counting it in DUMPS and ending waiting jobs. -/
  | dumpComplete
  /-- RESERVE_TILE_SELFTEST (R147). Every 24 h firmware self-tests each reserve tile between batches. -/
  | reserveTileSelftest (tile : Nat) (pass : Bool)
  /-- STRIKE_EXPIRY (R411). A tile strike expires 24 h after it was recorded. -/
  | strikeExpiry (tile : Nat)
  /-- BEAM_CHANNEL_COURSE (R185). The beam engine processes one complete channel-course, forming beams and output values. -/
  | beamChannelCourse
  /-- SWAP (R190). A write of BM_WCTRL.SWAP requests a weight swap at BM_WSPN. -/
  | swap (who : Nat)
  /-- READY (R189). A write of BM_WCTRL.READY marks the inactive weight buffer ready. -/
  | ready (who : Nat)
  /-- TRIG_IN_EDGE (R232). A TRIG_IN edge is filtered and, when accepted, becomes a kind-1 trigger. -/
  | trigInEdge (pin : Nat) (rising : Bool) (holdNs : Nat)
  /-- TRIG_TIMEOUT (R232). An enabled pin with no accepted edge for PIN_TIMEOUT raises TRIG_TIMEOUT once. -/
  | trigTimeout (pin : Nat)
  /-- CAP_DROP (R229). A capture request overdue by more than 12 µs more is dropped and its segment flagged. -/
  | capDrop (seg off len : Nat)
  /-- COMMAND_SLOT (R212). A memory scheduler serves one request by urgency, rank and age. -/
  | commandSlot (unit dt : Nat) (arrivals : List (Nat × Nat × Nat × Bool))
  /-- REFRESH (R216). A refresh falls due and is issued or postponed within the standard's limit. -/
  | refresh (unit : Nat) (atLimit : Bool) (rows : List (Nat × Nat))
  /-- RETRAIN_PAUSE (R219). A periodic retraining pause falls due and is taken or waits. -/
  | retrainPause (channel : Nat)
  /-- RETRAIN_FORCED (R219). A pause that has waited 10 ms is taken regardless. -/
  | retrainForced (channel : Nat)
  /-- PARITY_ALERT (R220). A command-address parity alert stops the channel and replays buffered commands. -/
  | parityAlert (channel : Nat) (again : Bool)
  /-- MATRIX_ACCESS (R340). A target grants a master's burst and executes the access. -/
  | matrixAccess (master wait : Nat) (others : List (Nat × Nat)) (write : Bool) (addr len : Nat) (bytes : List Nat) (lanes : List Bool)
    (ecc : List (Nat × Nat))
  /-- TARGETED_SCRUB (R390). A LOGGED address is scrubbed and rewritten within 1 ms of its entry. -/
  | targetedScrub (k e err : Nat)
  /-- PATROL_SCRUB (R390). The patrol scrubber reads and writes back the next granule of its pass. -/
  | patrolScrub (k err : Nat)
  /-- SCRUB_LATE (R391). A pass not finished within twice PERIOD_S sends SCRUB_LATE. -/
  | scrubLate (k : Nat)
  /-- SPARED (R388). Firmware spares a HARD address with the class's resource at the allowed moment. -/
  | spared (k e : Nat) (spare : Bool)
  /-- ERROR_HANDLING (R396). Firmware takes the oldest ERRC entry, handles it and logs it. -/
  | errorHandling
  /-- POP (R396). A write of ER_CMD.POP removes the oldest entry. -/
  | pop
  /-- CLR_FIRST (R395). A write of ER_CMD.CLR_FIRST clears ER_FIRST, FIRST_VALID and LATER. -/
  | clrFirst
  /-- CLR_LOST (R395). A write of ER_CMD.CLR_LOST clears LOST and LOST_CNT. -/
  | clrLost
  /-- CV_START (R398). A write of CV_CFG.START loads INIT and clears the alive first-byte state. -/
  | cvStart (unit who : Nat)
  /-- CV_FEED_B (R398). A byte write is queued for the CRC unit. -/
  | cvFeedB (unit who v : Nat)
  /-- CV_FEED_H (R398). A half-word write is queued for the CRC unit. -/
  | cvFeedH (unit who v : Nat)
  /-- CV_FEED_W (R398). A word write is queued for the CRC unit. -/
  | cvFeedW (unit who v : Nat)
  /-- FEED_ABSORB (R398). The unit absorbs the next queued feed into its CRC register. -/
  | feedAbsorb (unit : Nat)
  /-- CV_ALIVE_GO (R399). A write appends COUNT or verifies a received alive byte. -/
  | cvAliveGo (unit who r : Nat)
  /-- CV_RESULT_READ (R398). A read of CV_RESULT waits for earlier feeds, then returns the CRC. -/
  | cvResultRead (unit : Nat)
  /-- REMAP (R344). A write of 1 to SC_REMAP.REMAP switches region zero to working SRAM after earlier transactions. -/
  | remap (who : Nat)
  /-- DMA_START (R355). A write of DC_CTRL.START clears counters and starts the channel at DC_HEAD. -/
  | dmaStart (ch who : Nat)
  /-- RESUME (R354). A write of DC_CTRL.RESUME re-reads the tail in AT_END or counts a NOP. -/
  | resume (ch who : Nat)
  /-- ABORT (R356). A write of DC_CTRL.ABORT stops the channel and ends the descriptor ABORTED. -/
  | abort (ch who moved : Nat)
  /-- DESCRIPTOR_FETCH (R348). A fetched descriptor is counted and checked, and its copy starts. -/
  | descriptorFetch (ch : Nat)
  /-- DESCRIPTOR_COMPLETE (R351). After write responses and read-back, a descriptor completes, counts and raises end of count. -/
  | descriptorComplete (ch : Nat)
  /-- END_CHECK (R353). The re-read of a completed END descriptor continues the chain or enters AT_END. -/
  | endCheck (ch : Nat)
  /-- CMD_START (R306). CR_CTRL.CMD = 1 starts the core at START_PC. -/
  | cmdStart (core who : Nat)
  /-- CMD_HALT (R306). CR_CTRL.CMD = 2 halts the core at an instruction boundary. -/
  | cmdHalt (core who : Nat)
  /-- CMD_RESET (R306). CR_CTRL.CMD = 3 resets the core. -/
  | cmdReset (core who : Nat)
  /-- KICK (R333). A write of CR_WDOG.KICK restarts the watchdog timeout. -/
  | kick (core who : Nat)
  /-- WATCHDOG_EXPIRY (R333). A core watchdog expires, halting the core and notifying firmware or SYSCTL. -/
  | watchdogExpiry (core : Nat)
  /-- TIMER_COMPARE (R327). CR_TIMER reaching CR_TCMP raises line 17. -/
  | timerCompare (core : Nat)
  /-- SWSET (R327). A write of CR_INT.SWSET sets a software line pending. -/
  | swset (core line who : Nat)
  /-- WINDOW_WRITE_ERROR (R310). A posted window write receiving an error response sets WERR and raises line 18. -/
  | windowWriteError (core : Nat)
  /-- LEVEL_1_INTERRUPT (R328). A pending level-1 line is taken, saving PC and SR and toggling BANK. -/
  | level1Interrupt (core : Nat)
  /-- LEVEL_2_INTERRUPT (R329). A pending level-2 line is taken, saving PC and SR in IPC2 and ISR2. -/
  | level2Interrupt (core : Nat)
  /-- RESERVE_CORE_SELFTEST (R334). Every 24 h firmware self-tests the reserve core. -/
  | reserveCoreSelftest (pass : Bool)
  /-- NOP (R331). No operation. -/
  | rNop (core : Nat)
  /-- RTS (R326). Returns from subroutine after its delay slots. -/
  | rRts (core : Nat)
  /-- RTI1 (R328). Returns from a level-1 interrupt, restoring SR and PC. -/
  | rRti1 (core : Nat)
  /-- RTI2 (R329). Returns from a level-2 interrupt from ISR2 and IPC2. -/
  | rRti2 (core : Nat)
  /-- RTT (R330). Returns from a trap to TPC, or to TTGT after a delay slot. -/
  | rRtt (core : Nat)
  /-- ENDDO (R321). Pops the top loop stack entry. -/
  | rEnddo (core : Nat)
  /-- SYNC (R310). Waits until every posted write of the core has completed. -/
  | rSync (core : Nat)
  /-- WAIT (R447). Waits, yielding to the other personality in the compatibility state. -/
  | rWait (core : Nat)
  /-- TRAP (R330). Takes the TRAP vector. -/
  | rTrap (core : Nat)
  /-- BRA (R326). Branches with two delay slots. -/
  | rBra (core : Nat)
  /-- BSR (R326). Branches to a subroutine, pushing the return address. -/
  | rBsr (core : Nat)
  /-- BCC (R326). Branches when the condition holds. -/
  | rBcc (core : Nat)
  /-- DO (R321). Opens a hardware loop on the loop stack, or traps on overflow. -/
  | rDo (core : Nat)
  /-- REP (R323). Repeats the next single-word instruction count times. -/
  | rRep (core : Nat)
  /-- MOVEI (R331). Loads a sign-extended 16-bit immediate into a register. -/
  | rMovei (core : Nat)
  /-- MOVER (R315). Moves one register to another, limiting accumulators under SM. -/
  | rMover (core : Nat)
  /-- MOVEM (R318). Loads or stores a register in X or Y space with register-indirect addressing. -/
  | rMovem (core : Nat)
  /-- AND (R331). Bitwise AND of two registers. -/
  | rAnd (core : Nat)
  /-- OR (R331). Bitwise OR of two registers. -/
  | rOr (core : Nat)
  /-- EOR (R331). Bitwise exclusive OR of two registers. -/
  | rEor (core : Nat)
  /-- BSET (R331). Sets a bit of a register. -/
  | rBset (core : Nat)
  /-- BCLR (R331). Clears a bit of a register. -/
  | rBclr (core : Nat)
  /-- BTST (R331). Tests a bit into Z. -/
  | rBtst (core : Nat)
  /-- ADDI (R331). Adds a signed immediate to a register. -/
  | rAddi (core : Nat)
  /-- MOVES_ONLY (R331). Performs only the parallel moves of a PAR word. -/
  | rMovesOnly (core : Nat)
  /-- MPY (R313). Loads a product into the accumulator. -/
  | rMpy (core : Nat)
  /-- MAC (R313). Adds a product to the accumulator. -/
  | rMac (core : Nat)
  /-- MSU (R313). Subtracts a product from the accumulator. -/
  | rMsu (core : Nat)
  /-- MPYR (R316). Multiplies and rounds. -/
  | rMpyr (core : Nat)
  /-- MACR (R316). Multiply-accumulates and rounds. -/
  | rMacr (core : Nat)
  /-- MAC2 (R313). Adds two products into two accumulators in one cycle. -/
  | rMac2 (core : Nat)
  /-- MSU2 (R313). Subtracts two products from two accumulators in one cycle. -/
  | rMsu2 (core : Nat)
  /-- ADD (R314). Adds an operand times 2^24 to the accumulator. -/
  | rAdd (core : Nat)
  /-- SUB (R314). Subtracts an operand times 2^24 from the accumulator. -/
  | rSub (core : Nat)
  /-- ADDA (R314). Adds another accumulator. -/
  | rAdda (core : Nat)
  /-- SUBA (R314). Subtracts another accumulator. -/
  | rSuba (core : Nat)
  /-- CMP (R314). Sets flags of accumulator minus operand. -/
  | rCmp (core : Nat)
  /-- TST (R314). Sets flags from the accumulator. -/
  | rTst (core : Nat)
  /-- CLR (R314). Clears the accumulator. -/
  | rClr (core : Nat)
  /-- NEG (R314). Negates the accumulator. -/
  | rNeg (core : Nat)
  /-- ABS (R314). Takes the absolute value of the accumulator. -/
  | rAbs (core : Nat)
  /-- TFR (R314). Copies another accumulator. -/
  | rTfr (core : Nat)
  /-- RND (R316). Rounds the accumulator to a multiple of 2^24. -/
  | rRnd (core : Nat)
  /-- ASL (R314). Shifts the accumulator left by one. -/
  | rAsl (core : Nat)
  /-- ASR (R314). Shifts the accumulator right by one. -/
  | rAsr (core : Nat)
  /-- NORM (R317). Moves the accumulator one bit toward normal form. -/
  | rNorm (core : Nat)
  /-- EXP (R317). Writes the normalising shift of the accumulator. -/
  | rExp (core : Nat)
  /-- JMP (R326). Jumps to an 18-bit target. -/
  | rJmp (core : Nat)
  /-- JSR (R326). Jumps to a subroutine at an 18-bit target. -/
  | rJsr (core : Nat)
  /-- BCC_LONG (R326). Branches to an 18-bit target when the condition holds. -/
  | rBccLong (core : Nat)
  /-- DO_LONG (R321). Opens a hardware loop with a 24-bit count. -/
  | rDoLong (core : Nat)
  /-- REP_LONG (R323). Repeats the next instruction with a 24-bit count. -/
  | rRepLong (core : Nat)
  /-- MOVEI_LONG (R331). Loads a 24-bit immediate into a register. -/
  | rMoveiLong (core : Nat)
  /-- MOVEL (R315). Moves an accumulator's 48 bits to or from memory. -/
  | rMovel (core : Nat)
  /-- NORMF (R317). Normalises the accumulator in one instruction. -/
  | rNormf (core : Nat)
  /-- MACX (R313). Multiplies, multiply-accumulates or subtracts with any X and Y register. -/
  | rMacx (core : Nat)
  /-- MOVEX (R318). Loads or stores at address Pn + Nn. -/
  | rMovex (core : Nat)
  /-- ETH_FRAME_RECEIVED (R244). A received Ethernet frame is filtered and delivered to firmware, TSU or an ACP binding, or discarded. -/
  | ethFrameReceived (port : Nat) (fcsOk : Bool) (bytes : List Nat) (fill : Nat)
  /-- PFC_PAUSE_END (R245). The pause time of a PFC-paused priority runs out. -/
  | pfcPauseEnd (port pri : Nat)
  /-- PFC_STORM (R246). A priority paused for WDOG_MS is declared stormed. -/
  | pfcStorm (port pri : Nat)
  /-- STORM_CLEAR (R246). After 1 s without PFC for it, a stormed priority honours PFC again. -/
  | stormClear (port pri : Nat)
  /-- PFC_RENEW (R247). While the receive buffer stays above 50 %, the sent pause is renewed every half quantum. -/
  | pfcRenew (port fill : Nat)
  /-- LINK_DOWN (R242). A port's link goes down and LINK_DOWN counts. -/
  | linkDown (port : Nat) (localFault fecLock : Bool)
  /-- LINK_UP (R242). A port's link comes up and frames may be sent. -/
  | linkUp (port : Nat) (remoteFault : Bool)
  /-- PACKET_TRANSMIT (R249). At a frame boundary the port sends the highest-priority eligible packet. -/
  | packetTransmit (port : Nat)
  /-- RESOLUTION_RETRY (R254). Firmware retries ARP or Neighbour Solicitation every 1 s. -/
  | resolutionRetry
  /-- ENTRY_REFRESH (R254). A resolved entry is refreshed after 60 s, becoming unresolved after three failures. -/
  | entryRefresh (port : Nat) (v6 : Bool) (ip : Nat)
  /-- TRIG_TX_DROP (R258). A trigger message waiting 10 ms is dropped behind a GAP record. -/
  | trigTxDrop (stream : Nat)
  /-- PTP_MESSAGE_TX (R265). A PTP interval expires and a Sync, Delay_Req, Pdelay_Req or Announce is sent. -/
  | ptpMessageTx (port kind : Nat)
  /-- ANNOUNCE_TIMEOUT (R267). A port with no Announce within its receipt timeout leaves slave state. -/
  | announceTimeout (port : Nat)
  /-- OFFSET_MEASUREMENT (R262). An offset measurement steps the TSU once, applies an armed step, or slews by rate. -/
  | offsetMeasurement (port : Nat) (t1 t2 t3 t4 delay : Int)
  /-- TSU_TOD_SEC_READ (R260). A read of TSU_TOD_SEC latches TSU_TOD_NS. -/
  | tsuTodSecRead
  /-- STEP_ARM (R263). A write of TSU_CTRL.STEP_ARM arms a step at the next measurement. -/
  | stepArm
  /-- PULSE_EDGE (R268). A pulse output begins or ends a pulse at its programmed time of day. -/
  | pulseEdge (p : Nat)
  /-- ACTIVITY_FAULT (R277). A reference without edges for its limit is disqualified. -/
  | activityFault (r : Nat)
  /-- PERIOD_FAULT (R277). A divided period beyond PER_TOL disqualifies the reference. -/
  | periodFault (r : Nat)
  /-- PPS_IN_EDGE (R278). A PPS_IN edge is filtered and stamped, or counted in PPS_IGN. -/
  | ppsInEdge (pin : Nat) (rising : Bool) (holdNs : Nat)
  /-- FREQUENCY_MEASUREMENT (R279). Once per second each reference's offset is measured and it is qualified or disqualified. -/
  | frequencyMeasurement (r : Nat) (y : Int) (active periodOk : Bool)
  /-- SWITCH_COMPLETE (R284). Lock held for LOCK_DWELL completes a switch or acquisition into LOCKED or NARROW. -/
  | switchComplete
  /-- SWITCH_TIMEOUT (R284). A switch not complete within SW_TIMEOUT disqualifies its target. -/
  | switchTimeout
  /-- NARROW_STEP (R285). The DPLL takes the next narrowing step of its bandwidth. -/
  | narrowStep
  /-- LOSS_OF_LOCK (R286). A phase error beyond 4·LOCK_PH returns the DPLL to ACQUIRE. -/
  | lossOfLock
  /-- XO_FAIL (R294). XO_IN stopping or leaving 1 % enters XO_FAULT and holds every PLL. -/
  | xoFail
  /-- HOLDOVER_UPDATE (R289). Once per second in holdover the DPLL follows the prediction. -/
  | holdoverUpdate
  /-- HISTORY_RECORD (R288). Once per second in LOCKED firmware records offset and temperature. -/
  | historyRecord (y : Int)
  /-- DAILY_ENTRY (R291). A daily mean is added, the ageing model and wear forecasts refitted and a commit requested. -/
  | dailyEntry
  /-- XO_CHANGED (R292). After the first 60 s of LOCKED, a jump beyond XO_JUMP discards timing history. -/
  | xoChanged
  /-- HO_LIMIT (R293). One holdover period exceeding HO_LIM hours enters HO_LIMIT. -/
  | hoLimit
  /-- TEMP_STALE (R290). An external temperature not rewritten within 10 s is replaced by the die sensor. -/
  | tempStale
  /-- TIM_XO_TEMP_WRITE (R290). A write of TIM_XO_TEMP supplies the external temperature and sets TEMP_EXT. -/
  | timXoTempWrite (v : Nat)
  /-- PHASE_STEP (R295). A write of TIM_PHASE applies an immediate or slewed phase step. -/
  | phaseStep (v : Nat)
  /-- SYSREF_OUT_PULSE (R298). A SYSREF output pulses at a multiple of SPER of its generator. -/
  | sysrefOutPulse (n : Nat)
  /-- SENSOR_READING (R401). Every 1 ms sensors are read, elements judged and thermal levels evaluated. -/
  | sensorReading (temps : List Int) (bad : List Nat)
  /-- SHUTDOWN_ASSERT (R407). After the commit or 10 ms, THERM_SHDN_N is asserted and clocks stop. -/
  | shutdownAssert
  /-- SENSOR_TUCKPOINT (R402). Firmware switches a sensor whose primary element failed to its reserve. -/
  | sensorTuckpoint (sensor : Nat)
  /-- ANALOGUE_TRIP (R408). The analogue comparator at 120 °C asserts THERM_SHDN_N and stops the clocks. -/
  | analogueTrip
  /-- AVS_ADJUST (R409). Every 10 s firmware reads margins and steps VDD_CORE. -/
  | avsAdjust (margins : List Int) (ack : Bool)
  /-- LEASE_SYNC (R416). A SYNC lease word is accepted or ignored. -/
  | leaseSync (word : List Nat)
  /-- LEASE_GRANT (R417). A GRANT is accepted, starting the lease timer and the takeover, or refused. -/
  | leaseGrant (word : List Nat)
  /-- LEASE_REVOKE (R417). A REVOKE ends the holder's lease. -/
  | leaseRevoke (word : List Nat)
  /-- HEALTH_REPORT (R420). The arbiter receives a HEALTH word and compares the twins. -/
  | healthReport (word : List Nat)
  /-- LEASE_TIMER_EXPIRY (R417). The lease timer reaching zero ends the lease. -/
  | leaseTimerExpiry
  /-- NO_ARBITER (R416). No SYNC accepted for 5 ms enters NO_ARBITER. -/
  | noArbiter
  /-- HEALTH_SLOT (R420). In its slot a twin sends its HEALTH word. -/
  | healthSlot
  /-- ARBITER_SYNC (R415). Every 1 ms the arbiter sends SYNC. -/
  | arbiterSync
  /-- ARBITER_RENEW (R418). Every L/4 the arbiter renews the valid holder. -/
  | arbiterRenew
  /-- ARBITER_GRANT (R418). Once t_g + L + G has passed, the arbiter grants the other twin with GEN + 1. -/
  | arbiterGrant
  /-- TWIN_FAILED (R420). At a slot end without three valid reports the arbiter declares the twin failed. -/
  | twinFailed (node : Nat)
  /-- ARBITER_WAIT_END (R418). After 30 ms + G from start the arbiter sets its GEN and may grant. -/
  | arbiterWaitEnd
  /-- POWER_ON_RESET (R455). VDD_AUX rising through 1.62 V resets everything. -/
  | powerOnReset (straps : Nat)
  /-- RESET_N (R455). RESET_N low for 10 µs or more starts a device reset. -/
  | resetN (lowNs : Nat)
  /-- SUPPLY_MONITOR_LOW (R450). A supply below its threshold for more than 2 µs starts a device reset. -/
  | supplyMonitorLow (supply ns : Nat)
  /-- POWER_SEQ (R453). The monitors record the first broken ordering rule in SC_PWRSEQ. -/
  | powerSeq (step supply ns : Nat)
  /-- DEVICE_RESET_END (R455). 10 ms after RESET_N high and all monitors above threshold, device reset ends and straps are sampled. -/
  | deviceResetEnd (recovery testEn xoOk : Bool)
  /-- WATCHDOG_RESET (R457). 100 ms after a core 0 watchdog expiry a device reset follows unless HOLD is set. -/
  | watchdogReset
  /-- BOOT_ROM_START (R459). The boot ROM waits for the commit engine, tests, selects a slot, verifies and loads firmware. -/
  | bootRomStart (corePass flashOk : Bool) (chkBad : List (Nat × Nat))
  /-- RESTORE (R471). Firmware selects retained state, replays the profile, sets VDD_CORE and restores the spare map. -/
  | restore (ack : Bool)
  /-- TRAIN (R218). Firmware trains memories and lanes, applies repairs and runs checker tests. -/
  | train (dimm : List Nat) (rate : Nat) (units chans lanes tiles : List Nat) (chkBad : List (Nat × Nat)) (bodyOk : Bool)
  /-- TRAIN_TIMEOUT (R459). A unit not trained by 11.0 s is marked failed and the state becomes DEGRADED. -/
  | trainTimeout (units chans lanes : List Nat)
  /-- COMMIT_START (R467). A requested commit runs its hold-up check and starts programming, or ends HOLDUP_LOW. -/
  | commitStart (s0 s1 : Nat)
  /-- COMMIT_READBACK (R467). Programming and read-back end, selecting the new slot or ending HW_FAULT. -/
  | commitReadback (same : Bool)
  /-- ERASE_COMPLETE (R466). A slot erase finishes, letting a waiting commit go on. -/
  | eraseComplete
  /-- TAP_RESET (R507). TRST_N low or five TMS-high cycles reset the TAP. -/
  | tapReset
  /-- INSTRUCTION_LOAD (R510). A TAP instruction is loaded, holding the device in reset for boundary instructions. -/
  | instructionLoad (code : Nat) (supplies : Bool)
  /-- QDP_ACCESS (R511). At Update-DR a QDP register access starts, or is discarded while busy. -/
  | qdpAccess (scan : Nat) (slow : Bool)
  /-- HALT (R513). QD_CTRL.HALT stops the selected core at an allowed boundary. -/
  | halt
  /-- QDP_RESUME (R513). QD_CTRL.RESUME resumes a core halted by QDP. -/
  | qdpResume
  /-- STEP (R513). QD_CTRL.STEP executes one instruction and halts again. -/
  | step
  /-- DEV_RESET (R457). QD_CTRL.DEV_RESET performs a device reset with cause QDP. -/
  | devReset
  /-- BREAKPOINT (R513). A breakpoint match halts the core before the instruction, or at the next allowed boundary. -/
  | breakpoint (core : Nat)
  /-- WORD_LATCH_READ (R21). A 32-bit read of the lower word of a 64-bit register latches its upper word. -/
  | wordLatchRead (addr : Nat)
  /-- REGISTER_WRITE (R18). A write to a register without a row of its own sets, clears or ignores fields by access code, or is dropped under R7. -/
  | registerWrite (who addr size v : Nat)
  /-- ILLEGAL_INSTRUCTION (R331). An instruction word with an illegal encoding, a reserved register code or field, or a NATIVE word in the compatibility state takes the illegal-instruction trap. -/
  | illegalInstruction (core : Nat)
  /-- VDD_AUX_REMOVED (R470). VDD_AUX falling below 1.62 V stops the commit engine's programming and powers the whole device off. -/
  | vddAuxRemoved (whole : Bool)
  /-- DEVICE_RESET_AFTER_RELEASE (R380). 10 ms after the release of a SYS_RESET slot, a device reset with cause SYS takes place. -/
  | deviceResetAfterRelease
  /-- HOURLY_COMMIT_RETRY (R292). After a timing-history commit returns HOLDUP_LOW, firmware requests the commit again every hour. -/
  | hourlyCommitRetry
  /-- RETURN_TO_D0 (R359). The function's return to D0 with MSI-X enabled and the vector unmasked sends the latched interrupt causes. -/
  | returnToD0 (d3hot linkUp busMaster msixEn : Bool) (mask : Nat)
  deriving DecidableEq, Repr

end Sys2Proof
end

