-- ==== Sys2Proof/Decode.lean ====
section
/-!
DEFINITION. The commands of this block come from outside as events and bus accesses; no row of the opcode table gives an
encoding in bits, so no word spells a command.
-/
namespace Sys2Proof

/-- The command that a word of the opcode table spells: the table gives no row any bits. -/
def decodeTableWord (_ _ : Nat) : Option Instr := none

end Sys2Proof
end

