-- ==== Sys2Proof/Config.lean ====
section
/-!
DEFINITION. The values that the manual leaves open or that one device's making fixes, as constants without a body: a
proof about them holds whatever they are.
-/
namespace Sys2Proof

/-- The bytes of the boot ROM, whose contents the manual does not give (log entry 6). -/
opaque Config.romByte : Nat → Byte

/-- What a byte of host memory that the device has not written reads as through the outbound window (log entry 7). -/
opaque Config.hostByte : Nat → Byte

/-- The n-th free value the machine draws: a value of the outside world or one the manual leaves open (log entry 3). -/
opaque Config.freeNat : Nat → Nat

/-- The delay in 2^-40 samples that a knot takes when its model gives no number there (log entry 12). -/
opaque Config.nanDelay : Nat → Nat

/-- One less than the entries the event ring of the front holds, which the manual does not give (log entry 12). -/
opaque Config.eventRing : Nat

/-- The LREF, 0 to 3, that the lane PLL 2 · group + (1 for PLL_B) takes, which the manual does not give (log entry 17). -/
opaque Config.lrefOf : Nat → Nat

/-- What a decoder of a memory class makes of a granule written with given data and check bits, whose code words the manual
does not give: the outcome modulo 4 (0 clean, 1 corrected, 2 uncorrectable, 3 stored poison) and the data it delivers (log
entry 19). -/
opaque Config.eccDecode : Nat → Nat → Nat → Nat × Nat

/-- Bytes of memory class 4, and the locator of a granule of it by its place in the class, which the manual does not give
beyond the staging SRAM (log entry 19). -/
opaque Config.class4Bytes : Nat
opaque Config.class4Loc : Nat → Nat

/-- A unit's margin in 0.01 % referred to 0.85 V and to the unit's mean temperature, from the margin at a set point in mV; the
manual does not give the reference (log entry 20). -/
opaque Config.referMargin : Nat → Int → Nat → Int

/-- What is fused at manufacture (R460): the SHA-384 of the firmware key, and the least security version of an image (log entry
25). -/
opaque Config.fuseKeyHash : Nat
opaque Config.fuseMinSvn : Nat

/-- The device's serial number and its boot ROM's version (Table 12.5; log entry 25). -/
opaque Config.serial : Nat
opaque Config.romVer : Nat

/-- The JEP106 code of Kamlys in IDCODE (R508; log entry 25). -/
opaque Config.jepKamlys : Nat

end Sys2Proof
end

