-- ==== Sys2Proof/Machine/Bits.lean ====
section
/-!
DEFINITION. Bit fields, serial differences, byte order, sign extension and keyed tables: the small operations that
every other file of the machine calls.
-/
namespace Sys2Proof.Machine

/-- Bits [hi:lo] of a number (00_scope R10). -/
def bits (x hi lo : Nat) : Nat := x / 2 ^ lo % 2 ^ (hi + 1 - lo)

/-- Bit `i` of a number. -/
def bit (x i : Nat) : Bool := x.testBit i

/-- 1 for true, 0 for false. -/
def b2n (b : Bool) : Nat := if b then 1 else 0

/-- A named field of a register: bits [hi:lo]. -/
structure Fld where
  hi : Nat
  lo : Nat
  deriving DecidableEq, Repr

/-- The value of a field in a register. -/
def getF (f : Fld) (x : Word64) : Nat := x.toNat / 2 ^ f.lo % 2 ^ (f.hi + 1 - f.lo)

/-- A register with one field replaced, every other bit kept. -/
def putF (f : Fld) (v : Nat) (x : Word64) : Word64 :=
  BitVec.ofNat 64 (x.toNat % 2 ^ f.lo + v % 2 ^ (f.hi + 1 - f.lo) * 2 ^ f.lo
    + x.toNat / 2 ^ (f.hi + 1) * 2 ^ (f.hi + 1))

/-- The serial difference of two n-bit counter values (00_scope R16). -/
def serialDiff (a b n : Nat) : Int :=
  (((a : Int) - (b : Int) + 2 ^ (n - 1)) % 2 ^ n) - 2 ^ (n - 1)

/-- `a` counts as later than `b` (R16). -/
def later (a b n : Nat) : Bool := decide (serialDiff a b n > 0)

/-- `a` counts as earlier than `b` (R16). -/
def earlier (a b n : Nat) : Bool := decide (serialDiff a b n < 0)

/-- An n-bit two's complement number read as an integer. -/
def sext (n x : Nat) : Int :=
  if x % 2 ^ n < 2 ^ (n - 1) then (x % 2 ^ n : Nat) else ((x % 2 ^ n : Nat) : Int) - 2 ^ n

/-- An integer as an n-bit two's complement number, higher bits dropped. -/
def wrapN (n : Nat) (x : Int) : Nat := (x % (2 ^ n : Int)).toNat

/-- A counter of n bits that stays at all ones once it gets there (00_scope R20). -/
def satAdd (n c k : Nat) : Nat := min (c + k) (2 ^ n - 1)

/-- An integer held between two limits. -/
def clampI (lo hi x : Int) : Int := if x < lo then lo else if hi < x then hi else x

/-- A number held between two limits. -/
def clampN (lo hi x : Nat) : Nat := if x < lo then lo else if hi < x then hi else x

/-- Division rounded to nearest, ties to even (00_scope R15). -/
def roundDiv (x : Int) (d : Nat) : Int :=
  let q := x / (d : Int)
  let r := x % (d : Int)
  if 2 * r < d then q else if 2 * r > d then q + 1 else if q % 2 = 0 then q else q + 1

/-- The ceiling of a quotient. -/
def ceilDiv (a b : Nat) : Nat := (a + b - 1) / b

/-- The number a list of bytes spells, first byte least significant (R10). -/
def leNat : List Nat → Nat
  | [] => 0
  | b :: bs => b % 256 + 256 * leNat bs

/-- The n low bytes of a number, least significant first (R10). -/
def leBytes : Nat → Nat → List Nat
  | 0, _ => []
  | n + 1, x => x % 256 :: leBytes n (x / 256)

/-- The bytes of a list of 32-bit words, each little-endian. -/
def wordsToBytes (ws : List Nat) : List Nat := ws.flatMap (leBytes 4)

/-- A 64-bit value as two 32-bit words, low word first. -/
def lohi (x : Nat) : List Nat := [x % 2 ^ 32, x / 2 ^ 32 % 2 ^ 32]

/-- Reflect the low w bits of a number. -/
def reflectN : Nat → Nat → Nat
  | 0, _ => 0
  | w + 1, x => (x % 2) * 2 ^ w + reflectN w (x / 2)

/-- One bit of a CRC of width w (13_integrity R398). -/
def crcBit (w poly reg bitIn : Nat) : Nat :=
  let fb := (reg / 2 ^ (w - 1) % 2 + bitIn) % 2
  let sh := (reg * 2) % 2 ^ w
  if fb = 1 then sh ^^^ (poly % 2 ^ w) else sh

/-- The eight bits of a byte in feeding order: bit 0 first when REFIN is set (R398). -/
def byteBits (refin : Bool) (d : Nat) : List Nat :=
  let up := [0, 1, 2, 3, 4, 5, 6, 7].map fun i => d / 2 ^ i % 2
  if refin then up else up.reverse

/-- One byte absorbed into a CRC register (R398). -/
def crcByte (w poly : Nat) (refin : Bool) (reg d : Nat) : Nat :=
  (byteBits refin d).foldl (crcBit w poly) reg

/-- The CRC of a list of bytes (R398). -/
def crc (w poly init xorout : Nat) (refin refout : Bool) (ds : List Nat) : Nat :=
  let r := ds.foldl (crcByte w poly refin) (init % 2 ^ w)
  ((if refout then reflectN w r else r) ^^^ xorout) % 2 ^ w

/-- CRC-32C with the parameters of the example of R399. -/
def crc32c (ds : List Nat) : Nat := crc 32 0x1EDC6F41 0xFFFFFFFF 0xFFFFFFFF true true ds

/-- The value a key of a table has; a key that is not listed has the default of that key. -/
def tget {α : Type} (d : Nat → α) : Tbl α → Nat → α
  | [], k => d k
  | (a, v) :: r, k => if a = k then v else tget d r k

/-- An entry put in its place among rising keys. -/
def tins {α : Type} (k : Nat) (v : α) : Tbl α → Tbl α
  | [] => [(k, v)]
  | (a, w) :: r => if k < a then (k, v) :: (a, w) :: r else (a, w) :: tins k v r

/-- The table with one key given a value; a value equal to the default removes the entry. -/
def tset {α : Type} [DecidableEq α] (d : Nat → α) (t : Tbl α) (k : Nat) (v : α) : Tbl α :=
  if v = d k then t.filter (fun p => p.1 != k) else tins k v (t.filter (fun p => p.1 != k))

/-- The canonical form of a table: keys strictly rising, no entry at its default. -/
def twf {α : Type} [DecidableEq α] (d : Nat → α) (t : Tbl α) : Bool :=
  (t.map (·.1)).Pairwise (· < ·) && t.all fun p => decide (p.2 ≠ d p.1)

end Sys2Proof.Machine
end

