-- ==== Sys2Proof/Machine/Regs.lean ====
section
/-!
DEFINITION. Every register the chapters of the manual list: its system address (its block window of Table 11.2 plus the
offset its chapter gives), its fields, and one row of `regTables` with its width, the bits of each access code of Table
0.4, its reset value, whether it lies in the VDD_AUX domain and who besides firmware may write it. Registers of the
host interface stand at 0x4008_0000 (target 7) plus their BAR0 offset. The windows that are no part of the system map
(personalities, SMBus and SPI, the debug port) stand above bit 48: a DESIGN CHOICE of the model (log entry 5).
-/
namespace Sys2Proof.Machine


/-! Registers of spec/02_lanes_and_links.md. -/

/-- A register LN_CTRL (R81). -/
def LN_CTRL (n : Nat) : Nat := 0x40300000 + 0x1000 * n
@[reducible] def LN_CTRL_FUNC : Fld := ⟨3, 0⟩
@[reducible] def LN_CTRL_RATE : Fld := ⟨7, 4⟩
@[reducible] def LN_CTRL_PLL_SEL : Fld := ⟨8, 8⟩
@[reducible] def LN_CTRL_RX_INV : Fld := ⟨9, 9⟩
@[reducible] def LN_CTRL_TX_INV : Fld := ⟨10, 10⟩
@[reducible] def LN_CTRL_RX_EN : Fld := ⟨11, 11⟩
@[reducible] def LN_CTRL_TX_EN : Fld := ⟨12, 12⟩
@[reducible] def LN_CTRL_LP : Fld := ⟨13, 13⟩
@[reducible] def LN_CTRL_SPLIT : Fld := ⟨14, 14⟩
@[reducible] def LN_CTRL_GROUP : Fld := ⟨23, 16⟩
@[reducible] def LN_CTRL_TXPRE : Fld := ⟨27, 24⟩
@[reducible] def LN_CTRL_CNT_CLR : Fld := ⟨31, 31⟩
/-- A register LN_STAT (R81). -/
def LN_STAT (n : Nat) : Nat := 0x40300004 + 0x1000 * n
@[reducible] def LN_STAT_STATE : Fld := ⟨3, 0⟩
@[reducible] def LN_STAT_POL_DET : Fld := ⟨4, 4⟩
@[reducible] def LN_STAT_ORDER : Fld := ⟨5, 5⟩
@[reducible] def LN_STAT_REBUILDING : Fld := ⟨6, 6⟩
@[reducible] def LN_STAT_SRC_LANE : Fld := ⟨15, 8⟩
@[reducible] def LN_STAT_LINK : Fld := ⟨23, 16⟩
/-- A register LN_ACC (R81). -/
def LN_ACC (n : Nat) : Nat := 0x40300008 + 0x1000 * n
@[reducible] def LN_ACC_EXP_DEV : Fld := ⟨15, 0⟩
@[reducible] def LN_ACC_EXP_LINK : Fld := ⟨23, 16⟩
@[reducible] def LN_ACC_EXP_SRC_LANE : Fld := ⟨31, 24⟩
@[reducible] def LN_ACC_EXP_FMT : Fld := ⟨35, 32⟩
/-- A register LN_WIN (R81). -/
def LN_WIN (n : Nat) : Nat := 0x40300010 + 0x1000 * n
@[reducible] def LN_WIN_IN_LO : Fld := ⟨11, 0⟩
@[reducible] def LN_WIN_IN_HI : Fld := ⟨23, 12⟩
@[reducible] def LN_WIN_CH_LO : Fld := ⟨39, 24⟩
@[reducible] def LN_WIN_CH_HI : Fld := ⟨55, 40⟩
/-- A register LN_FRAMES_OK (R82). -/
def LN_FRAMES_OK (n : Nat) : Nat := 0x40300040 + 0x1000 * n
/-- A register LN_FEC_CORR (R82). -/
def LN_FEC_CORR (n : Nat) : Nat := 0x40300048 + 0x1000 * n
/-- A register LN_FEC_UNCORR (R82). -/
def LN_FEC_UNCORR (n : Nat) : Nat := 0x40300050 + 0x1000 * n
/-- A register LN_HDR_ERR (R82). -/
def LN_HDR_ERR (n : Nat) : Nat := 0x40300058 + 0x1000 * n
/-- A register LN_PCRC_ERR (R82). -/
def LN_PCRC_ERR (n : Nat) : Nat := 0x40300060 + 0x1000 * n
/-- A register LN_FMT_ERR (R82). -/
def LN_FMT_ERR (n : Nat) : Nat := 0x40300068 + 0x1000 * n
/-- A register LN_SRC_ERR (R82). -/
def LN_SRC_ERR (n : Nat) : Nat := 0x40300070 + 0x1000 * n
/-- A register LN_ID_RANGE (R82). -/
def LN_ID_RANGE (n : Nat) : Nat := 0x40300078 + 0x1000 * n
/-- A register LN_SPN_GAP (R82). -/
def LN_SPN_GAP (n : Nat) : Nat := 0x40300080 + 0x1000 * n
/-- A register LN_SPN_REV (R82). -/
def LN_SPN_REV (n : Nat) : Nat := 0x40300088 + 0x1000 * n
/-- A register LN_DUP (R82). -/
def LN_DUP (n : Nat) : Nat := 0x40300090 + 0x1000 * n
/-- A register LN_LATE (R82). -/
def LN_LATE (n : Nat) : Nat := 0x40300098 + 0x1000 * n
/-- A register LN_EARLY (R82). -/
def LN_EARLY (n : Nat) : Nat := 0x403000A0 + 0x1000 * n
/-- A register LN_REBUILT (R82). -/
def LN_REBUILT (n : Nat) : Nat := 0x403000A8 + 0x1000 * n
/-- A register LN_BULK_LOST (R82). -/
def LN_BULK_LOST (n : Nat) : Nat := 0x403000B0 + 0x1000 * n
/-- A register LN_RETRAIN (R82). -/
def LN_RETRAIN (n : Nat) : Nat := 0x403000B8 + 0x1000 * n
/-- A register LN_JESD_CRC (R82). -/
def LN_JESD_CRC (n : Nat) : Nat := 0x403000C0 + 0x1000 * n
/-- A register LN_SYSREF_IGN (R82). -/
def LN_SYSREF_IGN (n : Nat) : Nat := 0x403000C8 + 0x1000 * n
/-- A register LN_EYE (R81). -/
def LN_EYE (n : Nat) : Nat := 0x40300100 + 0x1000 * n
@[reducible] def LN_EYE_EN : Fld := ⟨0, 0⟩
@[reducible] def LN_EYE_EYE : Fld := ⟨2, 1⟩
@[reducible] def LN_EYE_H_OFF : Fld := ⟨10, 4⟩
@[reducible] def LN_EYE_V_OFF : Fld := ⟨19, 12⟩
@[reducible] def LN_EYE_DWELL : Fld := ⟨23, 20⟩
@[reducible] def LN_EYE_DONE : Fld := ⟨24, 24⟩
/-- A register LN_EYE_ERR (R85). -/
def LN_EYE_ERR (n : Nat) : Nat := 0x40300108 + 0x1000 * n
/-- A register LN_EYE_UI (R85). -/
def LN_EYE_UI (n : Nat) : Nat := 0x40300110 + 0x1000 * n
/-- A register LN_PRBS (R81). -/
def LN_PRBS (n : Nat) : Nat := 0x40300140 + 0x1000 * n
@[reducible] def LN_PRBS_GEN_PAT : Fld := ⟨3, 0⟩
@[reducible] def LN_PRBS_GEN_EN : Fld := ⟨4, 4⟩
@[reducible] def LN_PRBS_CHK_PAT : Fld := ⟨11, 8⟩
@[reducible] def LN_PRBS_CHK_EN : Fld := ⟨12, 12⟩
@[reducible] def LN_PRBS_CHK_LOCK : Fld := ⟨13, 13⟩
@[reducible] def LN_PRBS_INJ_MODE : Fld := ⟨15, 14⟩
@[reducible] def LN_PRBS_INJ_GO : Fld := ⟨16, 16⟩
@[reducible] def LN_PRBS_INJ_LOG2 : Fld := ⟨21, 17⟩
/-- A register LN_PRBS_ERR (R77). -/
def LN_PRBS_ERR (n : Nat) : Nat := 0x40300148 + 0x1000 * n
/-- A register LN_PRBS_BITS (R77). -/
def LN_PRBS_BITS (n : Nat) : Nat := 0x40300150 + 0x1000 * n
/-- A register LN_PRBS_USR (R77). -/
def LN_PRBS_USR (n : Nat) : Nat := 0x40300158 + 0x1000 * n

/-! Registers of spec/03_front.md. -/

/-- The register FR_CTRL (R118). -/
def FR_CTRL : Nat := 0x40400000
@[reducible] def FR_CTRL_EN : Fld := ⟨0, 0⟩
@[reducible] def FR_CTRL_MODE : Fld := ⟨2, 1⟩
@[reducible] def FR_CTRL_LOG2P : Fld := ⟨6, 3⟩
@[reducible] def FR_CTRL_NTAP : Fld := ⟨11, 7⟩
@[reducible] def FR_CTRL_CPLX : Fld := ⟨12, 12⟩
@[reducible] def FR_CTRL_WIDTH : Fld := ⟨14, 13⟩
@[reducible] def FR_CTRL_FMT : Fld := ⟨15, 15⟩
@[reducible] def FR_CTRL_FRINGE_EN : Fld := ⟨16, 16⟩
@[reducible] def FR_CTRL_SK_EN : Fld := ⟨17, 17⟩
@[reducible] def FR_CTRL_GAIN_BUF : Fld := ⟨18, 18⟩
@[reducible] def FR_CTRL_GAIN_PEND : Fld := ⟨19, 19⟩
/-- The register FR_SHAPE (R118). -/
def FR_SHAPE : Nat := 0x40400008
@[reducible] def FR_SHAPE_NIN_M1 : Fld := ⟨11, 0⟩
@[reducible] def FR_SHAPE_CH_LO : Fld := ⟨29, 16⟩
@[reducible] def FR_SHAPE_CH_HI : Fld := ⟨45, 32⟩
@[reducible] def FR_SHAPE_LOG2G : Fld := ⟨56, 48⟩
/-- The register FR_FFT (R118). -/
def FR_FFT : Nat := 0x40400010
@[reducible] def FR_FFT_FFT_SCALE : Fld := ⟨13, 0⟩
/-- The register FR_TIME (R118). -/
def FR_TIME : Nat := 0x40400018
@[reducible] def FR_TIME_MARGIN : Fld := ⟨20, 0⟩
@[reducible] def FR_TIME_PRE : Fld := ⟨48, 32⟩
/-- The register FR_DET (R118). -/
def FR_DET : Nat := 0x40400020
@[reducible] def FR_DET_K : Fld := ⟨4, 0⟩
@[reducible] def FR_DET_A : Fld := ⟨8, 5⟩
@[reducible] def FR_DET_BLANK_EN : Fld := ⟨9, 9⟩
@[reducible] def FR_DET_OVR_BLANK : Fld := ⟨10, 10⟩
@[reducible] def FR_DET_EVT_TRIG : Fld := ⟨11, 11⟩
@[reducible] def FR_DET_EVT_LOST : Fld := ⟨12, 12⟩
@[reducible] def FR_DET_POST : Fld := ⟨32, 16⟩
/-- A register FR_SPEC_OUT (R119). -/
def FR_SPEC_OUT (n : Nat) : Nat := 0x40410000 + 0x40 * n
/-- A register FR_SPEC_MISS (R119). -/
def FR_SPEC_MISS (n : Nat) : Nat := 0x40410008 + 0x40 * n
/-- A register FR_SPEC_BLANK (R119). -/
def FR_SPEC_BLANK (n : Nat) : Nat := 0x40410010 + 0x40 * n
/-- A register FR_CHAN_SK_BLANK (R119). -/
def FR_CHAN_SK_BLANK (n : Nat) : Nat := 0x40410018 + 0x40 * n
/-- A register FR_SMP_LATE (R119). -/
def FR_SMP_LATE (n : Nat) : Nat := 0x40410020 + 0x40 * n
/-- A register FR_INTERP_SAT (R119). -/
def FR_INTERP_SAT (n : Nat) : Nat := 0x40410028 + 0x40 * n
/-- A register FR_REQ_SAT (R119). -/
def FR_REQ_SAT (n : Nat) : Nat := 0x40410030 + 0x40 * n
/-- A register FR_DELAY_CLAMP (R119). -/
def FR_DELAY_CLAMP (n : Nat) : Nat := 0x40410038 + 0x40 * n

/-! Registers of spec/04_tiles_and_courses.md. -/

/-- The register XC_CTRL (R150). -/
def XC_CTRL : Nat := 0x40500000
@[reducible] def XC_CTRL_EN : Fld := ⟨0, 0⟩
@[reducible] def XC_CTRL_FMT : Fld := ⟨1, 1⟩
@[reducible] def XC_CTRL_FULLRANGE : Fld := ⟨2, 2⟩
@[reducible] def XC_CTRL_BT_ACTIVE : Fld := ⟨3, 3⟩
@[reducible] def XC_CTRL_BT_PEND : Fld := ⟨4, 4⟩
@[reducible] def XC_CTRL_BT_SWAP : Fld := ⟨5, 5⟩
@[reducible] def XC_CTRL_AUDIT_EN : Fld := ⟨6, 6⟩
@[reducible] def XC_CTRL_MIRROR_EN : Fld := ⟨7, 7⟩
/-- The register XC_SHAPE (R150). -/
def XC_SHAPE : Nat := 0x40500008
@[reducible] def XC_SHAPE_NG_M1 : Fld := ⟨4, 0⟩
@[reducible] def XC_SHAPE_NBLK : Fld := ⟨17, 8⟩
@[reducible] def XC_SHAPE_K : Fld := ⟨28, 20⟩
@[reducible] def XC_SHAPE_CTX : Fld := ⟨35, 32⟩
@[reducible] def XC_SHAPE_CTX_LAST : Fld := ⟨39, 36⟩
@[reducible] def XC_SHAPE_NCH_M1 : Fld := ⟨55, 40⟩
/-- The register XC_BATCH (R150). -/
def XC_BATCH : Nat := 0x40500010
@[reducible] def XC_BATCH_T_M1 : Fld := ⟨7, 0⟩
@[reducible] def XC_BATCH_W_M1 : Fld := ⟨15, 8⟩
@[reducible] def XC_BATCH_PASSES : Fld := ⟨48, 32⟩
/-- The register XC_POS (R150). -/
def XC_POS : Nat := 0x40500018
@[reducible] def XC_POS_PASS : Fld := ⟨16, 0⟩
@[reducible] def XC_POS_COURSE : Fld := ⟨24, 17⟩
@[reducible] def XC_POS_SLOT : Fld := ⟨28, 25⟩
@[reducible] def XC_POS_BATCH : Fld := ⟨63, 32⟩
/-- The register XC_AUDIT (R150). -/
def XC_AUDIT : Nat := 0x40500020
@[reducible] def XC_AUDIT_AUD_POS : Fld := ⟨5, 0⟩
@[reducible] def XC_AUDIT_AUD_TILE : Fld := ⟨13, 7⟩
@[reducible] def XC_AUDIT_FORCE_POS : Fld := ⟨21, 16⟩
@[reducible] def XC_AUDIT_FORCE : Fld := ⟨22, 22⟩
@[reducible] def XC_AUDIT_RESULT : Fld := ⟨25, 24⟩
/-- A register XC_TSTAT (R150). -/
def XC_TSTAT (n : Nat) : Nat := 0x40500100 + 0x4 * n
@[reducible] def XC_TSTAT_ROLE : Fld := ⟨1, 0⟩
@[reducible] def XC_TSTAT_POS : Fld := ⟨7, 2⟩
@[reducible] def XC_TSTAT_AUDITING : Fld := ⟨8, 8⟩
@[reducible] def XC_TSTAT_SCORCH : Fld := ⟨9, 9⟩
@[reducible] def XC_TSTAT_MIRROR : Fld := ⟨10, 10⟩
@[reducible] def XC_TSTAT_CTX_UE : Fld := ⟨11, 11⟩
@[reducible] def XC_TSTAT_AUD_FAIL : Fld := ⟨12, 12⟩
@[reducible] def XC_TSTAT_HEADROOM : Fld := ⟨13, 13⟩
/-- The register XC_COURSES_DONE (R151). -/
def XC_COURSES_DONE : Nat := 0x40500300
/-- The register XC_COURSES_CUT (R151). -/
def XC_COURSES_CUT : Nat := 0x40500308
/-- The register XC_PAUSE_CYC (R151). -/
def XC_PAUSE_CYC : Nat := 0x40500310
/-- The register XC_STG_LATE (R151). -/
def XC_STG_LATE : Nat := 0x40500318
/-- The register XC_SCORCH (R151). -/
def XC_SCORCH : Nat := 0x40500320
/-- The register XC_MIRROR_ERR (R151). -/
def XC_MIRROR_ERR : Nat := 0x40500328
/-- The register XC_CTX_CE (R151). -/
def XC_CTX_CE : Nat := 0x40500330
/-- The register XC_CTX_UE (R151). -/
def XC_CTX_UE : Nat := 0x40500338
/-- The register XC_MQ_STALL (R151). -/
def XC_MQ_STALL : Nat := 0x40500340
/-- The register XC_AUDITS (R151). -/
def XC_AUDITS : Nat := 0x40500348
/-- The register XC_BT_SWAPS (R151). -/
def XC_BT_SWAPS : Nat := 0x40500350
/-- A register BT_ENTRY (R151). -/
def BT_ENTRY (n : Nat) (m : Nat) (l : Nat) : Nat := 0x40510000 + 0x10000 * n + 0x40 * m + 0x4 * l
@[reducible] def BT_ENTRY_VALID : Fld := ⟨0, 0⟩
@[reducible] def BT_ENTRY_CH : Fld := ⟨8, 1⟩
@[reducible] def BT_ENTRY_BROW : Fld := ⟨13, 9⟩
@[reducible] def BT_ENTRY_BCOL : Fld := ⟨18, 14⟩
@[reducible] def BT_ENTRY_HALF : Fld := ⟨19, 19⟩

/-! Registers of spec/05_accumulation_and_dumps.md. -/

/-- The register AC_CTRL (R178). -/
def AC_CTRL : Nat := 0x40500400
@[reducible] def AC_CTRL_EN : Fld := ⟨0, 0⟩
@[reducible] def AC_CTRL_DFMT : Fld := ⟨2, 1⟩
@[reducible] def AC_CTRL_PKT_LOG2 : Fld := ⟨6, 3⟩
@[reducible] def AC_CTRL_NDB2 : Fld := ⟨7, 7⟩
@[reducible] def AC_CTRL_PEEK_PEND : Fld := ⟨8, 8⟩
@[reducible] def AC_CTRL_DUMP_BUSY : Fld := ⟨9, 9⟩
@[reducible] def AC_CTRL_ACCT_FAIL : Fld := ⟨10, 10⟩
@[reducible] def AC_CTRL_WEIGHT_FAIL : Fld := ⟨11, 11⟩
@[reducible] def AC_CTRL_GAP_SENT : Fld := ⟨12, 12⟩
/-- The register AC_INTEG (R178). -/
def AC_INTEG : Nat := 0x40500408
@[reducible] def AC_INTEG_NINT : Fld := ⟨31, 0⟩
@[reducible] def AC_INTEG_DUMP_ID : Fld := ⟨63, 32⟩
/-- The register AC_BARRIER (R178). -/
def AC_BARRIER : Nat := 0x40500410
@[reducible] def AC_BARRIER_SPN : Fld := ⟨63, 0⟩
/-- The register AC_DIGEST (R178). -/
def AC_DIGEST : Nat := 0x40500418
@[reducible] def AC_DIGEST_DIGEST : Fld := ⟨63, 0⟩
/-- The register AC_CHUNKS (R179). -/
def AC_CHUNKS : Nat := 0x40500440
/-- The register AC_DUMPS (R179). -/
def AC_DUMPS : Nat := 0x40500448
/-- The register AC_PKTS (R179). -/
def AC_PKTS : Nat := 0x40500450
/-- The register AC_GAPS (R179). -/
def AC_GAPS : Nat := 0x40500458
/-- The register AC_POISONED (R179). -/
def AC_POISONED : Nat := 0x40500460
/-- The register AC_SCORCHED (R179). -/
def AC_SCORCHED : Nat := 0x40500468
/-- The register AC_INEXACT (R179). -/
def AC_INEXACT : Nat := 0x40500470
/-- The register AC_ACCT_FAILS (R179). -/
def AC_ACCT_FAILS : Nat := 0x40500478
/-- The register AC_PEEKS (R179). -/
def AC_PEEKS : Nat := 0x40500480

/-! Registers of spec/06_beams.md. -/

/-- The register BM_CTRL (R202). -/
def BM_CTRL : Nat := 0x40600000
@[reducible] def BM_CTRL_EN : Fld := ⟨0, 0⟩
@[reducible] def BM_CTRL_S_M1 : Fld := ⟨5, 1⟩
@[reducible] def BM_CTRL_DET_EN : Fld := ⟨6, 6⟩
@[reducible] def BM_CTRL_KIND : Fld := ⟨8, 7⟩
@[reducible] def BM_CTRL_OFMT : Fld := ⟨9, 9⟩
@[reducible] def BM_CTRL_LOG2_NCRS : Fld := ⟨12, 10⟩
/-- The register BM_VMASK (R202). -/
def BM_VMASK : Nat := 0x40600008
@[reducible] def BM_VMASK_VMASK : Fld := ⟨31, 0⟩
/-- The register BM_DET (R202). -/
def BM_DET : Nat := 0x4060000C
@[reducible] def BM_DET_M_M1 : Fld := ⟨11, 0⟩
/-- The register BM_WBASE_A (R202). -/
def BM_WBASE_A : Nat := 0x40600010
@[reducible] def BM_WBASE_A_BASE : Fld := ⟨63, 0⟩
/-- The register BM_WBASE_B (R202). -/
def BM_WBASE_B : Nat := 0x40600018
@[reducible] def BM_WBASE_B_BASE : Fld := ⟨63, 0⟩
/-- The register BM_WCTRL (R202). -/
def BM_WCTRL : Nat := 0x40600020
@[reducible] def BM_WCTRL_BUF_ACT : Fld := ⟨0, 0⟩
@[reducible] def BM_WCTRL_PEND : Fld := ⟨1, 1⟩
@[reducible] def BM_WCTRL_OLD_BUSY : Fld := ⟨2, 2⟩
@[reducible] def BM_WCTRL_SWAP : Fld := ⟨3, 3⟩
@[reducible] def BM_WCTRL_READY : Fld := ⟨4, 4⟩
@[reducible] def BM_WCTRL_RESULT : Fld := ⟨7, 5⟩
@[reducible] def BM_WCTRL_OWNER : Fld := ⟨9, 8⟩
@[reducible] def BM_WCTRL_STALE : Fld := ⟨10, 10⟩
/-- The register BM_WSPN (R202). -/
def BM_WSPN : Nat := 0x40600028
@[reducible] def BM_WSPN_SPN : Fld := ⟨63, 0⟩
/-- The register BM_DONE_SPN (R202). -/
def BM_DONE_SPN : Nat := 0x40600030
@[reducible] def BM_DONE_SPN_SPN : Fld := ⟨63, 0⟩
/-- The register BM_CRS_DONE (R203). -/
def BM_CRS_DONE : Nat := 0x40600100
/-- The register BM_CRS_CUT (R203). -/
def BM_CRS_CUT : Nat := 0x40600108
/-- The register BM_BEAM_HOLD (R203). -/
def BM_BEAM_HOLD : Nat := 0x40600110
/-- The register BM_VSAT (R203). -/
def BM_VSAT : Nat := 0x40600118
/-- The register BM_WNAN (R203). -/
def BM_WNAN : Nat := 0x40600120
/-- The register BM_SWAPS (R203). -/
def BM_SWAPS : Nat := 0x40600128
/-- The register BM_SWAP_MISSED (R203). -/
def BM_SWAP_MISSED : Nat := 0x40600130
/-- The register BM_POISONED (R203). -/
def BM_POISONED : Nat := 0x40600138
/-- The register BM_PKTS (R203). -/
def BM_PKTS : Nat := 0x40600140

/-! Registers of spec/07_memories.md. -/

/-- The register MC_CTRL (R237). -/
def MC_CTRL : Nat := 0x40700000
@[reducible] def MC_CTRL_RH_TH : Fld := ⟨14, 0⟩
@[reducible] def MC_CTRL_BLAST : Fld := ⟨17, 16⟩
@[reducible] def MC_CTRL_RETRAIN_MS : Fld := ⟨27, 18⟩
/-- The register MC_MAP (R237). -/
def MC_MAP : Nat := 0x40700008
@[reducible] def MC_MAP_HBM_G_LOG2 : Fld := ⟨4, 0⟩
@[reducible] def MC_MAP_DDR_G_LOG2 : Fld := ⟨9, 5⟩
@[reducible] def MC_MAP_DDR_RATE : Fld := ⟨12, 10⟩
/-- A register MC_QOS (R237). -/
def MC_QOS (n : Nat) : Nat := 0x40700100 + 0x8 * n
@[reducible] def MC_QOS_TARGET_NS : Fld := ⟨19, 0⟩
@[reducible] def MC_QOS_URG : Fld := ⟨21, 20⟩
@[reducible] def MC_QOS_LAT_MISS : Fld := ⟨63, 32⟩
/-- A register MC_CHSTAT (R237). -/
def MC_CHSTAT (n : Nat) : Nat := 0x40700200 + 0x4 * n
@[reducible] def MC_CHSTAT_STATE : Fld := ⟨1, 0⟩
@[reducible] def MC_CHSTAT_FAILED_REPLAYS : Fld := ⟨3, 2⟩
@[reducible] def MC_CHSTAT_PC_DEAD : Fld := ⟨5, 4⟩
/-- The register MC_NREF (R238). -/
def MC_NREF : Nat := 0x40700400
/-- The register MC_REPLAYS (R238). -/
def MC_REPLAYS : Nat := 0x40700408
/-- The register MC_RETRAIN (R238). -/
def MC_RETRAIN : Nat := 0x40700410
/-- The register MC_DEAD_ACC (R238). -/
def MC_DEAD_ACC : Nat := 0x40700418
/-- The register CAP_CTRL (R237). -/
def CAP_CTRL : Nat := 0x40700800
@[reducible] def CAP_CTRL_EXTEND : Fld := ⟨0, 0⟩
@[reducible] def CAP_CTRL_FWD : Fld := ⟨1, 1⟩
@[reducible] def CAP_CTRL_SRC_EN : Fld := ⟨5, 2⟩
@[reducible] def CAP_CTRL_PIN_EN : Fld := ⟨9, 6⟩
/-- The register CAP_STAT (R237). -/
def CAP_STAT : Nat := 0x40700808
@[reducible] def CAP_STAT_STATE : Fld := ⟨2, 0⟩
@[reducible] def CAP_STAT_STOPPED : Fld := ⟨3, 3⟩
@[reducible] def CAP_STAT_SEG_CRS : Fld := ⟨11, 4⟩
@[reducible] def CAP_STAT_EPOCHS : Fld := ⟨15, 12⟩
@[reducible] def CAP_STAT_SEGS : Fld := ⟨47, 16⟩
/-- The register CAP_TRIG (R237). -/
def CAP_TRIG : Nat := 0x40700810
@[reducible] def CAP_TRIG_POL : Fld := ⟨3, 0⟩
@[reducible] def CAP_TRIG_MPW : Fld := ⟨23, 4⟩
@[reducible] def CAP_TRIG_MIN_INT : Fld := ⟨47, 24⟩
@[reducible] def CAP_TRIG_PIN_TIMEOUT : Fld := ⟨59, 48⟩
/-- The register CAP_POST (R237). -/
def CAP_POST : Nat := 0x40700818
@[reducible] def CAP_POST_POST : Fld := ⟨23, 0⟩
/-- The register FREEZE_SPN (R235). -/
def FREEZE_SPN : Nat := 0x40700820
/-- The register CAP_SEGS (R238). -/
def CAP_SEGS : Nat := 0x40700840
/-- The register CAP_DROP (R238). -/
def CAP_DROP : Nat := 0x40700848
/-- The register TRIG_ACC (R238). -/
def TRIG_ACC : Nat := 0x40700850
/-- The register TRIG_DUP (R238). -/
def TRIG_DUP : Nat := 0x40700858
/-- The register TRIG_REJ (R238). -/
def TRIG_REJ : Nat := 0x40700860

/-! Registers of spec/08_network_and_time.md. -/

/-- The register TSU_TOD_SEC (R269). -/
def TSU_TOD_SEC : Nat := 0x40200000
@[reducible] def TSU_TOD_SEC_SEC : Fld := ⟨47, 0⟩
/-- The register TSU_TOD_NS (R269). -/
def TSU_TOD_NS : Nat := 0x40200008
@[reducible] def TSU_TOD_NS_FRAC : Fld := ⟨15, 0⟩
@[reducible] def TSU_TOD_NS_NS : Fld := ⟨47, 16⟩
/-- The register TSU_CTRL (R269). -/
def TSU_CTRL : Nat := 0x40200010
@[reducible] def TSU_CTRL_VALID : Fld := ⟨0, 0⟩
@[reducible] def TSU_CTRL_STEP_ARM : Fld := ⟨1, 1⟩
@[reducible] def TSU_CTRL_SRC : Fld := ⟨3, 2⟩
@[reducible] def TSU_CTRL_SLEWING : Fld := ⟨4, 4⟩
@[reducible] def TSU_CTRL_OFFSET_LARGE : Fld := ⟨5, 5⟩
/-- The register TSU_SLEW (R269). -/
def TSU_SLEW : Nat := 0x40200018
@[reducible] def TSU_SLEW_SLEW_MAX : Fld := ⟨16, 0⟩
@[reducible] def TSU_SLEW_STEP_LIMIT : Fld := ⟨61, 32⟩
/-- The register TSU_OFFSET (R261). -/
def TSU_OFFSET : Nat := 0x40200020
/-- A register PO_CTRL (R269). -/
def PO_CTRL (n : Nat) : Nat := 0x40200100 + 0x20 * n
@[reducible] def PO_CTRL_MODE : Fld := ⟨1, 0⟩
@[reducible] def PO_CTRL_POL : Fld := ⟨2, 2⟩
@[reducible] def PO_CTRL_PEND : Fld := ⟨3, 3⟩
@[reducible] def PO_CTRL_MISSED : Fld := ⟨4, 4⟩
@[reducible] def PO_CTRL_WIDTH : Fld := ⟨31, 8⟩
/-- A register PO_START_SEC (R268). -/
def PO_START_SEC (n : Nat) : Nat := 0x40200108 + 0x20 * n
@[reducible] def PO_START_SEC_SEC : Fld := ⟨47, 0⟩
/-- A register PO_START_NS (R268). -/
def PO_START_NS (n : Nat) : Nat := 0x40200110 + 0x20 * n
@[reducible] def PO_START_NS_NSFRAC : Fld := ⟨47, 0⟩
/-- A register PO_PERIOD (R268). -/
def PO_PERIOD (n : Nat) : Nat := 0x40200118 + 0x20 * n
@[reducible] def PO_PERIOD_PERIOD : Fld := ⟨39, 0⟩
/-- A register PO_CNT (R269). -/
def PO_CNT (n : Nat) : Nat := 0x40200200 + 0x8 * n
/-- A register EM_CTRL (R269). -/
def EM_CTRL (n : Nat) : Nat := 0x40D00000 + 0x8000 * n
@[reducible] def EM_CTRL_MODE : Fld := ⟨2, 0⟩
@[reducible] def EM_CTRL_NOFEC : Fld := ⟨3, 3⟩
@[reducible] def EM_CTRL_UNTAGGED : Fld := ⟨4, 4⟩
@[reducible] def EM_CTRL_PFC_RX_EN : Fld := ⟨5, 5⟩
@[reducible] def EM_CTRL_PFC_TX_EN : Fld := ⟨6, 6⟩
@[reducible] def EM_CTRL_PFC_PRI : Fld := ⟨15, 8⟩
@[reducible] def EM_CTRL_MAX_FRAME : Fld := ⟨29, 16⟩
/-- A register EM_STAT (R269). -/
def EM_STAT (n : Nat) : Nat := 0x40D00004 + 0x8000 * n
@[reducible] def EM_STAT_LINK : Fld := ⟨0, 0⟩
@[reducible] def EM_STAT_LOCAL_FAULT : Fld := ⟨1, 1⟩
@[reducible] def EM_STAT_REMOTE_FAULT : Fld := ⟨2, 2⟩
@[reducible] def EM_STAT_FEC_LOCK : Fld := ⟨3, 3⟩
@[reducible] def EM_STAT_PAUSED : Fld := ⟨11, 4⟩
@[reducible] def EM_STAT_STORM : Fld := ⟨19, 12⟩
/-- A register EM_PFC (R269). -/
def EM_PFC (n : Nat) : Nat := 0x40D00008 + 0x8000 * n
@[reducible] def EM_PFC_WDOG_MS : Fld := ⟨9, 0⟩
@[reducible] def EM_PFC_TX_PRI : Fld := ⟨12, 10⟩
/-- A register EM_LAT (R269). -/
def EM_LAT (n : Nat) : Nat := 0x40D00010 + 0x8000 * n
@[reducible] def EM_LAT_INGRESS_LAT : Fld := ⟨31, 0⟩
@[reducible] def EM_LAT_EGRESS_LAT : Fld := ⟨63, 32⟩
/-- A register EM_ASYM (R269). -/
def EM_ASYM (n : Nat) : Nat := 0x40D00018 + 0x8000 * n
@[reducible] def EM_ASYM_ASYM : Fld := ⟨31, 0⟩
/-- A register EMC_RX_FRAMES (R270). -/
def EMC_RX_FRAMES (n : Nat) : Nat := 0x40D00100 + 0x8000 * n
/-- A register EMC_RX_FCS (R270). -/
def EMC_RX_FCS (n : Nat) : Nat := 0x40D00108 + 0x8000 * n
/-- A register EMC_RX_DROP (R270). -/
def EMC_RX_DROP (n : Nat) : Nat := 0x40D00110 + 0x8000 * n
/-- A register EMC_RX_OVF (R270). -/
def EMC_RX_OVF (n : Nat) : Nat := 0x40D00118 + 0x8000 * n
/-- A register EMC_TX_FRAMES (R270). -/
def EMC_TX_FRAMES (n : Nat) : Nat := 0x40D00120 + 0x8000 * n
/-- A register EMC_TX_BYTES (R270). -/
def EMC_TX_BYTES (n : Nat) : Nat := 0x40D00128 + 0x8000 * n
/-- A register EMC_PAUSE_RX (R270). -/
def EMC_PAUSE_RX (n : Nat) : Nat := 0x40D00130 + 0x8000 * n
/-- A register EMC_PFC (R270). -/
def EMC_PFC (n : Nat) : Nat := 0x40D00138 + 0x8000 * n
/-- A register EMC_PFC_STORM (R270). -/
def EMC_PFC_STORM (n : Nat) : Nat := 0x40D00140 + 0x8000 * n
/-- A register EMC_LINK_DOWN (R270). -/
def EMC_LINK_DOWN (n : Nat) : Nat := 0x40D00148 + 0x8000 * n
/-- A register EMC_PTP (R270). -/
def EMC_PTP (n : Nat) : Nat := 0x40D00150 + 0x8000 * n

/-! Registers of spec/09_timing_core.md. -/

/-- The register TIM_CTRL (R301). -/
def TIM_CTRL : Nat := 0x40100000
@[reducible] def TIM_CTRL_EN : Fld := ⟨0, 0⟩
@[reducible] def TIM_CTRL_REVERT : Fld := ⟨1, 1⟩
@[reducible] def TIM_CTRL_PBO : Fld := ⟨2, 2⟩
@[reducible] def TIM_CTRL_FORCE : Fld := ⟨7, 4⟩
@[reducible] def TIM_CTRL_LOCK_DWELL : Fld := ⟨15, 8⟩
/-- The register TIM_STAT (R301). -/
def TIM_STAT : Nat := 0x40100004
@[reducible] def TIM_STAT_STATE : Fld := ⟨7, 0⟩
@[reducible] def TIM_STAT_SEL : Fld := ⟨11, 8⟩
@[reducible] def TIM_STAT_BW_STEP : Fld := ⟨13, 12⟩
@[reducible] def TIM_STAT_TEMP_EXT : Fld := ⟨14, 14⟩
@[reducible] def TIM_STAT_RETAINED : Fld := ⟨15, 15⟩
/-- The register TIM_PRIO (R281). -/
def TIM_PRIO : Nat := 0x40100008
@[reducible] def TIM_PRIO_ENT : Fld := ⟨31, 0⟩
/-- The register TIM_BW (R301). -/
def TIM_BW : Nat := 0x40100010
@[reducible] def TIM_BW_BW_UHZ : Fld := ⟨23, 0⟩
@[reducible] def TIM_BW_LOCK_PH : Fld := ⟨41, 32⟩
@[reducible] def TIM_BW_SW_TIMEOUT : Fld := ⟨59, 48⟩
/-- The register TIM_HO (R301). -/
def TIM_HO : Nat := 0x40100018
@[reducible] def TIM_HO_HO_AVG : Fld := ⟨16, 0⟩
@[reducible] def TIM_HO_HO_LIM : Fld := ⟨47, 32⟩
@[reducible] def TIM_HO_XO_JUMP : Fld := ⟨61, 48⟩
/-- The register TIM_PHASE (R301). -/
def TIM_PHASE : Nat := 0x40100020
@[reducible] def TIM_PHASE_STEP : Fld := ⟨31, 0⟩
@[reducible] def TIM_PHASE_SLEW : Fld := ⟨32, 32⟩
/-- The register TIM_PHSLEW (R301). -/
def TIM_PHSLEW : Nat := 0x40100028
@[reducible] def TIM_PHSLEW_PH_SLEW : Fld := ⟨19, 0⟩
/-- The register TIM_PHREM (R295). -/
def TIM_PHREM : Nat := 0x40100030
/-- The register TIM_PHTOT (R295). -/
def TIM_PHTOT : Nat := 0x40100038
/-- The register TIM_CLK (R301). -/
def TIM_CLK : Nat := 0x40100040
@[reducible] def TIM_CLK_TCLK_MHZ : Fld := ⟨10, 0⟩
/-- The register TIM_XO_TEMP (R290). -/
def TIM_XO_TEMP : Nat := 0x40100048
@[reducible] def TIM_XO_TEMP_TEMP : Fld := ⟨31, 0⟩
/-- A register TIM_REF (R301). -/
def TIM_REF (n : Nat) : Nat := 0x40100100 + 0x20 * n
@[reducible] def TIM_REF_NOM_HZ : Fld := ⟨29, 0⟩
@[reducible] def TIM_REF_EN : Fld := ⟨30, 30⟩
@[reducible] def TIM_REF_POL : Fld := ⟨31, 31⟩
@[reducible] def TIM_REF_R_DIV_M1 : Fld := ⟨47, 32⟩
@[reducible] def TIM_REF_PER_TOL : Fld := ⟨52, 48⟩
@[reducible] def TIM_REF_ASL_LANE : Fld := ⟨62, 56⟩
/-- A register TIM_REFTH (R301). -/
def TIM_REFTH (n : Nat) : Nat := 0x40100108 + 0x20 * n
@[reducible] def TIM_REFTH_SOFT : Fld := ⟨19, 0⟩
@[reducible] def TIM_REFTH_HARD : Fld := ⟨39, 20⟩
@[reducible] def TIM_REFTH_QUAL_S : Fld := ⟨51, 40⟩
@[reducible] def TIM_REFTH_PROOF_S : Fld := ⟨63, 52⟩
/-- A register TIM_REFSTAT (R301). -/
def TIM_REFSTAT (n : Nat) : Nat := 0x40100110 + 0x20 * n
@[reducible] def TIM_REFSTAT_QSTATE : Fld := ⟨2, 0⟩
@[reducible] def TIM_REFSTAT_ACT_FAULT : Fld := ⟨3, 3⟩
@[reducible] def TIM_REFSTAT_PER_FAULT : Fld := ⟨4, 4⟩
@[reducible] def TIM_REFSTAT_HARD : Fld := ⟨5, 5⟩
@[reducible] def TIM_REFSTAT_PROOF_LEFT : Fld := ⟨19, 8⟩
@[reducible] def TIM_REFSTAT_OFFSET : Fld := ⟨63, 32⟩
/-- A register TIM_DISQUAL (R302). -/
def TIM_DISQUAL (n : Nat) : Nat := 0x40100118 + 0x20 * n
/-- A register TIM_OUT (R301). -/
def TIM_OUT (n : Nat) : Nat := 0x40100200 + 0x10 * n
@[reducible] def TIM_OUT_EN : Fld := ⟨0, 0⟩
@[reducible] def TIM_OUT_APLL : Fld := ⟨1, 1⟩
@[reducible] def TIM_OUT_DIV_M1 : Fld := ⟨11, 2⟩
@[reducible] def TIM_OUT_IN_USE : Fld := ⟨12, 12⟩
@[reducible] def TIM_OUT_PH_PS : Fld := ⟨47, 16⟩
/-- A register TIM_SYSREF (R301). -/
def TIM_SYSREF (n : Nat) : Nat := 0x40100208 + 0x10 * n
@[reducible] def TIM_SYSREF_MODE : Fld := ⟨1, 0⟩
@[reducible] def TIM_SYSREF_CLK : Fld := ⟨3, 2⟩
@[reducible] def TIM_SYSREF_SNG : Fld := ⟨6, 4⟩
@[reducible] def TIM_SYSREF_WIDTH_M1 : Fld := ⟨15, 8⟩
@[reducible] def TIM_SYSREF_GAP_N : Fld := ⟨31, 16⟩
@[reducible] def TIM_SYSREF_SPER : Fld := ⟨63, 32⟩
/-- A register TIM_APLL (R299). -/
def TIM_APLL (n : Nat) : Nat := 0x40100300 + 0x8 * n
@[reducible] def TIM_APLL_VCO_MHZ : Fld := ⟨23, 0⟩
@[reducible] def TIM_APLL_LOCK : Fld := ⟨24, 24⟩
/-- A register TIM_LREF (R300). -/
def TIM_LREF (n : Nat) : Nat := 0x40100340 + 0x8 * n
@[reducible] def TIM_LREF_FREQ : Fld := ⟨63, 0⟩
/-- A register TIM_SNG_NUM (R296). -/
def TIM_SNG_NUM (n : Nat) : Nat := 0x40100400 + 0x20 * n
@[reducible] def TIM_SNG_NUM_NUM : Fld := ⟨63, 0⟩
/-- A register TIM_SNG_DEN (R296). -/
def TIM_SNG_DEN (n : Nat) : Nat := 0x40100408 + 0x20 * n
@[reducible] def TIM_SNG_DEN_DEN : Fld := ⟨31, 0⟩
@[reducible] def TIM_SNG_DEN_SRC_REF : Fld := ⟨35, 32⟩
@[reducible] def TIM_SNG_DEN_FAULT : Fld := ⟨36, 36⟩
/-- A register TIM_SNG_EP_SEC (R296). -/
def TIM_SNG_EP_SEC (n : Nat) : Nat := 0x40100410 + 0x20 * n
@[reducible] def TIM_SNG_EP_SEC_SEC : Fld := ⟨47, 0⟩
/-- A register TIM_SNG_EP_NS (R296). -/
def TIM_SNG_EP_NS (n : Nat) : Nat := 0x40100418 + 0x20 * n
@[reducible] def TIM_SNG_EP_NS_NSFRAC : Fld := ⟨47, 0⟩
/-- The register TIMC_SWITCHES (R302). -/
def TIMC_SWITCHES : Nat := 0x40100500
/-- The register TIMC_HOLDOVER (R302). -/
def TIMC_HOLDOVER : Nat := 0x40100508
/-- The register TIMC_LOSS_OF_LOCK (R302). -/
def TIMC_LOSS_OF_LOCK : Nat := 0x40100510
/-- The register TIMC_PPS_IGN (R302). -/
def TIMC_PPS_IGN : Nat := 0x40100518
/-- The register TIMC_TEMP_STALE (R302). -/
def TIMC_TEMP_STALE : Nat := 0x40100520
/-- The register TIMC_PH_STEPS (R302). -/
def TIMC_PH_STEPS : Nat := 0x40100528

/-! Registers of spec/10_rhaex_cores.md. -/

/-- A register CR_CTRL (R336). -/
def CR_CTRL (n : Nat) : Nat := 0x40F00000 + 0x10000 * n
@[reducible] def CR_CTRL_CMD : Fld := ⟨1, 0⟩
@[reducible] def CR_CTRL_FETCH_SYS : Fld := ⟨2, 2⟩
@[reducible] def CR_CTRL_WDOG_EN : Fld := ⟨3, 3⟩
@[reducible] def CR_CTRL_START_PC : Fld := ⟨25, 8⟩
/-- A register CR_STAT (R336). -/
def CR_STAT (n : Nat) : Nat := 0x40F00004 + 0x10000 * n
@[reducible] def CR_STAT_STATE : Fld := ⟨2, 0⟩
@[reducible] def CR_STAT_INTRAP : Fld := ⟨3, 3⟩
@[reducible] def CR_STAT_WERR : Fld := ⟨4, 4⟩
@[reducible] def CR_STAT_WDOG_EXP : Fld := ⟨5, 5⟩
@[reducible] def CR_STAT_CS : Fld := ⟨6, 6⟩
@[reducible] def CR_STAT_LOGICAL : Fld := ⟨8, 7⟩
@[reducible] def CR_STAT_PC : Fld := ⟨27, 10⟩
/-- A register CR_WIN_X (R336). -/
def CR_WIN_X (n : Nat) : Nat := 0x40F00010 + 0x10000 * n
@[reducible] def CR_WIN_X_MODE : Fld := ⟨1, 0⟩
@[reducible] def CR_WIN_X_BASE : Fld := ⟨47, 23⟩
/-- A register CR_WIN_Y (R336). -/
def CR_WIN_Y (n : Nat) : Nat := 0x40F00018 + 0x10000 * n
@[reducible] def CR_WIN_Y_MODE : Fld := ⟨1, 0⟩
@[reducible] def CR_WIN_Y_BASE : Fld := ⟨47, 23⟩
/-- A register CR_WDOG (R336). -/
def CR_WDOG (n : Nat) : Nat := 0x40F00020 + 0x10000 * n
@[reducible] def CR_WDOG_TIMEOUT_MS : Fld := ⟨13, 0⟩
@[reducible] def CR_WDOG_KICK : Fld := ⟨31, 31⟩
/-- A register CR_TIMER (R327). -/
def CR_TIMER (n : Nat) : Nat := 0x40F00028 + 0x10000 * n
@[reducible] def CR_TIMER_CNT : Fld := ⟨47, 0⟩
/-- A register CR_TCMP (R327). -/
def CR_TCMP (n : Nat) : Nat := 0x40F00030 + 0x10000 * n
@[reducible] def CR_TCMP_CMP : Fld := ⟨47, 0⟩
@[reducible] def CR_TCMP_EN : Fld := ⟨63, 63⟩
/-- A register CR_INT (R336). -/
def CR_INT (n : Nat) (m : Nat) : Nat := 0x40F00100 + 0x10000 * n + 0x4 * m
@[reducible] def CR_INT_EN : Fld := ⟨0, 0⟩
@[reducible] def CR_INT_LEVEL : Fld := ⟨1, 1⟩
@[reducible] def CR_INT_PEND : Fld := ⟨2, 2⟩
@[reducible] def CR_INT_SWSET : Fld := ⟨3, 3⟩
/-- The register CR_MAP (R336). -/
def CR_MAP : Nat := 0x40F40000
@[reducible] def CR_MAP_PHYS_0 : Fld := ⟨1, 0⟩
@[reducible] def CR_MAP_PHYS_1 : Fld := ⟨3, 2⟩
@[reducible] def CR_MAP_PHYS_2 : Fld := ⟨5, 4⟩
@[reducible] def CR_MAP_PHYS_3 : Fld := ⟨7, 6⟩

/-! Registers of spec/11_control_plane.md. -/

/-- A register XB_PRIO (R340). -/
def XB_PRIO (n : Nat) : Nat := 0x40C00000 + 0x4 * n
@[reducible] def XB_PRIO_PRIO : Fld := ⟨31, 0⟩
/-- The register XB_CTRL (R356). -/
def XB_CTRL : Nat := 0x40C00040
@[reducible] def XB_CTRL_AGE : Fld := ⟨12, 0⟩
/-- The register XB_ERRADDR (R343). -/
def XB_ERRADDR : Nat := 0x40C00100
@[reducible] def XB_ERRADDR_ADDR : Fld := ⟨47, 0⟩
/-- The register XB_ERRINFO (R356). -/
def XB_ERRINFO : Nat := 0x40C00108
@[reducible] def XB_ERRINFO_MASTER : Fld := ⟨3, 0⟩
@[reducible] def XB_ERRINFO_WRITE : Fld := ⟨4, 4⟩
@[reducible] def XB_ERRINFO_NOCONN : Fld := ⟨5, 5⟩
@[reducible] def XB_ERRINFO_VALID : Fld := ⟨6, 6⟩
@[reducible] def XB_ERRINFO_MORE : Fld := ⟨23, 8⟩
/-- The register XB_CNT (R343). -/
def XB_CNT : Nat := 0x40C00110
/-- A register DC_CTRL (R356). -/
def DC_CTRL (n : Nat) : Nat := 0x40800000 + 0x100 * n
@[reducible] def DC_CTRL_START : Fld := ⟨0, 0⟩
@[reducible] def DC_CTRL_RESUME : Fld := ⟨1, 1⟩
@[reducible] def DC_CTRL_ABORT : Fld := ⟨2, 2⟩
@[reducible] def DC_CTRL_IRQ_EN : Fld := ⟨3, 3⟩
@[reducible] def DC_CTRL_PRIO : Fld := ⟨5, 4⟩
@[reducible] def DC_CTRL_OWNER : Fld := ⟨7, 6⟩
/-- A register DC_STAT (R356). -/
def DC_STAT (n : Nat) : Nat := 0x40800004 + 0x100 * n
@[reducible] def DC_STAT_STATE : Fld := ⟨2, 0⟩
@[reducible] def DC_STAT_EOC : Fld := ⟨3, 3⟩
@[reducible] def DC_STAT_ERR : Fld := ⟨7, 4⟩
@[reducible] def DC_STAT_POISON_SEEN : Fld := ⟨8, 8⟩
/-- A register DC_HEAD (R347). -/
def DC_HEAD (n : Nat) : Nat := 0x40800008 + 0x100 * n
@[reducible] def DC_HEAD_ADDR : Fld := ⟨47, 5⟩
/-- A register DC_CUR (R353). -/
def DC_CUR (n : Nat) : Nat := 0x40800010 + 0x100 * n
/-- A register DC_LAST (R356). -/
def DC_LAST (n : Nat) : Nat := 0x40800018 + 0x100 * n
@[reducible] def DC_LAST_ADDR : Fld := ⟨47, 0⟩
@[reducible] def DC_LAST_TAG : Fld := ⟨55, 48⟩
/-- A register DC_BYTES (R355). -/
def DC_BYTES (n : Nat) : Nat := 0x40800020 + 0x100 * n
/-- A register DC_CNT (R352). -/
def DC_CNT (n : Nat) : Nat := 0x40800028 + 0x100 * n
/-- A register DC_RES (R354). -/
def DC_RES (n : Nat) : Nat := 0x40800030 + 0x100 * n

/-! Registers of spec/12_host_and_mailboxes.md. -/

/-- The register DEVSTAT (R360). -/
def DEVSTAT : Nat := 0x40080000
@[reducible] def DEVSTAT_ERR_SUM : Fld := ⟨7, 0⟩
@[reducible] def DEVSTAT_LEASE : Fld := ⟨15, 8⟩
@[reducible] def DEVSTAT_TIMING : Fld := ⟨23, 16⟩
@[reducible] def DEVSTAT_THERMAL : Fld := ⟨31, 24⟩
@[reducible] def DEVSTAT_JOBS : Fld := ⟨39, 32⟩
@[reducible] def DEVSTAT_FW_STATE : Fld := ⟨47, 40⟩
@[reducible] def DEVSTAT_HEARTBEAT : Fld := ⟨63, 48⟩
/-- The register ID_MAGIC (R360). -/
def ID_MAGIC : Nat := 0x40080008
/-- The register ID_MODE (R360). -/
def ID_MODE : Nat := 0x4008000C
@[reducible] def ID_MODE_STEPPING : Fld := ⟨7, 0⟩
@[reducible] def ID_MODE_MODE : Fld := ⟨15, 8⟩
@[reducible] def ID_MODE_ROLE : Fld := ⟨23, 16⟩
@[reducible] def ID_MODE_FUNCS : Fld := ⟨31, 24⟩
/-- The register ID_FW_VER (R360). -/
def ID_FW_VER : Nat := 0x40080010
/-- The register ID_ROM_VER (R360). -/
def ID_ROM_VER : Nat := 0x40080014
@[reducible] def ID_ROM_VER_ROM : Fld := ⟨15, 0⟩
@[reducible] def ID_ROM_VER_BOOT_SLOT : Fld := ⟨23, 16⟩
/-- The register ID_SERIAL (R360). -/
def ID_SERIAL : Nat := 0x40080018
/-- The register ID_SRC_DEV (R360). -/
def ID_SRC_DEV : Nat := 0x40080020
/-- The register ID_HOSTBUF_BASE (R360). -/
def ID_HOSTBUF_BASE : Nat := 0x40080028
/-- The register ID_HOSTBUF_LEN (R360). -/
def ID_HOSTBUF_LEN : Nat := 0x40080030
/-- The register ID_JOBPOOL_BASE (R360). -/
def ID_JOBPOOL_BASE : Nat := 0x40080038
/-- The register ID_JOBPOOL_LEN (R360). -/
def ID_JOBPOOL_LEN : Nat := 0x40080040
/-- The register DOORBELL (R376). -/
def DOORBELL : Nat := 0x40080100
@[reducible] def DOORBELL_OWN : Fld := ⟨31, 0⟩
/-- The register CPL_STAT (R376). -/
def CPL_STAT : Nat := 0x40080104
@[reducible] def CPL_STAT_CPL : Fld := ⟨31, 0⟩
/-- The register HI_CNT (R376). -/
def HI_CNT : Nat := 0x40080108
@[reducible] def HI_CNT_DB_IGN : Fld := ⟨15, 0⟩
@[reducible] def HI_CNT_MB_VIOL : Fld := ⟨31, 16⟩
@[reducible] def HI_CNT_BAD_ACC : Fld := ⟨47, 32⟩
@[reducible] def HI_CNT_BAR2_WDROP : Fld := ⟨63, 48⟩
/-- A register JOB_DONE_BITS (R370). -/
def JOB_DONE_BITS (n : Nat) : Nat := 0x40080180 + 0x4 * n
/-- The register INT_EN (R376). -/
def INT_EN : Nat := 0x40080200
@[reducible] def INT_EN_EN : Fld := ⟨4, 0⟩
/-- The register INT_MOD (R376). -/
def INT_MOD : Nat := 0x40080204
@[reducible] def INT_MOD_MOD_US : Fld := ⟨15, 0⟩
/-- The register INT_CAUSE (R376). -/
def INT_CAUSE : Nat := 0x40080208
@[reducible] def INT_CAUSE_STATE : Fld := ⟨0, 0⟩
@[reducible] def INT_CAUSE_ERR : Fld := ⟨1, 1⟩
@[reducible] def INT_CAUSE_WDOG : Fld := ⟨2, 2⟩
/-- A register APER (R376). -/
def APER (n : Nat) : Nat := 0x40080300 + 0x8 * n
@[reducible] def APER_EN : Fld := ⟨0, 0⟩
@[reducible] def APER_WRITE : Fld := ⟨1, 1⟩
@[reducible] def APER_BASE : Fld := ⟨47, 26⟩
/-- The register OB_BASE (R376). -/
def OB_BASE : Nat := 0x40080320
@[reducible] def OB_BASE_BASE : Fld := ⟨63, 47⟩
/-- A register MB_WORD (R362). -/
def MB_WORD (n : Nat) : Nat := 0x40081000 + 0x4 * n
/-- A register CPL_WORD (R363). -/
def CPL_WORD (n : Nat) : Nat := 0x40083000 + 0x4 * n
/-- A register JOB_WORD (R369). -/
def JOB_WORD (n : Nat) : Nat := 0x40084000 + 0x4 * n
/-- A register EXT_WORD (R364). -/
def EXT_WORD (n : Nat) : Nat := 0x40088000 + 0x4 * n

/-! Registers of spec/13_integrity.md. -/

/-- The register ER_STAT (R399). -/
def ER_STAT : Nat := 0x40B00000
@[reducible] def ER_STAT_DEPTH : Fld := ⟨4, 0⟩
@[reducible] def ER_STAT_FIRST_VALID : Fld := ⟨5, 5⟩
@[reducible] def ER_STAT_LOST : Fld := ⟨6, 6⟩
@[reducible] def ER_STAT_LOST_CNT : Fld := ⟨23, 8⟩
@[reducible] def ER_STAT_LATER : Fld := ⟨63, 32⟩
/-- A register ER_FIRST (R395). -/
def ER_FIRST (n : Nat) : Nat := 0x40B00020 + 0x8 * n
/-- A register ER_HEAD (R396). -/
def ER_HEAD (n : Nat) : Nat := 0x40B00040 + 0x8 * n
/-- The register ER_CMD (R399). -/
def ER_CMD : Nat := 0x40B00060
@[reducible] def ER_CMD_POP : Fld := ⟨0, 0⟩
@[reducible] def ER_CMD_CLR_FIRST : Fld := ⟨1, 1⟩
@[reducible] def ER_CMD_CLR_LOST : Fld := ⟨2, 2⟩
/-- A register EC_CTRL (R399). -/
def EC_CTRL (n : Nat) : Nat := 0x40B00100 + 0x20 * n
@[reducible] def EC_CTRL_SCRUB_EN : Fld := ⟨0, 0⟩
@[reducible] def EC_CTRL_BYPASS : Fld := ⟨1, 1⟩
@[reducible] def EC_CTRL_TARGETED : Fld := ⟨2, 2⟩
@[reducible] def EC_CTRL_PERIOD_S : Fld := ⟨27, 8⟩
@[reducible] def EC_CTRL_SPARES_LEFT : Fld := ⟨47, 32⟩
@[reducible] def EC_CTRL_TAB_OVF : Fld := ⟨63, 48⟩
/-- A register EC_CNT (R386). -/
def EC_CNT (n : Nat) : Nat := 0x40B00108 + 0x20 * n
/-- A register EC_POS (R390). -/
def EC_POS (n : Nat) : Nat := 0x40B00110 + 0x20 * n
/-- A register EC_PRD (R384). -/
def EC_PRD (n : Nat) : Nat := 0x40B00118 + 0x20 * n
/-- The register EC_ODC (R382). -/
def EC_ODC : Nat := 0x40B001F0
/-- The register EC_INJ_LO (R394). -/
def EC_INJ_LO : Nat := 0x40B001F8
/-- The register EC_INJ_HI (R394). -/
def EC_INJ_HI : Nat := 0x40B00200
/-- A register EC_TAB (R386). -/
def EC_TAB (n : Nat) (m : Nat) (l : Nat) : Nat := 0x40B01000 + 0x400 * n + 0x10 * m + 0x8 * l
/-- A register CV_CFG (R399). -/
def CV_CFG (n : Nat) : Nat := 0x40900000 + 0x100 * n
@[reducible] def CV_CFG_WIDTH : Fld := ⟨6, 0⟩
@[reducible] def CV_CFG_REFIN : Fld := ⟨7, 7⟩
@[reducible] def CV_CFG_REFOUT : Fld := ⟨8, 8⟩
@[reducible] def CV_CFG_ALIVE : Fld := ⟨10, 9⟩
@[reducible] def CV_CFG_BUSY : Fld := ⟨11, 11⟩
@[reducible] def CV_CFG_REPEAT : Fld := ⟨12, 12⟩
@[reducible] def CV_CFG_GAP : Fld := ⟨13, 13⟩
@[reducible] def CV_CFG_OWNER : Fld := ⟨15, 14⟩
@[reducible] def CV_CFG_START : Fld := ⟨16, 16⟩
/-- A register CV_POLY (R398). -/
def CV_POLY (n : Nat) : Nat := 0x40900008 + 0x100 * n
/-- A register CV_INIT (R398). -/
def CV_INIT (n : Nat) : Nat := 0x40900010 + 0x100 * n
/-- A register CV_XOROUT (R398). -/
def CV_XOROUT (n : Nat) : Nat := 0x40900018 + 0x100 * n
/-- A register CV_FEED_B_R (R398). -/
def CV_FEED_B_R (n : Nat) : Nat := 0x40900020 + 0x100 * n
/-- A register CV_FEED_H_R (R398). -/
def CV_FEED_H_R (n : Nat) : Nat := 0x40900024 + 0x100 * n
/-- A register CV_FEED_W_R (R398). -/
def CV_FEED_W_R (n : Nat) : Nat := 0x40900028 + 0x100 * n
/-- A register CV_RESULT (R398). -/
def CV_RESULT (n : Nat) : Nat := 0x40900030 + 0x100 * n
/-- A register CV_ALIVE (R399). -/
def CV_ALIVE (n : Nat) : Nat := 0x40900038 + 0x100 * n
@[reducible] def CV_ALIVE_COUNT : Fld := ⟨7, 0⟩
@[reducible] def CV_ALIVE_LAST : Fld := ⟨15, 8⟩
/-- A register CV_ALIVE_GO_R (R399). -/
def CV_ALIVE_GO_R (n : Nat) : Nat := 0x4090003C + 0x100 * n
/-- A register CV_CNT (R399). -/
def CV_CNT (n : Nat) : Nat := 0x40900040 + 0x100 * n

/-! Registers of spec/14_heat_wear_and_twins.md. -/

/-- The register TH_CTRL (R426). -/
def TH_CTRL : Nat := 0x40A00000
@[reducible] def TH_CTRL_EN : Fld := ⟨0, 0⟩
@[reducible] def TH_CTRL_DUTY : Fld := ⟨4, 1⟩
@[reducible] def TH_CTRL_DUTY_MAX : Fld := ⟨8, 5⟩
@[reducible] def TH_CTRL_STEP_UP_MS : Fld := ⟨15, 9⟩
@[reducible] def TH_CTRL_STEP_DN_MS : Fld := ⟨25, 16⟩
/-- The register TH_LATCH (R426). -/
def TH_LATCH : Nat := 0x40A00008
@[reducible] def TH_LATCH_DIGITAL : Fld := ⟨0, 0⟩
@[reducible] def TH_LATCH_ANALOGUE : Fld := ⟨1, 1⟩
@[reducible] def TH_LATCH_SENS_A : Fld := ⟨7, 2⟩
@[reducible] def TH_LATCH_SENS_B : Fld := ⟨13, 8⟩
/-- A register TH_ZONE (R426). -/
def TH_ZONE (n : Nat) : Nat := 0x40A00100 + 0x8 * n
@[reducible] def TH_ZONE_TH_WARN : Fld := ⟨7, 0⟩
@[reducible] def TH_ZONE_TH_THR : Fld := ⟨15, 8⟩
@[reducible] def TH_ZONE_TH_SHUT : Fld := ⟨23, 16⟩
@[reducible] def TH_ZONE_HYS_WARN : Fld := ⟨27, 24⟩
@[reducible] def TH_ZONE_HYS_THR : Fld := ⟨31, 28⟩
@[reducible] def TH_ZONE_EST : Fld := ⟨47, 32⟩
/-- A register TH_SENS (R426). -/
def TH_SENS (n : Nat) : Nat := 0x40A00200 + 0x4 * n
@[reducible] def TH_SENS_TEMP : Fld := ⟨15, 0⟩
@[reducible] def TH_SENS_ELEM : Fld := ⟨16, 16⟩
@[reducible] def TH_SENS_STATE : Fld := ⟨18, 17⟩
/-- The register AV_CTRL (R426). -/
def AV_CTRL : Nat := 0x40A00400
@[reducible] def AV_CTRL_EN : Fld := ⟨0, 0⟩
@[reducible] def AV_CTRL_VSET_MV : Fld := ⟨10, 1⟩
@[reducible] def AV_CTRL_M_TARGET : Fld := ⟨20, 11⟩
@[reducible] def AV_CTRL_M_MIN : Fld := ⟨30, 21⟩
/-- The register THC_THR_TIME (R427). -/
def THC_THR_TIME : Nat := 0x40A00500
/-- The register THC_THR_SPEC (R427). -/
def THC_THR_SPEC : Nat := 0x40A00508
/-- The register THC_SENS_EVT (R427). -/
def THC_SENS_EVT : Nat := 0x40A00510
/-- The register THC_AV_STEPS (R427). -/
def THC_AV_STEPS : Nat := 0x40A00518
/-- The register LS_CTRL (R426). -/
def LS_CTRL : Nat := 0x40E00000
@[reducible] def LS_CTRL_ROLE : Fld := ⟨1, 0⟩
@[reducible] def LS_CTRL_NODE : Fld := ⟨2, 2⟩
@[reducible] def LS_CTRL_GATE_ASL : Fld := ⟨3, 3⟩
@[reducible] def LS_CTRL_PREF : Fld := ⟨4, 4⟩
@[reducible] def LS_CTRL_PAIR_ID : Fld := ⟨31, 16⟩
/-- The register LS_STAT (R426). -/
def LS_STAT : Nat := 0x40E00008
@[reducible] def LS_STAT_STATE : Fld := ⟨7, 0⟩
@[reducible] def LS_STAT_GEN : Fld := ⟨23, 8⟩
@[reducible] def LS_STAT_TIMER_US : Fld := ⟨63, 32⟩
/-- The register LSC_LS_BAD (R427). -/
def LSC_LS_BAD : Nat := 0x40E00100
/-- The register LSC_GEN_REFUSED (R427). -/
def LSC_GEN_REFUSED : Nat := 0x40E00108
/-- The register LSC_LS_CHANGES (R427). -/
def LSC_LS_CHANGES : Nat := 0x40E00110
/-- The register LSC_HEALTH_MISS (R427). -/
def LSC_HEALTH_MISS : Nat := 0x40E00118

/-! Registers of spec/16_power_and_startup.md. -/

/-- The register SC_ID (R473). -/
def SC_ID : Nat := 0x40000000
@[reducible] def SC_ID_STEPPING : Fld := ⟨7, 0⟩
@[reducible] def SC_ID_MODE : Fld := ⟨8, 8⟩
@[reducible] def SC_ID_RECOVERY : Fld := ⟨9, 9⟩
/-- The register SC_RSTCAUSE (R473). -/
def SC_RSTCAUSE : Nat := 0x40000008
@[reducible] def SC_RSTCAUSE_POR : Fld := ⟨0, 0⟩
@[reducible] def SC_RSTCAUSE_PIN : Fld := ⟨1, 1⟩
@[reducible] def SC_RSTCAUSE_SUPPLY : Fld := ⟨2, 2⟩
@[reducible] def SC_RSTCAUSE_SYS : Fld := ⟨3, 3⟩
@[reducible] def SC_RSTCAUSE_WDOG : Fld := ⟨4, 4⟩
@[reducible] def SC_RSTCAUSE_QDP : Fld := ⟨5, 5⟩
/-- The register SC_PWRSEQ (R473). -/
def SC_PWRSEQ : Nat := 0x40000010
@[reducible] def SC_PWRSEQ_STEP : Fld := ⟨2, 0⟩
@[reducible] def SC_PWRSEQ_SUPPLY : Fld := ⟨6, 3⟩
@[reducible] def SC_PWRSEQ_VALID : Fld := ⟨7, 7⟩
/-- The register SC_BOOT (R473). -/
def SC_BOOT : Nat := 0x40000018
@[reducible] def SC_BOOT_SLOT : Fld := ⟨0, 0⟩
@[reducible] def SC_BOOT_TRIAL : Fld := ⟨1, 1⟩
@[reducible] def SC_BOOT_TRIES : Fld := ⟨3, 2⟩
@[reducible] def SC_BOOT_FALLBACK : Fld := ⟨4, 4⟩
/-- The register SC_WDOG (R473). -/
def SC_WDOG : Nat := 0x40000020
@[reducible] def SC_WDOG_HOLD : Fld := ⟨0, 0⟩
@[reducible] def SC_WDOG_PENDING : Fld := ⟨1, 1⟩

/-! Registers of spec/19_debug_and_test.md. -/

/-- The register SC_DBG (R516). -/
def SC_DBG : Nat := 0x40000030
@[reducible] def SC_DBG_LEVEL : Fld := ⟨1, 0⟩
@[reducible] def SC_DBG_DBG_MIN : Fld := ⟨3, 2⟩

/-! Registers of spec/11_control_plane.md. -/

/-- The register SC_REMAP (R356). -/
def SC_REMAP : Nat := 0x40000040
@[reducible] def SC_REMAP_REMAP : Fld := ⟨0, 0⟩

/-! Registers of spec/16_power_and_startup.md. -/

/-- The register SC_HU_CFG (R473). -/
def SC_HU_CFG : Nat := 0x40000100
@[reducible] def SC_HU_CFG_EN : Fld := ⟨0, 0⟩
@[reducible] def SC_HU_CFG_I_L : Fld := ⟨2, 1⟩
@[reducible] def SC_HU_CFG_RATIO : Fld := ⟨27, 16⟩
@[reducible] def SC_HU_CFG_VMIN_MV : Fld := ⟨45, 32⟩
@[reducible] def SC_HU_CFG_E_COMMIT_MJ : Fld := ⟨57, 48⟩
/-- The register SC_HU_RES (R473). -/
def SC_HU_RES : Nat := 0x40000108
@[reducible] def SC_HU_RES_V1_MV : Fld := ⟨13, 0⟩
@[reducible] def SC_HU_RES_DV_UV : Fld := ⟨29, 14⟩
@[reducible] def SC_HU_RES_RESULT : Fld := ⟨31, 30⟩
@[reducible] def SC_HU_RES_E_MJ : Fld := ⟨47, 32⟩
@[reducible] def SC_HU_RES_AGE_S : Fld := ⟨63, 48⟩
/-- The register SC_RS_STAT (R473). -/
def SC_RS_STAT : Nat := 0x40000110
@[reducible] def SC_RS_STAT_SEL : Fld := ⟨0, 0⟩
@[reducible] def SC_RS_STAT_OTHER_BLANK : Fld := ⟨1, 1⟩
@[reducible] def SC_RS_STAT_ENGINE : Fld := ⟨3, 2⟩
@[reducible] def SC_RS_STAT_PENDING : Fld := ⟨4, 4⟩
@[reducible] def SC_RS_STAT_COMMITS_24H : Fld := ⟨12, 5⟩
@[reducible] def SC_RS_STAT_GEN : Fld := ⟨63, 32⟩

/-! Registers of spec/15_dc512_compatibility.md. -/

/-- A register DC_STATUS (R443). -/
def DC_STATUS (n : Nat) : Nat := 0x1000000000000 + 0x1000 * n
/-- A register DC_COUNTER (R443). -/
def DC_COUNTER (n : Nat) : Nat := 0x1000000000004 + 0x1000 * n
/-- A register DC_DOORBELL (R443). -/
def DC_DOORBELL (n : Nat) : Nat := 0x1000000000008 + 0x1000 * n
/-- A register DC_DONE (R443). -/
def DC_DONE (n : Nat) : Nat := 0x100000000000C + 0x1000 * n
/-- A register DC_IRQ_EN (R443). -/
def DC_IRQ_EN (n : Nat) : Nat := 0x1000000000010 + 0x1000 * n
/-- A register DC_DUMPS (R443). -/
def DC_DUMPS (n : Nat) : Nat := 0x1000000000014 + 0x1000 * n
/-- A register DC_SLOT (R444). -/
def DC_SLOT (n : Nat) (m : Nat) : Nat := 0x1000000000100 + 0x1000 * n + 0x4 * m

/-! Registers of spec/12_host_and_mailboxes.md. -/

/-- A register SMB_MB (R378). -/
def SMB_MB (n : Nat) : Nat := 0x1000100000020 + 0x4 * n
/-- A register SMB_CPL (R378). -/
def SMB_CPL (n : Nat) : Nat := 0x1000100000060 + 0x4 * n
/-- The register SMB_DB (R378). -/
def SMB_DB : Nat := 0x10001000000A0

/-! Registers of spec/19_debug_and_test.md. -/

/-- The register QD_CTRL (R511). -/
def QD_CTRL : Nat := 0x1000200000004
@[reducible] def QD_CTRL_CORE : Fld := ⟨1, 0⟩
@[reducible] def QD_CTRL_HALT : Fld := ⟨2, 2⟩
@[reducible] def QD_CTRL_RESUME : Fld := ⟨3, 3⟩
@[reducible] def QD_CTRL_STEP : Fld := ⟨4, 4⟩
@[reducible] def QD_CTRL_AUTOINC : Fld := ⟨5, 5⟩
@[reducible] def QD_CTRL_BANK : Fld := ⟨6, 6⟩
@[reducible] def QD_CTRL_DEV_RESET : Fld := ⟨7, 7⟩
@[reducible] def QD_CTRL_HOLD : Fld := ⟨8, 8⟩
/-- The register QD_STAT (R511). -/
def QD_STAT : Nat := 0x1000200000008
@[reducible] def QD_STAT_STATE : Fld := ⟨2, 0⟩
@[reducible] def QD_STAT_QHALT : Fld := ⟨3, 3⟩
@[reducible] def QD_STAT_CAUSE : Fld := ⟨6, 4⟩
@[reducible] def QD_STAT_LATE_BP : Fld := ⟨7, 7⟩
@[reducible] def QD_STAT_LEVEL : Fld := ⟨9, 8⟩
@[reducible] def QD_STAT_POISON : Fld := ⟨10, 10⟩
@[reducible] def QD_STAT_TEST_EN : Fld := ⟨11, 11⟩
/-- A register QD_ADDR (R511). -/
def QD_ADDR (n : Nat) : Nat := 0x1000200000010 + 0x4 * n
/-- A register QD_BP (R511). -/
def QD_BP (n : Nat) (m : Nat) : Nat := 0x1000200001000 + 0x100 * n + 0x8 * m
/-- A register QD_WP (R511). -/
def QD_WP (n : Nat) (m : Nat) (l : Nat) : Nat := 0x1000200002000 + 0x100 * n + 0x10 * m + 0x4 * l

/-- Who besides firmware may write a register (R7): nobody, or the owner the chapter names. -/
inductive RegOpen where
  | none | core | dma | cvu | beam
  deriving DecidableEq, Repr

/-- One row of the register table: first address, strides and counts, width in bits, the bits of each access code of
Table 0.4, the reset value, the VDD_AUX domain, and who besides firmware may write it. -/
structure RegRow where
  base : Nat
  dims : List (Nat × Nat)
  width : Nat
  rw : Nat
  w1c : Nat
  w1s : Nat
  wo : Nat
  rsv : Nat
  reset : Nat
  aux : Bool
  opn : RegOpen
  deriving DecidableEq, Repr

/-- Part 0 of the register table. -/
def regTable0 : List RegRow := [
  ⟨0x40000000, [], 32, 0, 0, 0, 0, 0xFFFFFC00, 0x21, false, .none⟩,
  ⟨0x40000008, [], 32, 0, 0x3F, 0, 0, 0xFFFFFFC0, 1, true, .none⟩,
  ⟨0x40000010, [], 32, 0, 0x80, 0, 0, 0xFFFFFF00, 0, true, .none⟩,
  ⟨0x40000018, [], 32, 0xC, 0, 0, 0, 0xFFFFFFE0, 0, true, .none⟩,
  ⟨0x40000020, [], 32, 1, 0, 0, 0, 0xFFFFFFFC, 0, false, .none⟩,
  ⟨0x40000030, [], 32, 0, 0, 0, 0, 0, 0, true, .none⟩,
  ⟨0x40000040, [], 32, 0, 0, 1, 0, 0xFFFFFFFE, 0, false, .none⟩,
  ⟨0x40000100, [], 64, 0x3FF3FFF0FFF0007, 0, 0, 0, 0xFC00C000F000FFF8, 0x3C0A8C08000004, false, .none⟩,
  ⟨0x40000108, [], 64, 0, 0, 0, 0, 0, 0xFFFF000000000000, true, .none⟩,
  ⟨0x40000110, [], 64, 0, 0, 0, 0, 0xFFFFE000, 0, false, .none⟩,
  ⟨0x40080000, [], 64, 0, 0, 0, 0, 0, 0x10000000000, false, .none⟩,
  ⟨0x40080008, [], 32, 0, 0, 0, 0, 0, 0, false, .none⟩,
  ⟨0x4008000C, [], 32, 0, 0, 0, 0, 0, 0, false, .none⟩,
  ⟨0x40080010, [], 32, 0, 0, 0, 0, 0, 0, false, .none⟩,
  ⟨0x40080014, [], 32, 0, 0, 0, 0, 0, 0, false, .none⟩,
  ⟨0x40080018, [], 64, 0, 0, 0, 0, 0, 0, false, .none⟩]

/-- Part 1 of the register table. -/
def regTable1 : List RegRow := [
  ⟨0x40080020, [], 32, 0, 0, 0, 0, 0, 0, false, .none⟩,
  ⟨0x40080028, [], 64, 0, 0, 0, 0, 0, 0, false, .none⟩,
  ⟨0x40080030, [], 64, 0, 0, 0, 0, 0, 0, false, .none⟩,
  ⟨0x40080038, [], 64, 0, 0, 0, 0, 0, 0, false, .none⟩,
  ⟨0x40080040, [], 64, 0, 0, 0, 0, 0, 0, false, .none⟩,
  ⟨0x40080100, [], 32, 0, 0, 0xFFFFFFFF, 0, 0, 0, false, .none⟩,
  ⟨0x40080104, [], 32, 0, 0xFFFFFFFF, 0, 0, 0, 0, false, .none⟩,
  ⟨0x40080108, [], 64, 0, 0, 0, 0, 0, 0, false, .none⟩,
  ⟨0x40080180, [(0x4, 32)], 32, 0, 0xFFFFFFFF, 0, 0, 0, 0, false, .none⟩,
  ⟨0x40080200, [], 32, 0x1F, 0, 0, 0, 0xFFFFFFE0, 0, false, .none⟩,
  ⟨0x40080204, [], 32, 0xFFFF, 0, 0, 0, 0xFFFF0000, 0, false, .none⟩,
  ⟨0x40080208, [], 32, 0, 7, 0, 0, 0xFFFFFFF8, 0, false, .none⟩,
  ⟨0x40080300, [(0x8, 4)], 64, 0, 0, 0, 0, 0xFFFF000003FFFFFC, 0, false, .none⟩,
  ⟨0x40080320, [], 64, 0, 0, 0, 0, 0x7FFFFFFFFFFF, 0, false, .none⟩,
  ⟨0x40081000, [(0x4, 2048)], 32, 0xFFFFFFFF, 0, 0, 0, 0, 0, false, .none⟩,
  ⟨0x40083000, [(0x4, 512)], 32, 0, 0, 0, 0, 0, 0, false, .none⟩]

/-- Part 2 of the register table. -/
def regTable2 : List RegRow := [
  ⟨0x40084000, [(0x4, 4096)], 32, 0, 0, 0, 0, 0, 0, false, .none⟩,
  ⟨0x40088000, [(0x4, 8192)], 32, 0xFFFFFFFF, 0, 0, 0, 0, 0, false, .none⟩,
  ⟨0x40100000, [], 32, 0xFFF7, 0, 0, 0, 0xFFFF0008, 0x2F6, false, .none⟩,
  ⟨0x40100004, [], 32, 0, 0, 0, 0, 0xFFFF0000, 0xF00, false, .none⟩,
  ⟨0x40100008, [], 32, 0xFFFFFFFF, 0, 0, 0, 0, 0xFFFFFFFF, false, .none⟩,
  ⟨0x40100010, [], 64, 0xFFF03FF00FFFFFF, 0, 0, 0, 0xF000FC00FF000000, 0x780064000003E8, false, .none⟩,
  ⟨0x40100018, [], 64, 0x3FFFFFFF0001FFFF, 0, 0, 0, 0xC0000000FFFE0000, 0x64000000000E10, false, .none⟩,
  ⟨0x40100020, [], 64, 0, 0, 0, 0x1FFFFFFFF, 0xFFFFFFFE00000000, 0, false, .none⟩,
  ⟨0x40100028, [], 32, 0xFFFFF, 0, 0, 0, 0xFFF00000, 0x3E8, false, .none⟩,
  ⟨0x40100030, [], 64, 0, 0, 0, 0, 0, 0, false, .none⟩,
  ⟨0x40100038, [], 64, 0, 0, 0, 0, 0, 0, false, .none⟩,
  ⟨0x40100040, [], 32, 0x7FF, 0, 0, 0, 0xFFFFF800, 0x41A, false, .none⟩,
  ⟨0x40100048, [], 32, 0xFFFFFFFF, 0, 0, 0, 0, 0, false, .none⟩,
  ⟨0x40100100, [(0x20, 8)], 64, 0x7F1FFFFFFFFFFFFF, 0, 0, 0, 0x80E0000000000000, 0x5000000000000, false, .none⟩,
  ⟨0x40100108, [(0x20, 8)], 64, 0xFFFFFFFFFFFFFFFF, 0, 0, 0, 0, 0x12C00A02710003E8, false, .none⟩,
  ⟨0x40100110, [(0x20, 8)], 64, 0, 0, 0, 0, 0xFFF000C0, 0, false, .none⟩]

/-- Part 3 of the register table. -/
def regTable3 : List RegRow := [
  ⟨0x40100118, [(0x20, 8)], 64, 0, 0, 0, 0, 0, 0, false, .none⟩,
  ⟨0x40100200, [(0x10, 4)], 64, 0xFFFFFFFF0FFF, 0, 0, 0, 0xFFFF00000000E000, 0xC, false, .none⟩,
  ⟨0x40100208, [(0x10, 4)], 64, 0xFFFFFFFFFFFFFF7F, 0, 0, 0, 0x80, 0x10000, false, .none⟩,
  ⟨0x40100300, [(0x8, 2)], 64, 0xFFFFFF, 0, 0, 0, 0, 0, false, .none⟩,
  ⟨0x40100340, [(0x8, 4)], 64, 0xFFFFFFFFFFFFFFFF, 0, 0, 0, 0, 0, false, .none⟩,
  ⟨0x40100400, [(0x20, 8)], 64, 0xFFFFFFFFFFFFFFFF, 0, 0, 0, 0, 0, false, .none⟩,
  ⟨0x40100408, [(0x20, 8)], 64, 0xFFFFFFFFF, 0, 0, 0, 0, 0, false, .none⟩,
  ⟨0x40100410, [(0x20, 8)], 64, 0xFFFFFFFFFFFF, 0, 0, 0, 0, 0, false, .none⟩,
  ⟨0x40100418, [(0x20, 8)], 64, 0xFFFFFFFFFFFF, 0, 0, 0, 0, 0, false, .none⟩,
  ⟨0x40100500, [], 64, 0, 0, 0, 0, 0, 0, false, .none⟩,
  ⟨0x40100508, [], 64, 0, 0, 0, 0, 0, 0, false, .none⟩,
  ⟨0x40100510, [], 64, 0, 0, 0, 0, 0, 0, false, .none⟩,
  ⟨0x40100518, [], 64, 0, 0, 0, 0, 0, 0, false, .none⟩,
  ⟨0x40100520, [], 64, 0, 0, 0, 0, 0, 0, false, .none⟩,
  ⟨0x40100528, [], 64, 0, 0, 0, 0, 0, 0, false, .none⟩,
  ⟨0x40200000, [], 64, 0, 0, 0, 0, 0xFFFF000000000000, 0, false, .none⟩]

/-- Part 4 of the register table. -/
def regTable4 : List RegRow := [
  ⟨0x40200008, [], 64, 0, 0, 0, 0, 0xFFFF000000000000, 0, false, .none⟩,
  ⟨0x40200010, [], 32, 0xC, 0x20, 2, 0, 0xFFFFFFC0, 0, false, .none⟩,
  ⟨0x40200018, [], 64, 0x3FFFFFFF0001FFFF, 0, 0, 0, 0xC0000000FFFE0000, 0xF424000002710, false, .none⟩,
  ⟨0x40200020, [], 64, 0, 0, 0, 0, 0, 0, false, .none⟩,
  ⟨0x40200100, [(0x20, 8)], 32, 0xFFFFFF07, 0x10, 0, 0, 0xE0, 0x98968000, false, .none⟩,
  ⟨0x40200108, [(0x20, 8)], 64, 0xFFFFFFFFFFFF, 0, 0, 0, 0, 0, false, .none⟩,
  ⟨0x40200110, [(0x20, 8)], 64, 0xFFFFFFFFFFFF, 0, 0, 0, 0, 0, false, .none⟩,
  ⟨0x40200118, [(0x20, 8)], 64, 0xFFFFFFFFFF, 0, 0, 0, 0, 0, false, .none⟩,
  ⟨0x40200200, [(0x8, 8)], 64, 0, 0, 0, 0, 0, 0, false, .none⟩,
  ⟨0x40300000, [(0x1000, 80)], 32, 0xFFF7FFF, 0, 0, 0x80000000, 0x70008000, 0xFF0000, false, .none⟩,
  ⟨0x40300004, [(0x1000, 80)], 32, 0, 0, 0, 0, 0xFF000080, 0, false, .none⟩,
  ⟨0x40300008, [(0x1000, 80)], 64, 0xFFFFFFFFF, 0, 0, 0, 0xFFFFFFF000000000, 0, false, .none⟩,
  ⟨0x40300010, [(0x1000, 80)], 64, 0xFFFFFFFFFFFFFF, 0, 0, 0, 0xFF00000000000000, 0, false, .none⟩,
  ⟨0x40300040, [(0x1000, 80)], 64, 0, 0, 0, 0, 0, 0, false, .none⟩,
  ⟨0x40300048, [(0x1000, 80)], 64, 0, 0, 0, 0, 0, 0, false, .none⟩,
  ⟨0x40300050, [(0x1000, 80)], 64, 0, 0, 0, 0, 0, 0, false, .none⟩]

/-- Part 5 of the register table. -/
def regTable5 : List RegRow := [
  ⟨0x40300058, [(0x1000, 80)], 64, 0, 0, 0, 0, 0, 0, false, .none⟩,
  ⟨0x40300060, [(0x1000, 80)], 64, 0, 0, 0, 0, 0, 0, false, .none⟩,
  ⟨0x40300068, [(0x1000, 80)], 64, 0, 0, 0, 0, 0, 0, false, .none⟩,
  ⟨0x40300070, [(0x1000, 80)], 64, 0, 0, 0, 0, 0, 0, false, .none⟩,
  ⟨0x40300078, [(0x1000, 80)], 64, 0, 0, 0, 0, 0, 0, false, .none⟩,
  ⟨0x40300080, [(0x1000, 80)], 64, 0, 0, 0, 0, 0, 0, false, .none⟩,
  ⟨0x40300088, [(0x1000, 80)], 64, 0, 0, 0, 0, 0, 0, false, .none⟩,
  ⟨0x40300090, [(0x1000, 80)], 64, 0, 0, 0, 0, 0, 0, false, .none⟩,
  ⟨0x40300098, [(0x1000, 80)], 64, 0, 0, 0, 0, 0, 0, false, .none⟩,
  ⟨0x403000A0, [(0x1000, 80)], 64, 0, 0, 0, 0, 0, 0, false, .none⟩,
  ⟨0x403000A8, [(0x1000, 80)], 64, 0, 0, 0, 0, 0, 0, false, .none⟩,
  ⟨0x403000B0, [(0x1000, 80)], 64, 0, 0, 0, 0, 0, 0, false, .none⟩,
  ⟨0x403000B8, [(0x1000, 80)], 64, 0, 0, 0, 0, 0, 0, false, .none⟩,
  ⟨0x403000C0, [(0x1000, 80)], 64, 0, 0, 0, 0, 0, 0, false, .none⟩,
  ⟨0x403000C8, [(0x1000, 80)], 64, 0, 0, 0, 0, 0, 0, false, .none⟩,
  ⟨0x40300100, [(0x1000, 80)], 64, 0xFFF7F7, 0, 0, 0, 0xFFFFFFFFFE000808, 0x600000, false, .none⟩]

/-- Part 6 of the register table. -/
def regTable6 : List RegRow := [
  ⟨0x40300108, [(0x1000, 80)], 64, 0, 0, 0, 0, 0, 0, false, .none⟩,
  ⟨0x40300110, [(0x1000, 80)], 64, 0, 0, 0, 0, 0, 0, false, .none⟩,
  ⟨0x40300140, [(0x1000, 80)], 32, 0x3EDF1F, 0, 0x10000, 0, 0xFFC000E0, 0x140000, false, .none⟩,
  ⟨0x40300148, [(0x1000, 80)], 64, 0, 0, 0, 0, 0, 0, false, .none⟩,
  ⟨0x40300150, [(0x1000, 80)], 64, 0, 0, 0, 0, 0, 0, false, .none⟩,
  ⟨0x40300158, [(0x1000, 80)], 64, 0xFFFFFFFFFFFFFFFF, 0, 0, 0, 0, 0, false, .none⟩,
  ⟨0x40400000, [], 32, 0x3FFFF, 0, 0, 0, 0xFFF00000, 0x240, false, .none⟩,
  ⟨0x40400008, [], 64, 0x1FF3FFF3FFF0FFF, 0, 0, 0, 0xFE00C000C000F000, 0, false, .none⟩,
  ⟨0x40400010, [], 32, 0x3FFF, 0, 0, 0, 0xFFFFC000, 0x3FFF, false, .none⟩,
  ⟨0x40400018, [], 64, 0x1FFFF001FFFFF, 0, 0, 0, 0xFFFE0000FFE00000, 0x10000, false, .none⟩,
  ⟨0x40400020, [], 64, 0x1FFFF0FFF, 0x1000, 0, 0, 0xFFFFFFFE0000E000, 0x114, false, .none⟩,
  ⟨0x40410000, [(0x40, 2048)], 64, 0, 0, 0, 0, 0, 0, false, .none⟩,
  ⟨0x40410008, [(0x40, 2048)], 64, 0, 0, 0, 0, 0, 0, false, .none⟩,
  ⟨0x40410010, [(0x40, 2048)], 64, 0, 0, 0, 0, 0, 0, false, .none⟩,
  ⟨0x40410018, [(0x40, 2048)], 64, 0, 0, 0, 0, 0, 0, false, .none⟩,
  ⟨0x40410020, [(0x40, 2048)], 64, 0, 0, 0, 0, 0, 0, false, .none⟩]

/-- Part 7 of the register table. -/
def regTable7 : List RegRow := [
  ⟨0x40410028, [(0x40, 2048)], 64, 0, 0, 0, 0, 0, 0, false, .none⟩,
  ⟨0x40410030, [(0x40, 2048)], 64, 0, 0, 0, 0, 0, 0, false, .none⟩,
  ⟨0x40410038, [(0x40, 2048)], 64, 0, 0, 0, 0, 0, 0, false, .none⟩,
  ⟨0x40500000, [], 32, 0xC3, 0, 0x20, 0, 0xFFFFFF00, 0x80, false, .none⟩,
  ⟨0x40500008, [], 64, 0xFFFFFF1FF0001F, 0, 0, 0, 0xFF000000E00C00E0, 0x1100100100, false, .none⟩,
  ⟨0x40500010, [], 64, 0xFFFF, 0, 0, 0, 0xFFFE0000FFFF0000, 0x10000037F, false, .none⟩,
  ⟨0x40500018, [], 64, 0, 0, 0, 0, 0xE0000000, 0, false, .none⟩,
  ⟨0x40500020, [], 32, 0x7F0000, 0, 0, 0, 0xFC80C040, 0x3F80, false, .none⟩,
  ⟨0x40500100, [(0x4, 68)], 32, 3, 0x1E00, 0, 0, 0xFFFFC000, 0, false, .none⟩,
  ⟨0x40500300, [], 64, 0, 0, 0, 0, 0, 0, false, .none⟩,
  ⟨0x40500308, [], 64, 0, 0, 0, 0, 0, 0, false, .none⟩,
  ⟨0x40500310, [], 64, 0, 0, 0, 0, 0, 0, false, .none⟩,
  ⟨0x40500318, [], 64, 0, 0, 0, 0, 0, 0, false, .none⟩,
  ⟨0x40500320, [], 64, 0, 0, 0, 0, 0, 0, false, .none⟩,
  ⟨0x40500328, [], 64, 0, 0, 0, 0, 0, 0, false, .none⟩,
  ⟨0x40500330, [], 64, 0, 0, 0, 0, 0, 0, false, .none⟩]

/-- Part 8 of the register table. -/
def regTable8 : List RegRow := [
  ⟨0x40500338, [], 64, 0, 0, 0, 0, 0, 0, false, .none⟩,
  ⟨0x40500340, [], 64, 0, 0, 0, 0, 0, 0, false, .none⟩,
  ⟨0x40500348, [], 64, 0, 0, 0, 0, 0, 0, false, .none⟩,
  ⟨0x40500350, [], 64, 0, 0, 0, 0, 0, 0, false, .none⟩,
  ⟨0x40500400, [], 32, 0x7F, 0x1C00, 0, 0, 0xFFFFE000, 0x48, false, .none⟩,
  ⟨0x40500408, [], 64, 0xFFFFFFFF, 0, 0, 0, 0, 1, false, .none⟩,
  ⟨0x40500410, [], 64, 0, 0, 0, 0, 0, 0, false, .none⟩,
  ⟨0x40500418, [], 64, 0, 0, 0, 0, 0, 0, false, .none⟩,
  ⟨0x40500440, [], 64, 0, 0, 0, 0, 0, 0, false, .none⟩,
  ⟨0x40500448, [], 64, 0, 0, 0, 0, 0, 0, false, .none⟩,
  ⟨0x40500450, [], 64, 0, 0, 0, 0, 0, 0, false, .none⟩,
  ⟨0x40500458, [], 64, 0, 0, 0, 0, 0, 0, false, .none⟩,
  ⟨0x40500460, [], 64, 0, 0, 0, 0, 0, 0, false, .none⟩,
  ⟨0x40500468, [], 64, 0, 0, 0, 0, 0, 0, false, .none⟩,
  ⟨0x40500470, [], 64, 0, 0, 0, 0, 0, 0, false, .none⟩,
  ⟨0x40500478, [], 64, 0, 0, 0, 0, 0, 0, false, .none⟩]

/-- Part 9 of the register table. -/
def regTable9 : List RegRow := [
  ⟨0x40500480, [], 64, 0, 0, 0, 0, 0, 0, false, .none⟩,
  ⟨0x40510000, [(0x10000, 2), (0x40, 68), (0x4, 12)], 32, 0xFFFFF, 0, 0, 0, 0xFFF00000, 0, false, .none⟩,
  ⟨0x40600000, [], 32, 0x1FFF, 0, 0, 0, 0xFFFFE000, 0xC00, false, .none⟩,
  ⟨0x40600008, [], 32, 0xFFFFFFFF, 0, 0, 0, 0, 0, false, .none⟩,
  ⟨0x4060000C, [], 32, 0xFFF, 0, 0, 0, 0xFFFFF000, 0x7F, false, .none⟩,
  ⟨0x40600010, [], 64, 0, 0, 0, 0, 0, 0, false, .none⟩,
  ⟨0x40600018, [], 64, 0, 0, 0, 0, 0, 0, false, .none⟩,
  ⟨0x40600020, [], 32, 0x300, 0, 0x18, 0, 0xFFFFF800, 0, false, .beam⟩,
  ⟨0x40600028, [], 64, 0xFFFFFFFFFFFFFFFF, 0, 0, 0, 0, 0, false, .beam⟩,
  ⟨0x40600030, [], 64, 0, 0, 0, 0, 0, 0, false, .none⟩,
  ⟨0x40600100, [], 64, 0, 0, 0, 0, 0, 0, false, .none⟩,
  ⟨0x40600108, [], 64, 0, 0, 0, 0, 0, 0, false, .none⟩,
  ⟨0x40600110, [], 64, 0, 0, 0, 0, 0, 0, false, .none⟩,
  ⟨0x40600118, [], 64, 0, 0, 0, 0, 0, 0, false, .none⟩,
  ⟨0x40600120, [], 64, 0, 0, 0, 0, 0, 0, false, .none⟩,
  ⟨0x40600128, [], 64, 0, 0, 0, 0, 0, 0, false, .none⟩]

/-- Part 10 of the register table. -/
def regTable10 : List RegRow := [
  ⟨0x40600130, [], 64, 0, 0, 0, 0, 0, 0, false, .none⟩,
  ⟨0x40600138, [], 64, 0, 0, 0, 0, 0, 0, false, .none⟩,
  ⟨0x40600140, [], 64, 0, 0, 0, 0, 0, 0, false, .none⟩,
  ⟨0x40700000, [], 32, 0xFFF7FFF, 0, 0, 0, 0xF0008000, 0x1920800, false, .none⟩,
  ⟨0x40700008, [], 32, 0, 0, 0, 0, 0xFFFFE000, 0x18C, false, .none⟩,
  ⟨0x40700100, [(0x8, 9)], 64, 0xFFFFF, 0, 0, 0, 0xFFC00000, 0x1F40, false, .none⟩,
  ⟨0x40700200, [(0x4, 72)], 32, 0, 0, 0, 0, 0xFFFFFFC0, 0, false, .none⟩,
  ⟨0x40700400, [], 64, 0, 0, 0, 0, 0, 0, false, .none⟩,
  ⟨0x40700408, [], 64, 0, 0, 0, 0, 0, 0, false, .none⟩,
  ⟨0x40700410, [], 64, 0, 0, 0, 0, 0, 0, false, .none⟩,
  ⟨0x40700418, [], 64, 0, 0, 0, 0, 0, 0, false, .none⟩,
  ⟨0x40700800, [], 32, 0x3FF, 0, 0, 0, 0xFFFFFC00, 0, false, .none⟩,
  ⟨0x40700808, [], 64, 0, 0, 0, 0, 0xFFFF000000000000, 0, false, .none⟩,
  ⟨0x40700810, [], 64, 0xFFFFFFFFFFFFFFF, 0, 0, 0, 0xF000000000000000, 0xA000010, false, .none⟩,
  ⟨0x40700818, [], 32, 0xFFFFFF, 0, 0, 0, 0xFF000000, 0x100, false, .none⟩,
  ⟨0x40700820, [], 64, 0, 0, 0, 0, 0, 0, false, .none⟩]

/-- Part 11 of the register table. -/
def regTable11 : List RegRow := [
  ⟨0x40700840, [], 64, 0, 0, 0, 0, 0, 0, false, .none⟩,
  ⟨0x40700848, [], 64, 0, 0, 0, 0, 0, 0, false, .none⟩,
  ⟨0x40700850, [], 64, 0, 0, 0, 0, 0, 0, false, .none⟩,
  ⟨0x40700858, [], 64, 0, 0, 0, 0, 0, 0, false, .none⟩,
  ⟨0x40700860, [], 64, 0, 0, 0, 0, 0, 0, false, .none⟩,
  ⟨0x40800000, [(0x100, 16)], 32, 0xF8, 0, 0, 7, 0xFFFFFF00, 0, false, .dma⟩,
  ⟨0x40800004, [(0x100, 16)], 32, 0, 0x108, 0, 0, 0xFFFFFE00, 0, false, .dma⟩,
  ⟨0x40800008, [(0x100, 16)], 64, 0xFFFFFFFFFFE0, 0, 0, 0, 0, 0, false, .dma⟩,
  ⟨0x40800010, [(0x100, 16)], 64, 0, 0, 0, 0, 0, 0, false, .none⟩,
  ⟨0x40800018, [(0x100, 16)], 64, 0, 0, 0, 0, 0xFF00000000000000, 0, false, .none⟩,
  ⟨0x40800020, [(0x100, 16)], 64, 0, 0, 0, 0, 0, 0, false, .none⟩,
  ⟨0x40800028, [(0x100, 16)], 64, 0, 0, 0, 0, 0, 0, false, .none⟩,
  ⟨0x40800030, [(0x100, 16)], 64, 0, 0, 0, 0, 0, 0, false, .none⟩,
  ⟨0x40900000, [(0x100, 8)], 32, 0xC7FF, 0x3000, 0, 0x10000, 0xFFFE0000, 0x20, false, .cvu⟩,
  ⟨0x40900008, [(0x100, 8)], 64, 0xFFFFFFFFFFFFFFFF, 0, 0, 0, 0, 0x4C11DB7, false, .cvu⟩,
  ⟨0x40900010, [(0x100, 8)], 64, 0xFFFFFFFFFFFFFFFF, 0, 0, 0, 0, 0xFFFFFFFF, false, .cvu⟩]

/-- Part 12 of the register table. -/
def regTable12 : List RegRow := [
  ⟨0x40900018, [(0x100, 8)], 64, 0xFFFFFFFFFFFFFFFF, 0, 0, 0, 0, 0xFFFFFFFF, false, .cvu⟩,
  ⟨0x40900020, [(0x100, 8)], 32, 0, 0, 0, 0xFF, 0, 0, false, .cvu⟩,
  ⟨0x40900024, [(0x100, 8)], 32, 0, 0, 0, 0xFFFF, 0, 0, false, .cvu⟩,
  ⟨0x40900028, [(0x100, 8)], 32, 0, 0, 0, 0xFFFFFFFF, 0, 0, false, .cvu⟩,
  ⟨0x40900030, [(0x100, 8)], 64, 0, 0, 0, 0, 0, 0, false, .cvu⟩,
  ⟨0x40900038, [(0x100, 8)], 32, 0xFF, 0, 0, 0, 0, 0, false, .cvu⟩,
  ⟨0x4090003C, [(0x100, 8)], 32, 0, 0, 0, 0xFF, 0, 0, false, .cvu⟩,
  ⟨0x40900040, [(0x100, 8)], 64, 0, 0, 0, 0, 0, 0, false, .cvu⟩,
  ⟨0x40A00000, [], 32, 0x3FFFFE1, 0, 0, 0, 0xFC000000, 0x6415E1, false, .none⟩,
  ⟨0x40A00008, [], 32, 0, 0, 0, 0, 0xFFFFC000, 0, true, .none⟩,
  ⟨0x40A00100, [(0x8, 8)], 64, 0xFFFFFFFF, 0, 0, 0, 0xFFFF000000000000, 0x536E645A, false, .none⟩,
  ⟨0x40A00200, [(0x4, 56)], 32, 0, 0, 0, 0, 0xFFF80000, 0, false, .none⟩,
  ⟨0x40A00400, [], 32, 0x7FFFF801, 0, 0, 0, 0x80000000, 0x12CC8641, false, .none⟩,
  ⟨0x40A00500, [], 64, 0, 0, 0, 0, 0, 0, false, .none⟩,
  ⟨0x40A00508, [], 64, 0, 0, 0, 0, 0, 0, false, .none⟩,
  ⟨0x40A00510, [], 64, 0, 0, 0, 0, 0, 0, false, .none⟩]

/-- Part 13 of the register table. -/
def regTable13 : List RegRow := [
  ⟨0x40A00518, [], 64, 0, 0, 0, 0, 0, 0, false, .none⟩,
  ⟨0x40B00000, [], 64, 0, 0, 0, 0, 0xFF000080, 0, false, .none⟩,
  ⟨0x40B00020, [(0x8, 4)], 64, 0, 0, 0, 0, 0, 0, false, .none⟩,
  ⟨0x40B00040, [(0x8, 4)], 64, 0, 0, 0, 0, 0, 0, false, .none⟩,
  ⟨0x40B00060, [], 32, 0, 0, 0, 7, 0xFFFFFFF8, 0, false, .none⟩,
  ⟨0x40B00100, [(0x20, 7)], 64, 0xFFFFF07, 0, 0, 0, 0xF00000F8, 5, false, .none⟩,
  ⟨0x40B00108, [(0x20, 7)], 64, 0, 0, 0, 0, 0, 0, false, .none⟩,
  ⟨0x40B00110, [(0x20, 7)], 64, 0, 0, 0, 0, 0, 0, false, .none⟩,
  ⟨0x40B00118, [(0x20, 7)], 64, 0, 0, 0, 0, 0, 0, false, .none⟩,
  ⟨0x40B001F0, [], 64, 0, 0, 0, 0, 0, 0, false, .none⟩,
  ⟨0x40B001F8, [], 64, 0xFFFFFFFFFFFFFFFF, 0, 0, 0, 0, 0, false, .none⟩,
  ⟨0x40B00200, [], 64, 0xFFFFFFFFFFFFFFFF, 0, 0, 0, 0, 0, false, .none⟩,
  ⟨0x40B01000, [(0x400, 7), (0x10, 32), (0x8, 2)], 64, 0, 0, 0, 0, 0, 0, false, .none⟩,
  ⟨0x40C00000, [(0x4, 12)], 32, 0xFFFFFFFF, 0, 0, 0, 0, 0x88888888, false, .none⟩,
  ⟨0x40C00040, [], 32, 0x1FFF, 0, 0, 0, 0xFFFFE000, 0x400, false, .none⟩,
  ⟨0x40C00100, [], 64, 0, 0, 0, 0, 0, 0, false, .none⟩]

/-- Part 14 of the register table. -/
def regTable14 : List RegRow := [
  ⟨0x40C00108, [], 32, 0, 0x40, 0, 0, 0xFF000080, 0, false, .none⟩,
  ⟨0x40C00110, [], 64, 0, 0, 0, 0, 0, 0, false, .none⟩,
  ⟨0x40D00000, [(0x8000, 20)], 32, 0x3FFFFF7F, 0, 0, 0, 0xC0000080, 0x25800010, false, .none⟩,
  ⟨0x40D00004, [(0x8000, 20)], 32, 0, 0, 0, 0, 0xFFF00000, 0, false, .none⟩,
  ⟨0x40D00008, [(0x8000, 20)], 32, 0x1FFF, 0, 0, 0, 0xFFFFE000, 0xC64, false, .none⟩,
  ⟨0x40D00010, [(0x8000, 20)], 64, 0xFFFFFFFFFFFFFFFF, 0, 0, 0, 0, 0, false, .none⟩,
  ⟨0x40D00018, [(0x8000, 20)], 64, 0xFFFFFFFF, 0, 0, 0, 0xFFFFFFFF00000000, 0, false, .none⟩,
  ⟨0x40D00100, [(0x8000, 20)], 64, 0, 0, 0, 0, 0, 0, false, .none⟩,
  ⟨0x40D00108, [(0x8000, 20)], 64, 0, 0, 0, 0, 0, 0, false, .none⟩,
  ⟨0x40D00110, [(0x8000, 20)], 64, 0, 0, 0, 0, 0, 0, false, .none⟩,
  ⟨0x40D00118, [(0x8000, 20)], 64, 0, 0, 0, 0, 0, 0, false, .none⟩,
  ⟨0x40D00120, [(0x8000, 20)], 64, 0, 0, 0, 0, 0, 0, false, .none⟩,
  ⟨0x40D00128, [(0x8000, 20)], 64, 0, 0, 0, 0, 0, 0, false, .none⟩,
  ⟨0x40D00130, [(0x8000, 20)], 64, 0, 0, 0, 0, 0, 0, false, .none⟩,
  ⟨0x40D00138, [(0x8000, 20)], 64, 0, 0, 0, 0, 0, 0, false, .none⟩,
  ⟨0x40D00140, [(0x8000, 20)], 64, 0, 0, 0, 0, 0, 0, false, .none⟩]

/-- Part 15 of the register table. -/
def regTable15 : List RegRow := [
  ⟨0x40D00148, [(0x8000, 20)], 64, 0, 0, 0, 0, 0, 0, false, .none⟩,
  ⟨0x40D00150, [(0x8000, 20)], 64, 0, 0, 0, 0, 0, 0, false, .none⟩,
  ⟨0x40E00000, [], 32, 0xFFFF001F, 0, 0, 0, 0xFFE0, 0, false, .none⟩,
  ⟨0x40E00008, [], 64, 0, 0, 0, 0, 0xFF000000, 0, false, .none⟩,
  ⟨0x40E00100, [], 64, 0, 0, 0, 0, 0, 0, false, .none⟩,
  ⟨0x40E00108, [], 64, 0, 0, 0, 0, 0, 0, false, .none⟩,
  ⟨0x40E00110, [], 64, 0, 0, 0, 0, 0, 0, false, .none⟩,
  ⟨0x40E00118, [], 64, 0, 0, 0, 0, 0, 0, false, .none⟩,
  ⟨0x40F00000, [(0x10000, 4)], 32, 0x3FFFF0C, 0, 0, 3, 0xFC0000F0, 0, false, .none⟩,
  ⟨0x40F00004, [(0x10000, 4)], 32, 0, 0x30, 0, 0, 0xF0000200, 0, false, .none⟩,
  ⟨0x40F00010, [(0x10000, 4)], 64, 0xFFFFFF800003, 0, 0, 0, 0xFFFF0000007FFFFC, 0, false, .core⟩,
  ⟨0x40F00018, [(0x10000, 4)], 64, 0xFFFFFF800003, 0, 0, 0, 0xFFFF0000007FFFFC, 0, false, .core⟩,
  ⟨0x40F00020, [(0x10000, 4)], 32, 0x3FFF, 0, 0, 0x80000000, 0x7FFFC000, 0x3E8, false, .core⟩,
  ⟨0x40F00028, [(0x10000, 4)], 64, 0, 0, 0, 0, 0, 0, false, .none⟩,
  ⟨0x40F00030, [(0x10000, 4)], 64, 0x8000FFFFFFFFFFFF, 0, 0, 0, 0, 0, false, .core⟩,
  ⟨0x40F00100, [(0x10000, 4), (0x4, 48)], 32, 3, 0, 8, 0, 0xFFFFFFF0, 0, false, .core⟩]

/-- Part 16 of the register table. -/
def regTable16 : List RegRow := [
  ⟨0x40F40000, [], 32, 0xFF, 0, 0, 0, 0xFFFFFF00, 0xE4, false, .none⟩,
  ⟨0x1000000000000, [(0x1000, 4)], 32, 0, 0, 0, 0, 0, 0, false, .none⟩,
  ⟨0x1000000000004, [(0x1000, 4)], 32, 0, 0, 0, 0, 0, 0, false, .none⟩,
  ⟨0x1000000000008, [(0x1000, 4)], 32, 0, 0, 0xFF, 0, 0, 0, false, .none⟩,
  ⟨0x100000000000C, [(0x1000, 4)], 32, 0, 0xFF, 0, 0, 0, 0, false, .none⟩,
  ⟨0x1000000000010, [(0x1000, 4)], 32, 3, 0, 0, 0, 0, 0, false, .none⟩,
  ⟨0x1000000000014, [(0x1000, 4)], 32, 0, 0, 0, 0, 0, 0, false, .none⟩,
  ⟨0x1000000000100, [(0x1000, 4), (0x4, 128)], 32, 0xFFFFFFFF, 0, 0, 0, 0, 0, false, .none⟩,
  ⟨0x1000100000020, [(0x4, 16)], 32, 0xFFFFFFFF, 0, 0, 0, 0, 0, false, .none⟩,
  ⟨0x1000100000060, [(0x4, 16)], 32, 0, 0, 0, 0, 0, 0, false, .none⟩,
  ⟨0x10001000000A0, [], 32, 0, 0, 1, 0, 0, 0, false, .none⟩,
  ⟨0x1000200000004, [], 32, 0x163, 0, 4, 0x98, 0xFFFFFE00, 0x20, true, .none⟩,
  ⟨0x1000200000008, [], 32, 0, 0x480, 0, 0, 0xFFFFF000, 0, true, .none⟩,
  ⟨0x1000200000010, [(0x4, 2)], 32, 0xFFFFFFFF, 0, 0, 0, 0, 0, true, .none⟩,
  ⟨0x1000200001000, [(0x100, 4), (0x8, 4)], 32, 0xFFFFFFFF, 0, 0, 0, 0, 0, true, .none⟩,
  ⟨0x1000200002000, [(0x100, 4), (0x10, 2), (0x4, 4)], 32, 0xFFFFFFFF, 0, 0, 0, 0, 0, true, .none⟩]

/-- Every register the chapters list, in parts by address: the first and the end of the addresses of each part. -/
def regTables : List (Nat × Nat × List RegRow) := [
  (0x40000000, 0x40080019, regTable0),
  (0x40080020, 0x400837FD, regTable1),
  (0x40084000, 0x401001F1, regTable2),
  (0x40100118, 0x40200001, regTable3),
  (0x40200008, 0x4034F051, regTable4),
  (0x40300058, 0x4034F101, regTable5),
  (0x40300108, 0x4042FFE1, regTable6),
  (0x40410028, 0x40500331, regTable7),
  (0x40500338, 0x40500479, regTable8),
  (0x40500480, 0x40600129, regTable9),
  (0x40600130, 0x40700821, regTable10),
  (0x40700840, 0x40900711, regTable11),
  (0x40900018, 0x40A00511, regTable12),
  (0x40A00518, 0x40C00101, regTable13),
  (0x40C00108, 0x40D98141, regTable14),
  (0x40D00148, 0x40F301BD, regTable15),
  (0x40F40000, 0x100020000231D, regTable16)]

/-- Whether offset `r` from a row's base falls on one of its registers. -/
def onStrides : List (Nat × Nat) → Nat → Bool
  | [], r => Nat.beq r 0
  | (st, c) :: ds, r => and (Nat.blt (r / st) c) (onStrides ds (r % st))

/-- The row of a part that covers an address. -/
def findRow (a : Nat) : List RegRow → Option RegRow
  | [] => none
  | r :: rs => if and (Nat.ble r.base a) (onStrides r.dims (a - r.base)) then some r else findRow a rs

/-- The row that covers a register address. -/
def regRow (a : Nat) : Option RegRow :=
  regTables.findSome? fun p => if and (Nat.ble p.1 a) (Nat.blt a p.2.1) then findRow a p.2.2 else none

/-- The reset value of the register at an address (the Reset column of its chapter; zero where nothing is listed).
Tables 13.1 and 13.3 give EC_CTRL by class, R123 the role and position of each tile, Table 10.1 and R307 the cores. -/
def regReset (a : Nat) : Word64 :=
  match regRow a with
  | none => 0
  | some r =>
    if r.base = XC_TSTAT 0 then
      let t := (a - XC_TSTAT 0) / 4
      if t < 64 then putF XC_TSTAT_POS t 0 else putF XC_TSTAT_ROLE 1 0
    else if r.base = CR_STAT 0 then putF CR_STAT_LOGICAL ((a - CR_STAT 0) / 0x10000) (BitVec.ofNat 64 r.reset)
    else if a = CR_CTRL 0 then putF CR_CTRL_FETCH_SYS 1 (BitVec.ofNat 64 r.reset)
    else if r.base = EC_CTRL 0 then
      let k := (a - EC_CTRL 0) / 0x20
      let per := if k = 0 then 3600 else if k < 5 then 60 else 86400
      let sp := [0, 16, 48, 136, 16, 0xFFFF, 0xFFFF].getD k 0
      putF EC_CTRL_PERIOD_S per (putF EC_CTRL_SPARES_LEFT sp (BitVec.ofNat 64 r.reset))
    else BitVec.ofNat 64 r.reset

end Sys2Proof.Machine
end

