-- ==== Sys2Proof/Machine/State.lean ====
section
/-!
DEFINITION. The state of the AQ4096 as plain data: every register, queue, table, memory and mode the manual gives it,
the commands that wait, and the machine right after power-on reset. Registers stand in one table by address
(Machine/Regs.lean names them); what the chapters describe without an address stands in the structures below.
-/
namespace Sys2Proof.Machine

/-- What kind of thing the device gave to the world outside it. -/
inductive OutKind where
  | msix | packet | frame | bulk | pin | ptp | smbus | spi | hostWrite | lease | trigger | dc512 | pmbus | tdo
  deriving DecidableEq, Repr

/-- One thing the device gave out: its kind, the unit that gave it (vector, port, lane, pin) and its contents. -/
structure Out where
  kind : OutKind
  unit : Nat
  data : List Nat
  deriving DecidableEq, Repr

/-- How an access was answered (R343, R358, R374). -/
inductive RspKind where
  | none | ok | error | unsupported | abort
  deriving DecidableEq, Repr

/-- The answer to the last access of a master: its kind, the bytes read and whether they are poisoned. -/
structure Rsp where
  kind : RspKind := .none
  data : List Nat := []
  poison : Bool := false
  deriving DecidableEq, Repr

/-- The PCIe endpoint and the management ports beyond their registers (chapter 12). -/
structure HostIf where
  /-- Slots handed to firmware, oldest doorbell first: 0 to 31 PCIe, 32 SMBus, 64 + 8·p + s personality p slot s (R366). -/
  fwq : List Nat := []
  msixEn : Bool := false
  /-- One bit a vector: masked in the MSI-X table (R376). -/
  msixMask : Nat := 0xFF
  /-- One bit a vector: the pending-bit array (R376). -/
  msixPend : Nat := 0
  /-- One bit a vector: inside the INT_MOD spacing after a message (R376). -/
  spacing : Nat := 0
  /-- One bit a vector: a cause arose within the spacing, or in D3hot or with the link down (R359, R376). -/
  waiting : Nat := 0
  d3hot : Bool := false
  linkUp : Bool := false
  busMaster : Bool := false
  /-- The answer of the last host or matrix access. -/
  rsp : Rsp := {}
  /-- A SYS_RESET slot was released and its 10 ms run (R380). -/
  sysReset : Bool := false
  /-- SMBus writes discarded for a wrong PEC (R377). -/
  pecErr : Nat := 0
  /-- SMB_ALERT_N is asserted (R487). -/
  smbAlert : Bool := false
  smbTimeouts : Nat := 0
  spiTimeouts : Nat := 0
  deriving DecidableEq, Repr

/-- What a job keeps beside its status word (R369 to R372): the parameter words of its command, its result area, the
flags of its command, its unit, the orders of acceptance and end, and a running tally for jobs that end in steps. -/
structure Job where
  gen : Nat := 0
  params : List Nat := []
  /-- Which of the sixteen 64 MiB areas of the job result pool it holds (R371). -/
  area : Option Nat := none
  /-- The unit it holds or waits for (R370). -/
  unit : Nat := 0
  acceptOrder : Nat := 0
  endOrder : Nat := 0
  /-- Bytes valid in its result. -/
  bytes : Nat := 0
  tally : Nat := 0
  clear : Bool := false
  force : Bool := false
  deriving DecidableEq, Repr

/-- One ERRC entry (Table 13.4). -/
structure ErrEntry where
  code : Nat
  sev : Nat
  inst : Nat
  seq : Nat
  timeS : Nat
  timeNs : Nat
  addr : Nat
  info : Nat
  deriving DecidableEq, Repr

/-- One write queued in a check-value unit (R398): a byte, half-word or word feed. -/
inductive Feed where
  | b (v : Nat) | h (v : Nat) | w (v : Nat)
  deriving DecidableEq, Repr

/-- A check-value unit beyond its registers: the CRC register, the feed queue, and the first-byte state (R399). -/
structure Cvu where
  reg : Nat := 0
  queue : List Feed := []
  first : Bool := true
  deriving DecidableEq, Repr

/-- The descriptor a DMA channel works on (Table 11.5) and its end-check state (R353). -/
structure DmaCh where
  src : Nat := 0
  dst : Nat := 0
  len : Nat := 0
  irq : Bool := false
  srcSg : Bool := false
  dstSg : Bool := false
  tag : Nat := 0
  nxt : Nat := 0
  fin : Bool := false
  /-- A fetched descriptor's copy is under way. -/
  copying : Bool := false
  /-- A descriptor with END completed and its end check is in flight (R353). -/
  endCheck : Bool := false
  /-- A RESUME held until the end check has resolved (R353). -/
  heldResume : Bool := false
  deriving DecidableEq, Repr

/-- The lease identity section (R463, R429). -/
structure LeaseId where
  twin : Bool := false
  pairId : Nat := 0
  node : Nat := 0
  gateAsl : Bool := false
  mac : Nat := 0
  portMask : Nat := 0
  /-- Per port in the mask: IPv4 and IPv6 service address. -/
  svc : List (Nat × Nat) := []
  deriving DecidableEq, Repr

/-- The spare map (Table 16.7): tiles' roles and positions, CR_MAP, failed lanes, sensors on their reserve, repairs. -/
structure SpareMap where
  /-- XC_TSTAT role and position of each tile that departs from its reset value. -/
  tiles : Tbl Nat := []
  crMap : Nat := 0xE4
  /-- The core in reserve, logical core 3, is retired. -/
  resRetired : Bool := false
  lanes : List Nat := []
  sensors : List Nat := []
  /-- Memory repairs: class and address. -/
  repairs : List (Nat × Nat) := []
  deriving DecidableEq, Repr

/-- One second's, hour's or day's record of the holdover history (R288, R291): offset in units of 10^-16, temperature in
0.01 °C, and the time of day in seconds. -/
structure HistRec where
  t : Nat
  off : Int
  temp : Int
  deriving DecidableEq, Repr

/-- The holdover history and model (R288 to R292). -/
structure History where
  secs : List HistRec := []
  hours : List HistRec := []
  days : List HistRec := []
  a : Int := 0
  b : Int := 0
  c : Int := 0
  ts : Nat := 0
  modelValid : Bool := false
  /-- The temperature table of TIM_XO: temperature and offset. -/
  tempTab : List (Int × Int) := []
  xoId : Nat := 0
  deriving DecidableEq, Repr

/-- The wear data section (R425): margins' records and fits, set point, ordering violations, availability. -/
structure Wear where
  /-- Daily margin records: unit, day and margin referred to 0.85 V and the unit's mean temperature, in 0.01 %. -/
  margins : List (Nat × Nat × Int) := []
  setPoint : Nat := 800
  seqViol : Nat := 0
  /-- Availability buckets, 365 days: scheduled and delivered batches, newest first. -/
  avail : List (Nat × Nat) := []
  deriving DecidableEq, Repr

/-- The whole retained state of one slot (Table 16.7). -/
structure Retained where
  lease : LeaseId := {}
  spare : SpareMap := {}
  /-- Profile records: opcode and parameter words, stored order (R471). -/
  profile : List (Nat × List Nat) := []
  hist : History := {}
  wear : Wear := {}
  /-- Sensor offsets by sensor, in 0.01 °C, and the thermal history (R403). -/
  offsets : Tbl Int := []
  thermHist : List (Nat × Int) := []
  /-- The error log, oldest first, at most 512 entries. -/
  errLog : List ErrEntry := []
  deriving DecidableEq, Repr

/-- A retained slot of the flash (R463, R464): erased, unreadable as a valid slot, or valid with its generation. -/
inductive RSlot where
  | blank
  | bad
  | ok (gen : Nat) (commits : Nat) (img : Retained)
  deriving DecidableEq, Repr

/-- What the commit engine is doing (SC_RS_STAT.ENGINE). -/
inductive Engine where
  | idle | programming | verifying | erasing
  deriving DecidableEq, Repr

/-- The commit engine in the VDD_AUX domain, its buffer, and the flash behind it (R462 to R470). -/
structure Flash where
  slot0 : RSlot := .blank
  slot1 : RSlot := .blank
  /-- The selected slot: false slot 0, true slot 1. -/
  sel : Bool := false
  /-- A slot is selected at all (R465). -/
  selValid : Bool := false
  engine : Engine := .idle
  /-- The commit buffer: the generation and state being written. -/
  bufGen : Nat := 0
  bufCommits : Nat := 0
  buf : Retained := {}
  /-- Image slots A and B: the header and body bytes (R460). -/
  imgA : List Nat := []
  imgB : List Nat := []
  deriving DecidableEq, Repr

/-- Why a commit was asked for: R469 exempts some from the budget. -/
inductive CommitWhy where
  | user | spare | mode | pers | image | factory | thermal | history | profile | lease
  deriving DecidableEq, Repr

/-- A commit asked for: why, the job that waits for it, and whether its hold-up check has run. -/
structure CommitReq where
  why : CommitWhy
  job : Option Nat
  checked : Bool
  deriving DecidableEq, Repr

/-- Firmware's side of the commits (R467 to R469) and of start-up. -/
structure Power where
  reqs : List CommitReq := []
  /-- The requests the running commit serves. -/
  running : List CommitReq := []
  /-- Times, in nanoseconds of `now`, of the commits of the last 24 h. -/
  commitTimes : List Nat := []
  huAt : Option Nat := none
  /-- VDD_AUX is present. -/
  auxOn : Bool := true
  /-- The device is held in device reset. -/
  inReset : Bool := false
  /-- Causes present during the reset, as SC_RSTCAUSE bits. -/
  causes : Nat := 0
  recovery : Bool := false
  /-- PMBus address of the VDD_CORE regulator in force (R451), and the SMB_ADDR straps as sampled (R484). -/
  pmbAddr : Nat := 0x40
  smbAddr : Nat := 0
  /-- The copy of the shutdown entry in the VDD_AUX domain (R407). -/
  auxShut : Option ErrEntry := none
  /-- When a commit of the timing history last returned HOLDUP_LOW (R292). -/
  histLow : Option Nat := none
  /-- Firmware reports DEGRADED in place of READY. -/
  degraded : Bool := false
  /-- When the watchdog of logical core 0 expired, a reset being due (R457). -/
  wdogDue : Option Nat := none
  /-- Last results of the self-tests by 256 · test + unit: result, time of day in seconds and signature (R518). -/
  selftests : Tbl (Option (Nat × Nat × Nat)) := []
  deriving DecidableEq, Repr

/-- One track of a continuity table (R62): its shape and the last NUM. -/
structure Track where
  i0 : Nat
  logNi : Nat
  c0 : Nat
  logNc : Nat
  num : Nat
  deriving DecidableEq, Repr

/-- An ASL frame in a sender: the header fields that its maker gives, and its payload (Table 2.3). -/
structure TxFrame where
  type : Nat
  num : Nat := 0
  link : Nat := 0
  i0 : Nat := 0
  logNi : Nat := 0
  c0 : Nat := 0
  logNc : Nat := 0
  logNs : Nat := 0
  fmt : Nat := 0
  missing : Bool := false
  bulkCh : Nat := 0
  payload : List Nat := []
  deriving DecidableEq, Repr

/-- A lane beyond its registers. -/
structure Lane where
  /-- Tracks, most recently seen first, at most 64 (R62). -/
  tracks : List Track := []
  /-- Nanosecond of entry to the receiver state (R53). -/
  entered : Nat := 0
  /-- Adapted equaliser values are held (R81). -/
  adapted : Bool := false
  /-- The signal detector shows a signal (R412). -/
  signal : Bool := false
  /-- An exit from LOWPOWER asked for and not yet at UP: when, and its job. -/
  exitAt : Option Nat := none
  exitJob : Option Nat := none
  /-- Times of the returns to CDR in the last 60 s (R412). -/
  retrains : List Nat := []
  /-- When it last left UP (R412). -/
  lostAt : Option Nat := none
  /-- Failed in receive or transmit (R412). -/
  rxFailed : Bool := false
  txFailed : Bool := false
  /-- The transmitter is in electrical idle (R69, R80). -/
  txIdle : Bool := false
  /-- Error injection armed: 0 none, 1 PRBS bit, 2 FEC symbols, 3 HCRC, 4 PCRC; and its symbols (R79). -/
  inj : Nat := 0
  injSyms : Nat := 0
  /-- Frames waiting for a slot of this transmitter. -/
  txq : List TxFrame := []
  deriving DecidableEq, Repr

/-- What a lane of an N+1 group delivered in a frame slot: which check it failed (0 none, 1 to 3), header, payload. -/
structure SlotFrame where
  slot : Nat
  pos : Nat
  lane : Nat
  check : Nat
  header : Nat
  payload : List Nat
  deriving DecidableEq, Repr

/-- An N+1 group (R67 to R69): receive or transmit side, its data lanes by position and its parity lane. -/
structure LGroup where
  id : Nat
  tx : Bool
  data : List Nat
  parity : Nat
  /-- A tuckpointing asked for: position and SPN; and the position moved to the parity lane. -/
  tuck : Option (Nat × Nat) := none
  moved : Option Nat := none
  /-- Skew beyond the deskew limit (R68). -/
  skew : Bool := false
  newest : Nat := 0
  slots : List SlotFrame := []
  deriving DecidableEq, Repr

/-- The bulk class of a link (R65, R66): frames received, credits granted, frames sent, the last CR_GRANT received, and
whether an audit point has passed. -/
structure Bulk where
  rx : Nat := 0
  grant : Nat := 64
  sent : Nat := 0
  credit : Nat := 0
  audit : Bool := false
  /-- Waiting bulk frames: channel and payload. -/
  queue : List (Nat × List Nat) := []
  /-- Received frames that hold buffers. -/
  held : List (Nat × List Nat) := []
  deriving DecidableEq, Repr

/-- A JESD204C link (R70 to R74). -/
structure Jesd where
  lanes : List Nat := []
  subclass : Nat := 0
  m : Nat := 1
  n : Nat := 16
  np : Nat := 16
  s : Nat := 1
  cs : Nat := 0
  e : Nat := 1
  rbd : Nat := 0
  internal : Bool := false
  cont : Bool := false
  /-- When it was armed, its job, the last accepted edge, and whether it is aligned. -/
  armed : Option Nat := none
  armJob : Option Nat := none
  lastEdge : Option Nat := none
  aligned : Bool := false
  /-- How far, in unit intervals, the last accepted edge lay past an extended-multiblock boundary (R73). -/
  phase : Nat := 0
  misalign : Bool := false
  /-- A fault marks the link's inputs missing from this SN until realignment (R74). -/
  fault : Bool := false
  deriving DecidableEq, Repr

/-- One signal input of a front configuration (Table 3.8). -/
structure FInput where
  q : Nat
  sng : Nat
  rqShift : Nat
  kind : Nat
  srcId : Nat
  link : Nat
  bits : Nat
  deriving DecidableEq, Repr

/-- A delay and phase model segment (Table 3.6): binary64 coefficients, Q0.64 turns. -/
structure Seg where
  input : Nat
  s0 : Nat
  len : Nat
  c : List Nat
  p : List Nat
  psi : Nat
  deriving DecidableEq, Repr

/-- A route of the front (R116): ranges, destination (0 ASL link, 1 ACP stream, 2 local alignment) and frame shape. -/
structure FRoute where
  iLo : Nat
  iHi : Nat
  cLo : Nat
  cHi : Nat
  kind : Nat
  lanes : List Nat
  link : Nat
  stream : Nat
  logNi : Nat
  logNc : Nat
  logNs : Nat
  /-- ROUTE_DROP, whether a TX lane is lost, and first inputs and channels of tracks whose next frame carries MISSING. -/
  drops : Nat := 0
  lost : Bool := false
  miss : List (Nat × Nat) := []
  deriving DecidableEq, Repr

/-- The front beyond its registers (chapter 3). Tables by input and number use the key number · 2048 + input. -/
structure Front where
  conf : Bool := false
  inputs : List FInput := []
  tauMax : Nat := 0
  running : Bool := false
  startAt : Option Nat := none
  stopAt : Option Nat := none
  /-- The next knot's output SN, and the next spectrum by number, by input. -/
  knotAt : Nat := 0
  spn : Nat := 0
  act : Tbl (Option Seg) := []
  /-- Segments that have been active, newest first, by input: the phase of a spectrum comes from the one that covers its stamp. -/
  past : Tbl (List Seg) := []
  pend : Tbl (Option Seg) := []
  /-- Input samples by SN · 2048 + input: 1 + real part + 2^16 · imaginary part of the left-justified value (R89) + 2^32 when
  the converter flagged over-range (R71). -/
  samples : Tbl Nat := []
  /-- Flags of groups of 16 by (SN / 16) · 2048 + input: bit 0 past its deadline, bit 1 MISSING, bit 2 BLANKED (R90). -/
  groups : Tbl Nat := []
  /-- Delay at the next knot by the active segment, in 2^-40 samples, and whether it was clamped; by input. -/
  tau : Tbl (Option (Nat × Bool)) := []
  /-- Interpolated outputs by output SN · 2048 + input: real, imaginary, flags (bit 0 MISSING, bit 1 BLANKED). -/
  y : Tbl (Int × Int × Nat) := []
  /-- Interpolator bank by 16 · phase + tap, and filterbank window (R97, R100). -/
  bank : Tbl Int := []
  window : Tbl Int := []
  /-- Gain buffers by input · 16384 + entry, real and imaginary Q5.12 (R108, R109). -/
  gainA : Tbl (Int × Int) := []
  gainB : Tbl (Int × Int) := []
  gainSwap : Option Nat := none
  /-- Detector parameters (DETECT_SET). -/
  eTh : Nat := 0xFFFFFFFF
  evtHold : Nat := 0
  mP : Nat := 256
  mK : Nat := 16
  skLo : Nat := 0
  skHi : Nat := 0x7F800000
  /-- Envelope by input; the running event's first and last sample above threshold (R110). -/
  env : Tbl Nat := []
  evt : Tbl (Option (Nat × Nat)) := []
  /-- The SN of the next sample the time-domain detectors take, by input. -/
  detAt : Tbl Nat := []
  /-- Largest squared magnitude, over-range count, sum of squares and count, by interval · 2048 + input. -/
  stat : Tbl (Nat × Nat × Nat × Nat) := []
  /-- Channel power sum and count, by (interval · 16384 + channel) · 2048 + input. -/
  power : Tbl (Nat × Nat) := []
  /-- Kurtosis sums S1, S2 (binary64 patterns) and M, by (block · 16384 + channel) · 2048 + input. -/
  sk : Tbl (Nat × Nat × Nat) := []
  /-- Requantised output held for kurtosis or for a frame: by (SPN · 16384 + channel) · 2048 + input, code plus one. -/
  held : Tbl Nat := []
  /-- The next spectrum to be released from the hold (R113). -/
  released : Nat := 0
  /-- Result rings, newest first: kind (0 peak and RMS, 1 channel power), input, channel, interval start, values. -/
  results : List (Nat × Nat × Nat × Nat × List Nat) := []
  /-- The event ring, newest first: input, first and last sample. -/
  events : List (Nat × Nat × Nat) := []
  route : List FRoute := []
  /-- Inputs whose source clock is faulted (R118), by SNG bit. -/
  clkFault : Nat := 0
  /-- R48 traffic in bytes per second, and HBM bytes, of the configuration in force. -/
  demand : Nat := 0
  hbm : Nat := 0
  deriving DecidableEq, Repr

/-- The parameters of a run and its plan (Tables 5.11 and 4.10). -/
structure RunPar where
  n : Nat := 0
  c8 : Bool := false
  nch : Nat := 1
  chBase : Nat := 0
  t : Nat := 256
  w : Nat := 256
  dfmt : Nat := 0
  pktLog2 : Nat := 9
  s0 : Nat := 0
  /-- Spectrum period in units of 2^-16 ps. -/
  period : Nat := 1
  epochS : Nat := 0
  epochNs : Nat := 0
  k : Nat := 1
  c : Nat := 1
  cLast : Nat := 1
  deriving DecidableEq, Repr

/-- One record of a context: the conjugate product sums of a cell, its weight, the guard bits and the poison mark
(R123 to R128). -/
structure Rec where
  re : Int := 0
  im : Int := 0
  w : Nat := 0
  gRe : Bool := false
  gIm : Bool := false
  psn : Bool := false
  /-- The component has been written in the scorch log. -/
  lRe : Bool := false
  lIm : Bool := false
  deriving DecidableEq, Repr

/-- A context: the bond-table entry of its item, batch, pass, courses multiplied, scorched components, scorch log and
records by cell (Table 4.1). -/
structure Ctx where
  item : Nat := 0
  batch : Nat := 0
  pass : Nat := 0
  courses : Nat := 0
  scorched : Nat := 0
  log : List Nat := []
  recs : Tbl Rec := []
  deriving DecidableEq, Repr

/-- A context saved to a mortar queue, with the place it has in the order of release (R159). -/
structure Saved where
  batch : Nat
  chunk : Nat
  pass : Nat
  pos : Nat
  slot : Nat
  tile : Nat
  ctx : Ctx
  deriving DecidableEq, Repr

/-- A long accumulator: binary32 pairs of both components, and the weight (R161, R165). -/
structure LongAcc where
  reHi : Nat := 0
  reLo : Nat := 0
  imHi : Nat := 0
  imLo : Nat := 0
  w : Nat := 0
  /-- |v| has reached 2^47 in a component (R163). -/
  inexact : Bool := false
  deriving DecidableEq, Repr

/-- The four accounting counts of an input and channel (Table 1.3). -/
structure Acct where
  received : Nat := 0
  substituted : Nat := 0
  correlated : Nat := 0
  skipped : Nat := 0
  deriving DecidableEq, Repr

/-- An integration: its DUMP_ID, first batch, the batch after its last, and what its dump will say (R157, R158). -/
structure Integ where
  id : Nat
  start : Nat
  stop : Nat
  early : Bool := false
  holdover : Bool := false
  /-- Its first chunk has been promoted; its first closing chunk has been written. -/
  opened : Bool := false
  closing : Bool := false
  deriving DecidableEq, Repr

/-- A DUMP_NOW or RUN_STOP barrier that waits: which of the two, its batch boundary and its job. -/
structure Barrier where
  stop : Bool
  batch : Nat
  job : Nat
  deriving DecidableEq, Repr

/-- A peek that waits (Table 5.12). -/
structure Peek where
  spn : Nat
  chFirst : Nat
  chCount : Nat
  dest : Nat
  dfmt : Nat
  job : Nat
  stall0 : Nat := 0
  cut0 : Nat := 0
  deriving DecidableEq, Repr

/-- What a dump sends on one stream: the stream, its channel ranges in ascending order, its rate, the first sequence number
of the dump on it, and how many planned packets have been sent or abandoned (R169, R176). -/
structure DumpLine where
  stream : Nat
  rate : Nat
  ranges : List (Nat × Nat)
  base : Nat
  sent : Nat := 0
  deriving DecidableEq, Repr

/-- A closed dump and how far the dump reader is (R167 to R169). -/
structure Dump where
  id : Nat
  start : Nat
  stop : Nat
  par : RunPar
  early : Bool
  holdover : Bool
  image : Nat
  acctFail : Bool := false
  /-- The reader has started on it (R168). -/
  started : Bool := false
  /-- What it sends, fixed when it closes from the route table then in force (R181). -/
  lines : List DumpLine := []
  /-- Some of its packets were abandoned (R169). -/
  lost : Bool := false
  /-- Its dump digest has been computed (R177). -/
  digest : Option Nat := none
  /-- The end of this dump ends these jobs, with their barrier SPN (DUMP_NOW, RUN_STOP). -/
  jobs : List Nat := []
  deriving DecidableEq, Repr

/-- The correlator run: batches, staging, tiles, promotion, integrations and dumps. -/
structure Run where
  active : Bool := false
  par : RunPar := {}
  /-- How many batches have closed: batch `closed` is the next to close (R29). -/
  closed : Nat := 0
  /-- Spectra after S0 that staging has released (R32). -/
  released : Nat := 0
  /-- Slots of the batch ring by ((spectrum · Nch + channel) · 4096 + input): 0 empty, code + 1, 70000 poisoned (R31). -/
  ring : Tbl Nat := []
  /-- Received slots by (((batch · 2 + side of the barrier) · Nch + channel) · 4096 + input) (R174). -/
  recv : Tbl Nat := []
  /-- Course sets of the batch being staged that are complete, and those dispatched (R144). -/
  staged : Nat := 0
  dispatched : Nat := 0
  /-- The course being multiplied, counted over the passes of the batch, and its slot. -/
  inSlot : Option Nat := none
  slot : Nat := 0
  /-- A course slot of this dispatch was already counted as held for staging (R144). -/
  lateNoted : Bool := false
  pause : Nat := 0
  plane : Tbl Ctx := []
  shadow : Tbl Ctx := []
  /-- Context stores by 12 · tile + slot (R132). -/
  store : Tbl Ctx := []
  mortar : List Saved := []
  /-- Contexts released and not yet promoted. -/
  promq : List Saved := []
  /-- The batch, chunk and pass whose contexts are being released, and how many of them have been (R159). -/
  relBatch : Nat := 0
  relChunk : Nat := 0
  relPass : Nat := 0
  relDone : Nat := 0
  /-- The inner barrier of a batch, as course + 1 (R172). -/
  inner : Tbl Nat := []
  /-- Long accumulators by channel · N(N+1)/2 + product. -/
  acc : Tbl LongAcc := []
  /-- Dump images by (image · Nch · N(N+1)/2 + channel · N(N+1)/2 + product). -/
  image : Tbl LongAcc := []
  /-- Item flag table by (integration mod 4) · 2^20 + item (R166). -/
  flags : Tbl Bool := []
  /-- Correlated and skipped slots of every input of a channel, by (batch · 2 + side of the barrier) · Nch + channel
  (R174). -/
  corr : Tbl Nat := []
  skip : Tbl Nat := []
  /-- The items of a batch's bond table in order of position and slot, with their channel field. -/
  layout : Tbl (List (Nat × Nat × Nat)) := []
  nint : Nat := 1
  /-- A pending INTEG_SET: the new NINT and the batch of its boundary X (R158). -/
  pendNint : Option (Nat × Nat) := none
  integs : List Integ := []
  barriers : List Barrier := []
  peeks : List Peek := []
  /-- The batch boundary at which the run ends. -/
  stopAt : Option Nat := none
  dumps : List Dump := []
  /-- The last sixteen dump digests, newest first. -/
  digests : List (Nat × Nat) := []
  /-- The last completed dump: DUMP_ID, digest, and its totals of skipped and substituted slots (R420). -/
  lastDump : Option (Nat × Nat × Nat × Nat) := none
  /-- Parameter words of the last RUN_START (R420). -/
  startWords : List Nat := []
  /-- DUMP_ROUTE: channel range, stream, rate in Mb/s (R181). -/
  route : List (Nat × Nat × Nat × Nat) := []
  /-- HBM regions planned: kind, address, size (R224). -/
  regions : List (Nat × Nat × Nat) := []
  /-- Reserves that have passed their self-test since boot (R147). -/
  tested : List Nat := []
  /-- Audit in this batch: position, audit tile, forced or repeat. -/
  audit : Option (Nat × Nat) := none
  auditBad : Bool := false
  auditSeen : Bool := false
  /-- A repeat audit due in the next batch: position, the reserve that audited first (R149). -/
  repeatDue : Option (Nat × Nat) := none
  /-- This batch's audit is a repeat of one by this reserve. -/
  repeating : Option Nat := none
  /-- Strikes against tiles: tile and time (R411). -/
  strikes : List (Nat × Nat) := []
  /-- Tiles that gained a strike in this batch. -/
  struck : List Nat := []
  deriving DecidableEq, Repr

/-- The timing core beyond its registers (chapter 9). Offsets of frequency are in units of 10^-16. -/
structure Tim where
  /-- Moment of the first SOFT crossing of each reference, t_s, in seconds of the time of day (R279). -/
  ts : Tbl (Option Nat) := []
  /-- The core has entered NARROW or LOCKED since boot (R286). -/
  reached : Bool := false
  /-- A change of selection was held by a switch (R282). -/
  held : Bool := false
  /-- A TIM_FORCE held by a switch: the reference, or 15 for none (R282). -/
  heldForce : Option Nat := none
  /-- Phase steps held by a switch: step in ps and whether slewed (R295). -/
  heldSteps : List (Int × Bool) := []
  /-- End of the holdover window in seconds, the mean offset and its time in seconds, and the prediction now (R289). -/
  hoEnd : Nat := 0
  hoMean : Int := 0
  hoTime : Nat := 0
  y : Int := 0
  /-- Seconds of the present holdover, and HO_LIMIT raised for it (R293). -/
  hoSecs : Nat := 0
  hoNoted : Bool := false
  /-- TIM_XO: nominal XO_IN in Hz and the external temperature source selected (R290). -/
  xoHz : Nat := 0
  xoExt : Bool := false
  /-- Least interval of a PPS level in ns, PPS_MPW (R278). -/
  ppsMpw : Nat := 1000
  /-- Last accepted edge of each PPS_IN pin on the model's clock, and its stamp in 2^-16 ns. -/
  ppsAt : Tbl (Option Nat) := []
  ppsStamp : Tbl Nat := []
  /-- Gapped SYSREF outputs: start SN and pulses left (R298). -/
  gap : Tbl (Option (Nat × Nat)) := []
  /-- Seconds LOCKED since boot, up to 60, and the sum of y over them; whether R292's comparison was made. -/
  lockSecs : Nat := 0
  lockSum : Int := 0
  xoChecked : Bool := false
  /-- Picoseconds of slewed phase step worked off, in units of 10^-9 ps (R295). -/
  slewAcc : Nat := 0
  deriving DecidableEq, Repr

/-- A BEAM_ROUTE entry (Table 6.8). -/
structure BRoute where
  type : Nat
  setFirst : Nat
  setLast : Nat
  chFirst : Nat
  chLast : Nat
  stream : Nat
  rate : Nat
  deriving DecidableEq, Repr

/-- A channel-course for the beam engine: batch, course counted over the passes, channel, and whether it was cut off. -/
structure BCourse where
  batch : Nat
  q : Nat
  ch : Nat
  cut : Bool
  deriving DecidableEq, Repr

/-- Detected integration of a channel: binary32 pairs by value, spectra used, and the flags of Table 6.4 gathered. -/
structure Det where
  hi : Tbl Nat := []
  lo : Tbl Nat := []
  used : Nat := 0
  courses : Nat := 0
  /-- Integration index. -/
  id : Nat := 0
  flags : Nat := 0
  first : Nat := 0
  deriving DecidableEq, Repr

/-- The beam engine beyond its registers (chapter 6). -/
structure Beam where
  configured : Bool := false
  n : Nat := 0
  t : Nat := 0
  nch : Nat := 0
  route : List BRoute := []
  /-- S_w of the pending swap, and of a swap done whose old buffer is still busy. -/
  swapAt : Option Nat := none
  oldUntil : Option Nat := none
  /-- Stale from this SPN on (R191). -/
  staleFrom : Option Nat := none
  /-- Channel-courses captured or cut off and not yet processed, in order. -/
  queue : List BCourse := []
  det : Tbl Det := []
  /-- Voltage packets being filled, by channel · 1024 + beam: flags and course data so far. -/
  volt : Tbl (Nat × List Nat) := []
  /-- The buffer a running BEAM_WLOAD writes, its job and bytes written. -/
  load : Option (Nat × Bool × Nat) := none
  /-- The newest batch that has put a packet into the output ring (R201). -/
  ringBatch : Nat := 0
  deriving DecidableEq, Repr

/-- A memory request waiting at a unit (R211): port rank 1 to 9, bank, row, write, and the nanoseconds since its issue. -/
structure MReq where
  port : Nat
  bank : Nat
  row : Nat
  write : Bool
  age : Nat
  deriving DecidableEq, Repr

/-- One unit's scheduler: a pseudo-channel (0 to 127) or a DDR channel (128 to 135). -/
structure MUnit where
  queue : List MReq := []
  /-- Open row by bank. -/
  openRow : Tbl (Option Nat) := []
  /-- Activate tables: bank, row, count, at most 32 entries a bank (R217). -/
  acts : List (Nat × Nat × Nat) := []
  /-- A refresh is postponed. -/
  postponed : Nat := 0
  deriving DecidableEq, Repr

/-- One channel's retraining and replay state: channels 0 to 63 HBM, 64 to 71 DDR. -/
structure MChan where
  /-- When a due pause began to wait (R219). -/
  dueAt : Option Nat := none
  /-- MEM_RETRAIN named it, or its temperature moved by more than 10 °C. -/
  forceNext : Bool := false
  lastTemp : Int := 0
  /-- The retry buffer: the last 64 commands issued, with their units (R220). -/
  retry : List (Nat × MReq) := []
  /-- The alert latency, in commands, that firmware sets at training. -/
  latency : Nat := 64
  deriving DecidableEq, Repr

/-- Memory controllers beyond their registers. -/
structure MemC where
  /-- Size of the DIMM of each DDR channel in GiB, as its serial presence data says; zero for none (R208). -/
  dimm : List Nat := []
  units : Tbl MUnit := []
  chans : Tbl MChan := []
  deriving DecidableEq, Repr

/-- An entry of the trigger log (R234): kind, St, time (seconds and nanoseconds), INPUT, CHANNEL, USER. -/
structure TrigEntry where
  kind : Nat
  st : Nat
  timeS : Nat
  timeNs : Nat
  input : Nat
  channel : Nat
  user : List Nat
  deriving DecidableEq, Repr

/-- A capture segment begun (R226): the ordinal of its first live grain, the live mask it began with, slots blanked, header
flags, and whether it is complete. -/
structure CapSeg where
  first : Nat
  mask : Nat
  blanked : Nat := 0
  flags : Nat := 0
  complete : Bool := false
  /-- Byte ranges of the payload that were dropped (R229): offset and length. -/
  drops : List (Nat × Nat) := []
  deriving DecidableEq, Repr

/-- The capture ring beyond its registers (R225 to R240). -/
structure Cap where
  sel : List (Nat × Nat × Nat × Nat) := []
  selGen : Nat := 0
  fwdKind : Nat := 0
  fwdStream : Nat := 0
  fwdLink : Nat := 0
  fwdLanes : List Nat := []
  trigSeq : Nat := 0
  /-- First segment number written since arming, and the segments begun by number. -/
  firstSeg : Option Nat := none
  segs : Tbl (Option CapSeg) := []
  /-- Ordinal of the next live grain to use. -/
  next : Nat := 0
  /-- Live channels and the epoch table: first segment, address, mask (R227). -/
  live : Nat := 0
  epochs : List (Nat × Nat × Nat) := []
  /-- Newest SPN received, plus one; zero for none. -/
  newest : Nat := 0
  freeze : Option Nat := none
  firstSt : Nat := 0
  log : List TrigEntry := []
  /-- Senders, most recently seen first: SRC_DEV and last accepted TRIG_SEQ (R233). -/
  senders : List (Nat × Nat) := []
  /-- Per TRIG_IN pin: time of the last accepted edge, and whether TRIG_TIMEOUT was raised. -/
  pins : Tbl (Option Nat × Bool) := []
  deriving DecidableEq, Repr

/-- A stream of the stream table (R248): the twelve words of its Table 8.5 entry, its sequence counter, its discard count
and its token bucket in thousandths of a bit at a time. -/
structure Stream where
  words : List Nat
  seq : Nat := 0
  discard : Nat := 0
  tokens : Nat := 0
  tokAt : Nat := 0
  /-- SENT_THROUGH: the last number sent (R420). -/
  sentThrough : Option Nat := none
  deriving DecidableEq, Repr

/-- A packet that waits: stream, sequence number, UDP payload, when it was made, the spectra it holds (ACP data), whether it
is a GAP record, and the readout job it belongs to with whether it is that job's last. -/
structure Pkt where
  stream : Nat
  seq : Nat
  body : List Nat
  at' : Nat
  spectra : Nat := 0
  gap : Bool := false
  job : Option Nat := none
  last : Bool := false
  /-- The batch it came from, for the reuse of the beam output ring (R201). -/
  batch : Nat := 0
  /-- First and last channel, for a GAP record over it. -/
  chFirst : Nat := 0
  chLast : Nat := 0
  deriving DecidableEq, Repr

/-- An entry of the resolution cache (R254). -/
structure Res where
  port : Nat
  v6 : Bool
  ip : Nat
  mac : Nat := 0
  resolved : Bool := false
  static : Bool := false
  /-- When last asked or resolved, and refreshes failed since. -/
  at' : Nat := 0
  fails : Nat := 0
  deriving DecidableEq, Repr

/-- An ACP receive binding (Table 8.9), its counters by place in Table 2.10 with SEQ_GAP and SEQ_REV at 18 and 19, its
continuity table and its expected SEQ. -/
structure Binding where
  bytes : List Nat
  cnt : Tbl Nat := []
  tracks : List Track := []
  expSeq : Option Nat := none
  deriving DecidableEq, Repr

/-- A port beyond its registers (R253, Table 8.8). -/
structure Port where
  mac : Nat := 0
  v4 : Nat := 0
  gw4 : Nat := 0
  pfx4 : Nat := 0
  v6a : Nat := 0
  v6b : Nat := 0
  pfx6 : Nat := 0
  gw6 : Nat := 0
  vids : List Nat := []
  /-- Since when each priority has been paused without a break (R246). -/
  pausedAt : Tbl (Option Nat) := []
  /-- Fill of the ACP receive buffer in percent, and whether PFC has been sent for it (R247). -/
  fill : Nat := 0
  pfcSent : Bool := false
  /-- PTP messages and echo replies in the second of this time (R254, R267). -/
  sec : Nat := 0
  ptpCount : Nat := 0
  echoCount : Nat := 0
  /-- PTP port state: 0 disabled, 1 listening, 2 slave, 3 master, 4 passive; its master's data set and identity. -/
  ptp : Nat := 0
  master : Option (List Nat) := none
  /-- The last eight measurements, newest first, discarded ones included; the last mean delay (R267). -/
  hist : List Int := []
  mean : Int := 0
  /-- Next sequenceId by message type. -/
  ptpSeq : Tbl Nat := []
  deriving DecidableEq, Repr

/-- Network and time beyond their registers (chapter 8). -/
structure Net where
  streams : Tbl (Option Stream) := []
  streamReset : Nat := 0
  queue : List Pkt := []
  cache : List Res := []
  bind : List Binding := []
  ports : Tbl Port := []
  /-- Last stream served of each port and priority, by 8 · port + priority (R249). -/
  rr : Tbl (Option Nat) := []
  trigTxDrop : Nat := 0
  /-- PTP_CONFIG words in force. -/
  ptpCfg : List Nat := []
  /-- Seconds label and UTC offset of TIME_SET. -/
  label : Nat := 0
  utc : Int := 0
  utcValid : Bool := false
  /-- The rate offset of the TSU in parts per 10^9 of 2^16 (R262). -/
  slew : Int := 0
  /-- The first step has been applied. -/
  stepped : Bool := false
  /-- A label of TIME_SET that no measurement has used yet, with SRC = 0. -/
  labelNew : Bool := false
  /-- Pulse outputs: edges fired so far, next edge time, and the level now (R268, R269). -/
  pulse : Tbl (Nat × Option Nat × Bool) := []
  deriving DecidableEq, Repr

/-- Scrubbing and the error queue beyond their registers (R390, R391, R396). -/
structure Scrub where
  /-- When the present pass of a class began, on the model's clock; and one bit a class: SCRUB_LATE sent for this pass. -/
  start : Tbl Nat := []
  late : Nat := 0
  /-- The entry at ER_HEAD has been handled and logged and waits for its POP. -/
  taken : Bool := false
  /-- Corrections and uncorrectable errors since boot (R420). -/
  ce : Nat := 0
  ue : Nat := 0
  deriving DecidableEq, Repr

/-- What a sensor's code-change test keeps (R402): its last code, since when, and its neighbours' readings then. -/
structure SensHist where
  code : Int
  at' : Nat
  near : List Int
  deriving DecidableEq, Repr

/-- Thermal control and adaptive voltage beyond their registers (R401 to R410). -/
structure Therm where
  /-- Since when a reading has differed by more than 15 °C from its neighbours, and a stack has given no valid report. -/
  diffAt : Tbl (Option Nat) := []
  lostAt : Tbl (Option Nat) := []
  code : Tbl (Option SensHist) := []
  /-- Sensors whose primary element has failed and that firmware has not yet switched. -/
  prim : List Nat := []
  /-- Zones in warning, one bit each; sensors alone at TH_SHUT and reported, one bit each. -/
  warn : Nat := 0
  unconf : Nat := 0
  /-- When a live sensor was last at or above TH_SHUT. -/
  hot : Tbl (Option Nat) := []
  /-- When d last rose, when it last changed, and since when the down condition has held. -/
  riseAt : Option Nat := none
  changeAt : Option Nat := none
  downAt : Option Nat := none
  /-- A digital shutdown has begun: when, and the two sensors that agreed. -/
  shut : Option (Nat × Nat × Nat) := none
  /-- Latest margins by unit in 0.01 %: tiles 0 to 67, 68 staging SRAM, 69 mortar, 70 beam engine, 71 to 74 cores, 75 to 78
  lane quadrants. -/
  margins : Tbl Int := []
  upAt : Option Nat := none
  dnAt : Option Nat := none
  avLimit : Bool := false
  /-- Units reported without headroom. -/
  headroom : List Nat := []
  deriving DecidableEq, Repr

/-- A valid health report as the arbiter keeps it (R420). -/
structure Report where
  alive : Nat
  fw : Nat
  lease : Nat
  errSum : Nat
  gen : Nat
  ue : Nat
  cfg : Nat
  dumpId : Nat
  digest : Nat
  skipped : Nat
  subst : Nat
  audit : Nat
  deriving DecidableEq, Repr

/-- The lease of a twin, and the arbiter function (R415 to R423). -/
structure Twin where
  /-- The last sixteen lease words, newest first, and the alive counter of the words sent. -/
  words : List (List Nat) := []
  alive : Nat := 0
  syncAt : Option Nat := none
  noArb : Bool := false
  fenced : Bool := false
  holder : Bool := false
  /-- When the lease timer reaches zero, in nanoseconds of `now`. -/
  leaseEnd : Nat := 0
  /-- SENT_THROUGH of each stream by the latest report of the other twin that carried it. -/
  sent : Tbl (Option Nat) := []
  /-- The first stream of the next report's entries. -/
  rot : Nat := 0
  /-- Health reports by node, newest first, sixteen of each. -/
  reports : List (Nat × List Nat) := []
  /-- Arbiter: L and G in microseconds, start, GEN, cycle count, holder, and per node the time of the last GRANT. -/
  l : Nat := 10000
  g : Nat := 1000
  startAt : Nat := 0
  gen : Nat := 0
  cycle : Nat := 0
  hold : Option Nat := none
  tg : Tbl (Option Nat) := []
  /-- Per node: the latest valid report, slots missed in a row, and one bit each: reported in this slot, failed, barred. -/
  last : Tbl (Option Report) := []
  miss : Tbl Nat := []
  got : Nat := 0
  failed : Nat := 0
  barred : Nat := 0
  cfgBad : Bool := false
  /-- The DUMP_ID last compared, and the UE counts that the reports of the dump before it showed. -/
  compared : Option Nat := none
  ueAt : Tbl Nat := []
  /-- The arbiter waits its first 30 ms + G; nodes that reported HOLDER in this cycle, one bit each. -/
  waiting : Bool := false
  held : Nat := 0
  deriving DecidableEq, Repr

/-- What a register bank of a core owns beyond registers, or the whole core in the native state (R321 to R330, R332): program
counter, loop stack and what is under way. -/
structure RCtx where
  pc : Nat := 0
  /-- Loop stack, top first: LS, LE and LC (R321). -/
  loops : List (Nat × Nat × Nat) := []
  /-- Delay slots left, the address after them, and the return whose SR is restored then: 0 none, 1 RTI1, 2 RTI2, 3 RTT (R326). -/
  slots : Option (Nat × Nat × Nat) := none
  /-- Executions left of an instruction under REP (R323). -/
  rep : Option Nat := none
  /-- WAIT has been executed. -/
  waiting : Bool := false
  /-- The control program runs: a personality's bank (R446). -/
  runs : Bool := false
  /-- What the trap interrupted: its slots, and whether it was a repetition (R323, R330). -/
  trapSlots : Nat := 0
  trapBack : Nat := 0
  trapRep : Bool := false
  deriving DecidableEq, Repr

/-- A physical Rhaex core beyond its register page (chapter 10). -/
structure RCore where
  /-- Registers by 256 · bank + code of Table 10.2, bank 0 for what the banks share; codes 0x40 and up are bits of SR. -/
  regs : Tbl Nat := []
  bank : Nat := 0
  ctx : RCtx := {}
  /-- The other personality's (R332). -/
  alt : RCtx := {}
  /-- Instructions executed, and writes on their way: the stage time at whose end each lands, its key and value (R325). -/
  n : Nat := 0
  pend : List (Nat × Nat × Nat) := []
  /-- What local words held before the stores of the last instruction: instruction, address, word (Table 10.4). -/
  memOld : List (Nat × Nat × Nat) := []
  /-- Posted window writes whose error response has not arrived (R310). -/
  werr : Nat := 0
  /-- When the watchdog was last restarted, and when CR_TIMER was zero. -/
  wdogAt : Nat := 0
  timerAt : Nat := 0
  /-- Halted by QDP: the cause of QD_STAT, zero for not. -/
  qhalt : Nat := 0
  /-- When QDP halted it: its watchdog is frozen since then. -/
  haltAt : Nat := 0
  /-- A halt that waits for an allowed boundary: a cause of QD_STAT, or 5 for CR_CTRL.CMD. -/
  due : Nat := 0
  /-- The next instruction passes its breakpoint, as the core resumes there; data accesses of the instruction: Y space, address,
  write. -/
  skipBp : Bool := false
  acc : List (Bool × Nat × Bool) := []
  deriving DecidableEq, Repr

/-- A tuckpointing of a core, as CORE_STATUS reports it (R335): logical number, physical cores from and to, whether its state was
kept, and the time of day in seconds. -/
structure Tuck where
  l : Nat
  src : Nat
  dst : Nat
  kept : Bool
  timeS : Nat
  deriving DecidableEq, Repr

/-- The debug port beyond its registers (chapter 19). -/
structure Tap where
  ir : Nat := 0x02
  /-- The last completed access's data and status. -/
  data : Nat := 0
  status : Nat := 0
  /-- Data and status of an access that still runs at the next Capture-DR. -/
  late : Option (Nat × Nat) := none
  testEn : Bool := false
  deriving DecidableEq, Repr

/-- A closed DC-512 dump being sent (R440, R442): its first spectrum, exponent, values by channel · 131328 + product, the
faulted products, the next planned packet and those discarded. -/
structure PDump where
  c0 : Nat
  k : Nat
  re : Tbl Nat := []
  im : Tbl Nat := []
  bad : Tbl Bool := []
  next : Nat := 0
  lost : Nat := 0
  /-- Accounting (R44) by channel · 512 + input. -/
  acct : List Acct := []
  deriving DecidableEq, Repr

/-- The record of a dump that PERS_LOG returns (R439, R442): first spectrum, exponent, packets discarded, accounting. -/
structure PLog where
  c0 : Nat
  k : Nat
  lost : Nat
  acct : List Acct
  deriving DecidableEq, Repr

/-- A DC-512 personality beyond its BAR0 (chapter 15). -/
structure Pers where
  en : Bool := false
  nch : Nat := 0
  base : Nat := 0
  /-- The first of its channels in the internal run. -/
  chan0 : Nat := 0
  k : Nat := 0
  nextK : Option Nat := none
  running : Bool := false
  /-- The counter value at which its next dump begins; a STOP waits for the boundary. -/
  first : Nat := 0
  stopping : Bool := false
  /-- The newest spectrum accepted. -/
  newest : Option Nat := none
  /-- Output settings: destination MAC, source and destination address, ports (source low), UNIT. -/
  mac : Nat := 0
  src : Nat := 0
  dst : Nat := 0
  ports : Nat := 0
  unit : Nat := 0
  link : Bool := false
  pkt : Nat := 0
  /-- The first spectrum of the integration under way, and its values. -/
  start : Option Nat := none
  re : Tbl Nat := []
  im : Tbl Nat := []
  bad : Tbl Bool := []
  acct : List Acct := []
  out : Option PDump := none
  /-- Dumps done, newest first. -/
  log : List PLog := []
  fault : Bool := false
  deriving DecidableEq, Repr



/-- Everything the device holds but its flash and its byte memories. The defaults are the values at reset. -/
structure Dev where
  /-- Every register of the manual's tables, by system address; one that is not listed holds its reset value. -/
  regs : Tbl Word64 := []
  /-- The upper word latched by a 32-bit read of a lower word, by register address (R21). -/
  latch : Tbl (Option Nat) := []
  /-- Nanoseconds of the model's own clock. -/
  now : Nat := 0
  /-- The time of day of the TSU in units of 2^-40 ns (R259). -/
  tod : Nat := 0
  /-- The model's own counter of free values drawn. -/
  fresh : Nat := 0
  /-- What the device gave to the world outside, newest first: the model's own record. -/
  out : List Out := []
  /-- The PCIe endpoint and management ports. -/
  host : HostIf := {}
  /-- Jobs by index. -/
  jobs : Tbl Job := []
  /-- How many jobs have been accepted or ended, the orders of R369 and R370. -/
  jobSeq : Nat := 0
  /-- The ERRC queue, oldest first (R395). -/
  errq : List ErrEntry := []
  /-- The SEQ of the next entry (Table 13.4). -/
  errSeq : Nat := 0
  /-- The check-value units. -/
  cvu : Tbl Cvu := []
  /-- The DMA channels. -/
  dma : Tbl DmaCh := []
  /-- The master that each target of the matrix served last (R340). -/
  xbLast : Tbl (Option Nat) := []
  /-- Firmware's working copy of retained state. -/
  ret : Retained := {}
  /-- Commits, resets and start-up. -/
  pwr : Power := {}
  /-- Lanes by physical index. -/
  lanes : Tbl Lane := []
  /-- N+1 groups defined by LANE_GROUP. -/
  lgroups : List LGroup := []
  /-- Bulk class by link. -/
  bulk : Tbl Bulk := []
  /-- JESD204C links. -/
  jesd : Tbl (Option Jesd) := []
  /-- Base rate of each lane PLL by 2 · group + (1 for PLL_B), in units of 31.25 MHz; zero when off (R49). -/
  pll : Tbl Nat := []
  /-- Frame slots sent so far. -/
  aslSlots : Nat := 0
  /-- The front (chapter 3). -/
  front : Front := {}
  /-- The correlator run (chapters 1, 4 and 5). -/
  run : Run := {}
  /-- The timing core (chapter 9). -/
  tim : Tim := {}
  /-- The beam engine (chapter 6). -/
  beam : Beam := {}
  /-- The memory controllers. -/
  memc : MemC := {}
  /-- The capture ring. -/
  cap : Cap := {}
  /-- Network and time (chapter 8). -/
  net : Net := {}
  /-- Scrubbing and error handling (chapter 13). -/
  scrub : Scrub := {}
  /-- Thermal control and adaptive voltage (chapter 14). -/
  therm : Therm := {}
  /-- The lease and the arbiter (chapter 14). -/
  twin : Twin := {}
  /-- The Rhaex cores by physical number (chapter 10). -/
  cores : Tbl RCore := []
  /-- The debug port (chapter 19). -/
  tap : Tap := {}
  /-- The DC-512 personalities (chapter 15). -/
  pers : Tbl Pers := []
  /-- The spectrum period, epoch seconds and nanoseconds that PERS_ASSIGN set (Table 15.7). -/
  persRun : List Nat := []
  /-- Tuckpointings of cores, newest first (R335). -/
  tucks : List Tuck := []
  deriving DecidableEq, Repr

/-- The byte memories of the system map (R338) and the host memory behind the outbound window (R375). -/
structure Mem where
  /-- Bytes by system address, in canonical form: addresses rising, none at what an unlisted byte reads as. -/
  bytes : List Host.Cell := []
  /-- Poisoned granules (R384): first address to true. -/
  poison : Tbl Bool := []
  /-- Granules in storage with an error still in them, by class · 2^48 + address: 1 correctable, 2 not (R386, R389). -/
  soft : Tbl Nat := []
  /-- Host memory bytes by host bus address, in the same form. -/
  host : List Host.Cell := []
  deriving DecidableEq, Repr

/-- The state of the model: the commands waiting, first in first out; the flash with its commit engine; the memories;
and the rest of the device. -/
structure State where
  pending : List Instr := []
  flash : Flash := {}
  mem : Mem := {}
  dev : Dev := {}
  deriving DecidableEq, Repr

/-- Why the machine stops. -/
inductive Fault where
  /-- Raised by no command: the block has no state from which it cannot go on. Safe. -/
  | none
  deriving DecidableEq, Repr

/-- Why a command has no meaning in the model. -/
inductive Refusal where
  /-- Raised by the arms of Dispatch.lean for a command that has no meaning yet. Safe. -/
  | notModelled (mnemonic : String)
  /-- Raised by SPI_FRAME in DC-512 compatibility mode, whose management protocol the manual does not give. Safe. -/
  | spiProtocolNotGiven
  deriving DecidableEq, Repr

/-- The machine right after power-on reset: every register at the value of its Reset column (R455), nothing in the
memories, the flash erased, no command waiting. -/
def State.reset : State := {}

end Sys2Proof.Machine
end

