-- ==== Sys2Proof/Machine/Ops.lean ====
section
/-!
DEFINITION. The shared operations: registers and counters, what the device sends out, interrupt causes, the error
queue, byte memories with poison, and the decoding of system addresses.
-/
namespace Sys2Proof.Machine
open Sys2Proof (Config.romByte Config.hostByte Config.freeNat Word64 Byte Tbl)

/-- A command answered with the device changed and all else kept. -/
def nextDev (s : State) (d : Dev) : Host.Outcome State Fault Refusal := .next { s with dev := d }

/-! Registers. -/

/-- The value a register holds. -/
def Dev.rd (d : Dev) (a : Nat) : Word64 := tget regReset d.regs a

/-- The device with a register given a value. -/
def Dev.wr (d : Dev) (a : Nat) (v : Word64) : Dev := { d with regs := tset regReset d.regs a v }

/-- The value a register holds, as a number. -/
def Dev.rdN (d : Dev) (a : Nat) : Nat := (d.rd a).toNat

/-- The device with a register given a number modulo 2^64. -/
def Dev.wrN (d : Dev) (a v : Nat) : Dev := d.wr a (BitVec.ofNat 64 v)

/-- The value of a field of a register. -/
def Dev.f (d : Dev) (a : Nat) (f : Fld) : Nat := getF f (d.rd a)

/-- Whether a one-bit field reads 1. -/
def Dev.on (d : Dev) (a : Nat) (f : Fld) : Bool := d.f a f == 1

/-- The device with one field of a register given a value. -/
def Dev.setF (d : Dev) (a : Nat) (f : Fld) (v : Nat) : Dev := d.wr a (putF f v (d.rd a))

/-- A 64-bit event counter advanced, saturating (R20). -/
def Dev.cnt (d : Dev) (a n : Nat) : Dev := d.wrN a (satAdd 64 (d.rdN a) n)

/-- A counter in a field of a register advanced, saturating (R20). -/
def Dev.cntF (d : Dev) (a : Nat) (f : Fld) (n : Nat) : Dev :=
  d.setF a f (satAdd (f.hi + 1 - f.lo) (d.f a f) n)

/-- Low half [31:0] of a 64-bit register that holds two counters. -/
@[reducible] def LO32 : Fld := ⟨31, 0⟩

/-- High half [63:32] of a 64-bit register that holds two counters. -/
@[reducible] def HI32 : Fld := ⟨63, 32⟩

/-- Registers of a list cleared. -/
def Dev.clearRegs (d : Dev) (as : List Nat) : Dev := as.foldl (fun e a => e.wr a 0) d

/-! What the device sends out, free values and the clock. -/

/-- The device having given something to the outside. -/
def Dev.emit (d : Dev) (k : OutKind) (u : Nat) (x : List Nat) : Dev := { d with out := ⟨k, u, x⟩ :: d.out }

/-- The next free value; `Dev.drew` is the device once it is drawn. -/
def Dev.free (d : Dev) : Nat := Config.freeNat d.fresh

/-- The device with its next free value drawn. -/
def Dev.drew (d : Dev) : Dev := { d with fresh := d.fresh + 1 }

/-- Units of the time of day in one second: 10^9 ns of 2^40 units (R259). -/
def secUnits : Nat := 10 ^ 9 * 2 ^ 40

/-- The time of day, whole seconds (R259). -/
def Dev.todSec (d : Dev) : Nat := d.tod / secUnits % 2 ^ 48

/-- The time of day within the second, in units of 2^-16 ns (R259). -/
def Dev.todNsFrac (d : Dev) : Nat := d.tod % secUnits / 2 ^ 24

/-- The time of day within the second, whole nanoseconds. -/
def Dev.todNs (d : Dev) : Nat := d.todNsFrac / 2 ^ 16

/-! Interrupt vectors (R376, R359). -/

/-- A cause of an MSI-X vector arises: a message is sent, or its pending bit is set while it is masked, or it waits for
the end of the spacing, for D0 or for the link (R359, R376). -/
def Dev.cause (d : Dev) (v : Nat) : Dev :=
  let h := d.host
  if !bit (d.rdN INT_EN) v || !h.msixEn then d
  else if h.d3hot || !h.linkUp || bit h.spacing v then { d with host := { h with waiting := h.waiting ||| 2 ^ v } }
  else if bit h.msixMask v then { d with host := { h with msixPend := h.msixPend ||| 2 ^ v } }
  else
    let d1 := d.emit .msix v []
    if d.f INT_MOD INT_MOD_MOD_US = 0 then d1
    else { d1 with host := { h with spacing := h.spacing ||| 2 ^ v } }

/-- A field of DEVSTAT that vector 2 reports takes a value; a change raises the vector (Table 12.11), and one of THERMAL asserts
SMB_ALERT_N (R487). -/
def Dev.setStat (d : Dev) (f : Fld) (v : Nat) : Dev :=
  if d.f DEVSTAT f = v then d
  else
    let d1 := ((d.setF DEVSTAT f v).setF INT_CAUSE INT_CAUSE_STATE 1).cause 2
    if f = DEVSTAT_THERMAL then { d1 with host := { d1.host with smbAlert := true } } else d1

/-- Firmware states (DEVSTAT.FW_STATE). -/
def FW_BOOT : Nat := 0x01
def FW_RESTORE : Nat := 0x02
def FW_TRAIN : Nat := 0x03
def FW_READY : Nat := 0x04
def FW_RUN : Nat := 0x05
def FW_DEGRADED : Nat := 0x06
def FW_HALTED : Nat := 0x0E
def FW_SHUTDOWN : Nat := 0x0F

/-- The firmware state. -/
def Dev.fwState (d : Dev) : Nat := d.f DEVSTAT DEVSTAT_FW_STATE

/-! The lease state (R415 to R423). -/

/-- The conditions under which a twin is fenced (R423). -/
def Dev.fenceCond (d : Dev) : Bool :=
  !(d.fwState == FW_RUN || d.fwState == FW_DEGRADED) || !d.run.active || bit (d.f DEVSTAT DEVSTAT_ERR_SUM) 2

/-- The device is configured as a twin (LS_CTRL.ROLE). -/
def Dev.isTwin (d : Dev) : Bool := d.f LS_CTRL LS_CTRL_ROLE == 1

/-- The arbiter function runs (LS_CTRL.ROLE). -/
def Dev.isArb (d : Dev) : Bool := d.f LS_CTRL LS_CTRL_ROLE == 2

/-- The lease state of DEVSTAT [15:8] and LS_STAT (R423). -/
def Dev.leaseState (d : Dev) : Nat :=
  if d.isTwin then if d.fenceCond then 4 else if d.twin.noArb then 3 else if d.twin.holder then 2 else 1
  else if d.isArb then if d.twin.waiting then 0x11 else 0x10 else 0

/-- The lease state after a change: a fenced holder ends its lease at once (R423), and the state is reported. -/
def Dev.syncLease (d : Dev) : Dev :=
  let d1 := if d.isTwin && d.fenceCond then { d with twin := { d.twin with holder := false } } else d
  (d1.setF LS_STAT LS_STAT_STATE d1.leaseState).setStat DEVSTAT_LEASE d1.leaseState

/-- A bit of ERR_SUM is set; one newly set raises vector 3 (Tables 12.4 and 12.11). -/
def Dev.errSum (d : Dev) (b : Nat) : Dev :=
  let v := d.f DEVSTAT DEVSTAT_ERR_SUM
  if bit v b then d
  else
    let d1 := ((d.setF DEVSTAT DEVSTAT_ERR_SUM (v ||| 2 ^ b)).setF INT_CAUSE INT_CAUSE_ERR 1).cause 3
    if b = 2 then d1.syncLease else d1

/-! The error queue (R395 to R397). -/

/-- Severity of each event and the ERR_SUM bit it sets besides bit 0 (Tables 13.5, 14.8 and 16.11 and R517). The key is
source · 256 + event. -/
def errTable : List (Nat × Nat × Option Nat) := [
  (0x0001, 0, none), (0x0002, 3, none), (0x0003, 0, none), (0x0004, 1, none), (0x0005, 1, some 3),
  (0x0006, 2, some 5), (0x0007, 1, none), (0x0008, 2, some 5), (0x0009, 1, none), (0x000A, 1, none),
  (0x000B, 1, some 6), (0x000C, 3, none), (0x000D, 3, some 3), (0x000E, 0, none),
  (0x0101, 3, some 3), (0x0102, 1, none), (0x0103, 1, none), (0x0201, 1, none),
  (0x0301, 1, none), (0x0302, 1, none), (0x0303, 1, none), (0x0304, 3, some 2), (0x0305, 3, some 2),
  (0x0501, 3, none), (0x0502, 3, none), (0x0503, 3, none), (0x0504, 0, none), (0x0505, 3, some 2),
  (0x0506, 3, some 2), (0x0507, 3, some 2), (0x0508, 2, some 1), (0x0601, 0, none),
  (0x0701, 2, some 1), (0x0702, 3, some 3), (0x0703, 0, none),
  (0x0801, 3, some 2), (0x0802, 0, none), (0x0803, 0, none),
  (0x0A01, 0, none), (0x0A02, 1, some 7), (0x0A03, 1, some 3), (0x0A04, 3, some 7), (0x0A05, 1, some 7),
  (0x0A06, 1, none), (0x0A07, 1, none), (0x0A08, 1, some 3), (0x0A09, 1, some 3), (0x0A0A, 1, none),
  (0x0B01, 1, none), (0x0B02, 2, some 1), (0x0B03, 1, none), (0x0B04, 1, none), (0x0B05, 3, some 3), (0x0B06, 1, none),
  (0x0C01, 0, none), (0x0C02, 2, some 1), (0x0D01, 1, none),
  (0x0E01, 1, none), (0x0E02, 0, none), (0x0E03, 1, none), (0x0E04, 3, none), (0x0E05, 3, none), (0x0E06, 3, some 2),
  (0x0F01, 3, none), (0x0F02, 3, some 3), (0x0F03, 2, none), (0x0F04, 1, some 6),
  (0x1001, 0, none), (0x1002, 0, none), (0x1003, 2, some 1)]

/-- The four 64-bit words of an entry (Table 13.4). -/
def ErrEntry.words (e : ErrEntry) : List Nat :=
  [e.code % 2 ^ 16 + e.sev % 2 ^ 8 * 2 ^ 16 + e.inst % 2 ^ 8 * 2 ^ 24 + e.seq % 2 ^ 32 * 2 ^ 32,
   e.timeS % 2 ^ 32 + e.timeNs % 2 ^ 32 * 2 ^ 32, e.addr % 2 ^ 64, e.info % 2 ^ 64]

/-- ER_HEAD and ER_STAT.DEPTH follow the queue; ER_HEAD reads zero when it is empty (R395). -/
def Dev.syncHead (d : Dev) : Dev :=
  let ws := match d.errq with | [] => [0, 0, 0, 0] | e :: _ => e.words
  ((((d.wrN (ER_HEAD 0) (ws.getD 0 0)).wrN (ER_HEAD 1) (ws.getD 1 0)).wrN (ER_HEAD 2) (ws.getD 2 0)).wrN
    (ER_HEAD 3) (ws.getD 3 0)).setF ER_STAT ER_STAT_DEPTH d.errq.length

/-- ER_FIRST takes the first entry raised, and LATER counts those after it, queued or discarded (R395). -/
def Dev.noteFirst (d : Dev) (e : ErrEntry) : Dev :=
  if d.on ER_STAT ER_STAT_FIRST_VALID then d.cntF ER_STAT ER_STAT_LATER 1
  else
    let ws := e.words
    ((((d.wrN (ER_FIRST 0) (ws.getD 0 0)).wrN (ER_FIRST 1) (ws.getD 1 0)).wrN (ER_FIRST 2) (ws.getD 2 0)).wrN
      (ER_FIRST 3) (ws.getD 3 0)).setF ER_STAT ER_STAT_FIRST_VALID 1

/-- The entry that an event makes now (Table 13.4). -/
def Dev.errEntry (d : Dev) (code inst addr info : Nat) : ErrEntry :=
  { code := code, sev := ((errTable.find? fun r => r.1 == code).map fun r => r.2.1).getD 0, inst := inst % 256,
    seq := d.errSeq % 2 ^ 32, timeS := d.todSec % 2 ^ 32, timeNs := d.todNs, addr := addr, info := info }

/-- An event enters ERRC (R395, R397): the entry takes the next SEQ, is queued when one of the 16 places is free and is
otherwise lost, and sets the ERR_SUM bits of its code. -/
def Dev.raise (d : Dev) (code inst addr info : Nat) : Dev :=
  let row := (errTable.find? fun r => r.1 == code).map (·.2)
  let e := d.errEntry code inst addr info
  let d1 := ({ d with errSeq := d.errSeq + 1 } : Dev).noteFirst e
  let d2 := if d1.errq.length < 16 then (({ d1 with errq := d1.errq ++ [e] } : Dev).syncHead).errSum 0
            else ((d1.setF ER_STAT ER_STAT_LOST 1).cntF ER_STAT ER_STAT_LOST_CNT 1).errSum 4
  match row with
  | some (_, some b) => d2.errSum b
  | _ => d2

/-- A dropped write is logged (R7). -/
def Dev.regDrop (d : Dev) (a who : Nat) : Dev := d.raise 0x0001 0xFF a who

/-! Memory and the system map (R338). -/

/-- What a byte that nothing has written reads as (log entry 4). -/
def memReset (_ : Nat) : Byte := 0

/-- One byte of a memory of the system map. -/
def Mem.rd8 (m : Mem) (a : Nat) : Nat := (tget memReset m.bytes a).toNat

/-- n bytes from an address upward. -/
def Mem.rd (m : Mem) (a n : Nat) : List Nat := (List.range n).map fun i => m.rd8 (a + i)

/-- A little-endian number of n bytes. -/
def Mem.rdN (m : Mem) (a n : Nat) : Nat := leNat (m.rd a n)

/-- Bytes put into a byte table from an address upward. -/
def putBytes (d : Nat → Byte) : List Host.Cell → Nat → List Nat → List Host.Cell
  | t, _, [] => t
  | t, a, b :: bs => putBytes d (tset d t a (BitVec.ofNat 8 b)) (a + 1) bs

/-- Bytes stored without regard to poison. -/
def Mem.wr (m : Mem) (a : Nat) (bs : List Nat) : Mem := { m with bytes := putBytes memReset m.bytes a bs }

/-- Bytes of one ECC granule at an address: 32 in HBM, 64 in DDR, 4 elsewhere (Table 13.1, R346). -/
def granule (a : Nat) : Nat :=
  if 0x100000000000 ≤ a ∧ a < 0x200000000000 then 32 else if 0x200000000000 ≤ a ∧ a < 0x800000000000 then 64 else 4

/-- The memory class of an address of a memory (Table 13.1): 0 ROM, 1 SRAM, 2 core memories, 5 HBM, 6 DDR. -/
def memClass (a : Nat) : Nat :=
  if a < 0x20000000 then 0 else if a < 0x30000000 then 1 else if a < 0x100000000000 then 2
  else if a < 0x200000000000 then 5 else 6

/-- The key of a granule among those with an error in storage. -/
def softKey (k a : Nat) : Nat := k * 2 ^ 48 + a

/-- What error a granule still holds in storage: 1 correctable, 2 uncorrectable (R386, R389). -/
def Mem.softAt (m : Mem) (k a : Nat) : Nat := tget (fun _ => 0) m.soft (softKey k a)

/-- That error set or cleared. -/
def Mem.setSoft (m : Mem) (k a v : Nat) : Mem := { m with soft := tset (fun _ => 0) m.soft (softKey k a) v }

/-- Whether the granule of an address reads as poison: it holds poison or an uncorrectable error (R384, R385). -/
def Mem.poisonAt (m : Mem) (a : Nat) : Bool :=
  let g := a / granule a * granule a
  tget (fun _ => false) m.poison g || m.softAt (memClass a) g == 2

/-- The first addresses of the granules that a range of n bytes touches. -/
def granulesOf (a n : Nat) : List Nat :=
  if n = 0 then []
  else
    let g := granule a
    (List.range ((a + n - 1) / g + 1 - a / g)).map fun i => (a / g + i) * g

/-- Whether a range of n bytes touches poison. -/
def Mem.poisonIn (m : Mem) (a n : Nat) : Bool := (granulesOf a n).any m.poisonAt

/-- A granule written anew, poisoned or not; an error in its storage is gone. -/
def Mem.mark (m : Mem) (g : Nat) (p : Bool) : Mem :=
  { m.setSoft (memClass g) g 0 with poison := tset (fun _ => false) m.poison g p }

/-- n bytes from an address upward made zero and free of poison. -/
def Mem.zero (m : Mem) (a n : Nat) : Mem :=
  { m with bytes := m.bytes.filter (fun c => decide (c.1 < a ∨ a + n ≤ c.1)),
           poison := m.poison.filter (fun c => decide (c.1 < a ∨ a + n ≤ c.1)),
           soft := m.soft.filter (fun c => decide (c.1 < softKey (memClass a) a ∨ softKey (memClass a) (a + n) ≤ c.1)) }

/-- Bytes stored by a port: a poisoned lane poisons each granule it reaches, a write that covers a whole granule
unpoisoned clears its poison, and a partial write leaves it poisoned; either writes the granule anew (R346, R383, R384). -/
def Mem.store (m : Mem) (a : Nat) (bs : List Nat) (psn : Bool) : Mem :=
  (granulesOf a bs.length).foldl
    (fun q g => q.mark g (psn || (!decide (a ≤ g ∧ g + granule a ≤ a + bs.length) && m.poisonAt g)))
    (m.wr a bs)

/-- The memories are in their canonical form: keys rising and no entry at what an unlisted key reads as. -/
def Mem.wf (m : Mem) : Bool :=
  twf memReset m.bytes && twf (fun _ => false) m.poison && twf (fun _ => 0) m.soft && twf Config.hostByte m.host

/-- The targets of Table 11.3. -/
inductive Target where
  | rom | sram | blocks | core | hbm | ddr | out | hostmem | none
  deriving DecidableEq, Repr

/-- The number of a target; the default error target is 8. -/
def Target.num : Target → Nat
  | .rom => 0 | .sram => 1 | .blocks => 2 | .core => 3 | .hbm => 4 | .ddr => 5 | .out => 6 | .hostmem => 7 | .none => 8

/-- Live DDR: the smallest live DIMM in bytes, and zero when none is live (R338). -/
def Dev.dimmMin (d : Dev) : Nat :=
  let live := ((List.range 8).filter fun c => d.f (MC_CHSTAT (64 + c)) MC_CHSTAT_STATE ≠ 3).map
    fun c => d.memc.dimm.getD c 0 * 2 ^ 30
  (live.filter (· ≠ 0)).foldl (fun x y => if x = 0 then y else min x y) 0

/-- Where a system address goes and the address of the byte there: region zero and the ROM alias are folded onto ROM
offsets or SRAM addresses (Table 11.1). -/
def Dev.route (d : Dev) (a : Nat) : Target × Nat :=
  if a < 0x10000000 then
    if d.f SC_REMAP SC_REMAP_REMAP = 0 then (if a < 0x40000 then (.rom, a) else (.none, a))
    else (if a < 0x400000 then (.sram, 0x20000000 + a) else (.none, a))
  else if a < 0x20000000 then (if a - 0x10000000 < 0x40000 then (.rom, a - 0x10000000) else (.none, a))
  else if a < 0x30000000 then (if a - 0x20000000 < 0x400000 then (.sram, a) else (.none, a))
  else if 0x40000000 ≤ a ∧ a < 0x41000000 then
    (if 0x40080000 ≤ a ∧ a < 0x40090000 then (.hostmem, a) else (.blocks, a))
  else if 0x50000000 ≤ a ∧ a < 0x54000000 then
    let o := (a - 0x50000000) % 0x1000000
    if o < 0x100000 ∨ (0x400000 ≤ o ∧ o < 0x480000) ∨ (0x600000 ≤ o ∧ o < 0x680000) then (.core, a) else (.none, a)
  else if 0x100000000000 ≤ a ∧ a < 0x102400000000 then (.hbm, a)
  else if 0x200000000000 ≤ a ∧ a < 0x220000000000 then
    (if a - 0x200000000000 < 8 * d.dimmMin then (.ddr, a) else (.none, a))
  else if 0x800000000000 ≤ a ∧ a < 0x1000000000000 then (.out, a)
  else (.none, a)

/-- The grain size of a window (R209). -/
def Dev.grain (d : Dev) (hbm : Bool) : Nat :=
  2 ^ d.f MC_MAP (if hbm then MC_MAP_HBM_G_LOG2 else MC_MAP_DDR_G_LOG2)

/-- The pseudo-channel or DDR channel of a grain unit (R209). -/
def grainUnit (n u : Nat) : Nat := (u % n) ^^^ (u / n % n)

/-- Whether an HBM or DDR address lies in a dead grain: one that maps to a failed unit (R210). -/
def Dev.dead (d : Dev) (a : Nat) : Bool :=
  if 0x100000000000 ≤ a ∧ a < 0x102400000000 then
    let pc := grainUnit 128 ((a - 0x100000000000) / d.grain true)
    d.f (MC_CHSTAT (pc / 2)) MC_CHSTAT_STATE == 3 || bit (d.f (MC_CHSTAT (pc / 2)) MC_CHSTAT_PC_DEAD) (pc % 2)
  else if 0x200000000000 ≤ a ∧ a < 0x220000000000 then
    let ch := grainUnit 8 ((a - 0x200000000000) / d.grain false)
    d.f (MC_CHSTAT (64 + ch)) MC_CHSTAT_STATE == 3
  else false

/-- An access to dead grains is counted and entered in ERRC (R210). -/
def Dev.noteDead (d : Dev) (a : Nat) : Dev := (d.cnt MC_DEAD_ACC 1).raise 0x0701 0xFF a 0

/-- The default error target counts an access and keeps the first (R343). -/
def Dev.noteDefault (d : Dev) (master a : Nat) (write noconn : Bool) : Dev :=
  let d1 := d.cntF XB_CNT LO32 1
  if d1.on XB_ERRINFO XB_ERRINFO_VALID then d1.cntF XB_ERRINFO XB_ERRINFO_MORE 1
  else
    ((((((d1.wrN XB_ERRADDR (a % 2 ^ 48)).setF XB_ERRINFO XB_ERRINFO_MASTER master).setF XB_ERRINFO
      XB_ERRINFO_WRITE (b2n write)).setF XB_ERRINFO XB_ERRINFO_NOCONN (b2n noconn)).setF XB_ERRINFO
      XB_ERRINFO_VALID 1).setF XB_ERRINFO XB_ERRINFO_MORE 0).raise 0x0C01 master a (b2n write)

/-- The connections of Table 11.4. Masters 0, 2, 4 and 6 are instruction ports, 1 the data port of CORE_0, 3, 5 and 7
those of the others, 8 and 9 DMA, 10 PCIe, 11 QDP. -/
def connected (m : Nat) (t : Target) : Bool :=
  match t with
  | .none => true
  | .rom => m < 8 || m == 11
  | .sram => true
  | .blocks => m == 1 || m == 3 || m == 5 || m == 7 || m == 8 || m == 9 || m == 11
  | .core => m == 1 || m == 3 || m == 5 || m == 7 || m ≥ 8
  | .hbm | .ddr => m == 1 || m == 3 || m == 5 || m == 7 || m ≥ 8
  | .out => m == 1 || m == 3 || m == 5 || m == 7 || m == 8 || m == 9 || m == 11
  | .hostmem => m == 1 || m == 10 || m == 11

/-- The host bus address of an outbound address (R375). -/
def Dev.hostAddr (d : Dev) (a : Nat) : Nat := (a - 0x800000000000 + d.f OB_BASE OB_BASE_BASE * 2 ^ 47) % 2 ^ 64

/-- Host memory as the outbound window reads it. -/
def Mem.rdHost (m : Mem) (a n : Nat) : List Nat :=
  (List.range n).map fun i => (tget Config.hostByte m.host (a + i)).toNat

/-- Host memory written through the outbound window. -/
def Mem.wrHost (m : Mem) (a : Nat) (bs : List Nat) : Mem := { m with host := putBytes Config.hostByte m.host a bs }

/-- What a core memory byte reads as: bits [31:24] of each word read zero (R307). -/
def coreByte (m : Mem) (a : Nat) : Nat := if a % 4 = 3 then 0 else m.rd8 a

/-- A read of memory, ROM or the outbound window: kind, bytes and poison; block windows are read in Matrix.lean. -/
def memRead (d : Dev) (m : Mem) (a n : Nat) : Rsp :=
  match d.route a with
  | (.rom, o) => { kind := .ok, data := (List.range n).map fun i => (Config.romByte (o + i)).toNat }
  | (.sram, p) => { kind := .ok, data := m.rd p n, poison := m.poisonIn p n }
  | (.core, p) => { kind := .ok, data := (List.range n).map fun i => coreByte m (p + i), poison := m.poisonIn p n }
  | (.hbm, p) | (.ddr, p) =>
    if (granulesOf p n).any d.dead then { kind := .ok, data := List.replicate n 0, poison := true }
    else { kind := .ok, data := m.rd p n, poison := m.poisonIn p n }
  | (.out, p) =>
    if d.host.busMaster && d.host.linkUp then { kind := .ok, data := m.rdHost (d.hostAddr p) n } else { kind := .error, data := List.replicate n 0 }
  | _ => { kind := .error, data := List.replicate n 0 }

/-- The pieces of a write that fall in live grains, by granule (R210). -/
def livePieces (d : Dev) (a : Nat) (bs : List Nat) : List (Nat × List Nat) :=
  (granulesOf a bs.length).filterMap fun g =>
    if d.dead g then none
    else
      let lo := max a g
      let hi := min (a + bs.length) (g + granule a)
      some (lo, (bs.drop (lo - a)).take (hi - lo))

/-- A write of memory or the outbound window: whether it is answered well, and the memory after it (R210, R338, R346).
Core memories keep bits [23:0] of each word (R307). -/
def memWrite (d : Dev) (m : Mem) (a : Nat) (bs : List Nat) (psn : Bool) : Bool × Mem :=
  match d.route a with
  | (.sram, p) => (true, m.store p bs psn)
  | (.core, p) => (true, m.store p (bs.zipIdx.map fun (b, i) => if (p + i) % 4 = 3 then 0 else b) psn)
  | (.hbm, p) | (.ddr, p) =>
    if (granulesOf p bs.length).any d.dead then
      (true, (livePieces d p bs).foldl (fun q x => q.store x.1 x.2 psn) m)
    else (true, m.store p bs psn)
  | (.out, p) =>
    if d.host.busMaster && d.host.linkUp then (true, if psn then m else m.wrHost (d.hostAddr p) bs) else (false, m)
  | _ => (false, m)

/-! Pauses in a result: what a firmware read of a table gives (R520). -/

/-- The completion codes of Table 12.8. -/
inductive Code where
  | ok | accepted | partialDone | badOpcode | badParam | badState | busy | noResource | timeout | poisoned | hwFault
  | thermal | leaseDenied | holdupLow | compatOnly | nativeOnly
  deriving DecidableEq, Repr

/-- The number of a completion code (Table 12.8). -/
def Code.num : Code → Nat
  | .ok => 0x00 | .accepted => 0x01 | .partialDone => 0x02 | .badOpcode => 0x10 | .badParam => 0x11 | .badState => 0x12
  | .busy => 0x13 | .noResource => 0x14 | .timeout => 0x20 | .poisoned => 0x21 | .hwFault => 0x22 | .thermal => 0x23
  | .leaseDenied => 0x24 | .holdupLow => 0x25 | .compatOnly => 0x30 | .nativeOnly => 0x31

/-- The firmware state set, with its interrupt cause; it may fence a twin or end its fence (R423). -/
def Dev.setFw (d : Dev) (v : Nat) : Dev := (d.setStat DEVSTAT_FW_STATE v).syncLease

/-- Firmware runs: READY, RUN or DEGRADED. -/
def Dev.serving (d : Dev) : Bool := d.fwState == FW_READY || d.fwState == FW_RUN || d.fwState == FW_DEGRADED

/-- The device booted in DC-512 compatibility mode (R1). -/
def Dev.compat (d : Dev) : Bool := d.on SC_ID SC_ID_MODE

/-- The role in force (Table 12.5). -/
def Dev.role (d : Dev) : Nat := d.f ID_MODE ID_MODE_ROLE

/-! Rhaex interrupt lines (R327). -/

/-- An interrupt line of one core becomes pending. -/
def Dev.lineOn (d : Dev) (c l : Nat) : Dev := d.setF (CR_INT c l) CR_INT_PEND 1

/-- An interrupt line becomes pending on every core that enables it (R347). -/
def Dev.lineAll (d : Dev) (l : Nat) : Dev :=
  [0, 1, 2, 3].foldl (fun (e : Dev) c => if e.on (CR_INT c l) CR_INT_EN then e.lineOn c l else e) d

/-- The physical core of a logical one (CR_MAP). -/
def Dev.physOf (d : Dev) (l : Nat) : Nat := bits (d.rdN CR_MAP) (2 * l + 1) (2 * l)

/-- The logical number of a physical core: the reserve's where CR_MAP names it nowhere else. -/
def Dev.logicalOf (d : Dev) (c : Nat) : Nat := ([0, 1, 2].find? fun l => d.physOf l == c).getD 3

/-- Firmware does not run: logical core 0 is halted or in a double trap (R361, R457, R514). -/
def Dev.fwStuck (d : Dev) : Bool :=
  let st := d.f (CR_STAT (d.physOf 0)) CR_STAT_STATE
  st == 2 || st == 3

/-- What a core holds beyond its register page. -/
def Dev.core (d : Dev) (c : Nat) : RCore := tget (fun _ => {}) d.cores c

/-- The device with a core replaced. -/
def Dev.setCore (d : Dev) (c : Nat) (x : RCore) : Dev := { d with cores := tset (fun _ => {}) d.cores c x }

/-- A personality beyond its BAR0. -/
def Dev.per (d : Dev) (p : Nat) : Pers := tget (fun _ => {}) d.pers p

/-- The context of a personality's bank on its core (Table 15.1). -/
def Dev.persCtx (d : Dev) (p : Nat) : RCtx :=
  let x := d.core (d.physOf (1 + p / 2))
  if x.bank = p % 2 then x.ctx else x.alt

/-- DC_STATUS (Table 15.4): zero while the personality is not enabled (R432). -/
def Dev.dcStatus (d : Dev) (p : Nat) : Nat :=
  let x := d.per p
  let aligned := (List.range 16).all fun l => d.f (LN_STAT (16 * p + l)) LN_STAT_STATE == 8
  if !x.en then 0
  else b2n x.running + 2 * b2n x.link + 4 * b2n aligned + 8 * b2n x.out.isSome + 64 * b2n (d.persCtx p).runs + 128 * b2n x.fault

/-- The device with a personality replaced. -/
def Dev.setPer (d : Dev) (p : Nat) (x : Pers) : Dev := { d with pers := tset (fun _ => {}) d.pers p x }

end Sys2Proof.Machine
end

