-- ==== Sys2Proof/Machine/Mailbox.lean ====
section
/-!
DEFINITION. The mailbox: how a command is read from its slot, checked (R365), completed and released (R362 to R368), and
how jobs are accepted, ended and cancelled (R369 to R372).
-/
namespace Sys2Proof.Machine

/-! Jobs. -/

/-- What the job table holds for an index. -/
def Dev.job (d : Dev) (i : Nat) : Job := tget (fun _ => {}) d.jobs i

/-- The device with the record of a job index replaced. -/
def Dev.setJob (d : Dev) (i : Nat) (j : Job) : Dev := { d with jobs := tset (fun _ => {}) d.jobs i j }

/-- STATE of a job status word: 0 FREE, 1 QUEUED, 2 RUNNING, 3 DONE, 4 CANCELLING (Table 12.10). -/
def Dev.jobState (d : Dev) (i : Nat) : Nat := bits (d.rdN (JOB_WORD (4 * i))) 23 16

/-- The opcode of the command that started a job (Table 12.10). -/
def Dev.jobOp (d : Dev) (i : Nat) : Nat := bits (d.rdN (JOB_WORD (4 * i + 1))) 15 0

/-- COUNT of a job status word. -/
def Dev.jobCount (d : Dev) (i : Nat) : Nat := d.rdN (JOB_WORD (4 * i + 2))

/-- A job is QUEUED, RUNNING or CANCELLING. -/
def Dev.jobLive (d : Dev) (i : Nat) : Bool := d.jobState i == 1 || d.jobState i == 2 || d.jobState i == 4

/-- Firmware rewrites a status word: UPDATE goes odd and then even again, which advances it by two (R370). -/
def Dev.setJobWord (d : Dev) (i ticket st code op progress count : Nat) : Dev :=
  let u := d.rdN (JOB_WORD (4 * i + 3))
  (((d.wrN (JOB_WORD (4 * i)) (ticket % 2 ^ 16 + st * 2 ^ 16 + code * 2 ^ 24)).wrN (JOB_WORD (4 * i + 1))
    (op % 2 ^ 16 + progress * 2 ^ 16)).wrN (JOB_WORD (4 * i + 2)) (count % 2 ^ 32)).wrN (JOB_WORD (4 * i + 3))
    ((u + 2) % 2 ^ 32)

/-- DEVSTAT.JOBS counts the jobs QUEUED, RUNNING or CANCELLING, up to 0xFF. -/
def Dev.syncJobs (d : Dev) : Dev :=
  d.setF DEVSTAT DEVSTAT_JOBS (min 0xFF (d.jobs.filter fun p => d.jobLive p.1).length)

/-- The ticket of an index: the index and its generation (R369). -/
def Dev.ticket (d : Dev) (i : Nat) : Nat := i % 1024 + (d.job i).gen % 64 * 1024

/-- A ticket names the current generation of its index. -/
def Dev.ticketOk (d : Dev) (t : Nat) : Bool := (d.job (t % 1024)).gen % 64 == t / 1024 % 64

/-- The index the next job takes: the lowest free one, or else that of the DONE job which ended earliest (R369). -/
def Dev.nextIndex (d : Dev) : Option Nat :=
  match (List.range 1024).find? fun i => d.jobState i == 0 with
  | some i => some i
  | none =>
    ((List.range 1024).filter fun i => d.jobState i == 3).foldl
      (fun acc i => match acc with
        | none => some i
        | some b => if (d.job i).endOrder < (d.job b).endOrder then some i else some b) none

/-- The lowest of the sixteen result areas that no job but `but` holds (R371). -/
def Dev.freeArea (d : Dev) (but : Nat) : Option Nat :=
  (List.range 16).find? fun k => d.jobs.all fun p => p.1 == but || p.2.area != some k

/-- System address of a result area (R371). -/
def Dev.areaAddr (d : Dev) (k : Nat) : Nat := d.rdN ID_JOBPOOL_BASE + k * 0x4000000

/-- A bit of a JOB_DONE word. -/
def Dev.setDoneBit (d : Dev) (i : Nat) (b : Bool) : Dev :=
  let v := d.rdN (JOB_DONE_BITS (i / 32))
  d.wrN (JOB_DONE_BITS (i / 32)) (if b then v ||| 2 ^ (i % 32) else if bit v (i % 32) then v - 2 ^ (i % 32) else v)

/-- Firmware accepts a job (R369 to R371): its index, and the device. None when indices or areas are exhausted. A job
whose unit an earlier job holds is QUEUED. -/
def Dev.acceptJob (d : Dev) (op : Nat) (params : List Nat) (unit : Nat) (needArea clear force : Bool) :
    Option (Nat × Dev) :=
  match d.nextIndex with
  | none => none
  | some i =>
    let area := if needArea then d.freeArea i else none
    if needArea && area.isNone then none
    else
      let st := if d.jobs.any fun p => d.jobLive p.1 && p.2.unit == unit then 1 else 2
      let j : Job := { gen := ((d.job i).gen + 1) % 64, params := params, area := area, unit := unit,
                       acceptOrder := d.jobSeq, clear := clear, force := force }
      let d1 := ({ d with jobSeq := d.jobSeq + 1 } : Dev).setJob i j
      some (i, ((d1.setJobWord i (d1.ticket i) st 0x01 op 0xFFFF 0).setDoneBit i false).syncJobs)

/-- The oldest QUEUED job of a unit starts (R370). -/
def Dev.startNext (d : Dev) (unit : Nat) : Dev :=
  let q := d.jobs.filter fun p => d.jobState p.1 == 1 && p.2.unit == unit
  if d.jobs.any fun p => (d.jobState p.1 == 2 || d.jobState p.1 == 4) && p.2.unit == unit then d
  else
    match q with
    | [] => d
    | x :: xs =>
      let i := (xs.foldl (fun b p => if p.2.acceptOrder < b.2.acceptOrder then p else b) x).1
      d.setJobWord i (d.ticket i) 2 0x01 (d.jobOp i) 0xFFFF (d.jobCount i)

/-- A live job reaches DONE with its code and COUNT: its JOB_DONE bit is set, vector 1 is caused and the next job of its
unit starts (R370). A job that is not live is left as it is. -/
def Dev.endJob (d : Dev) (i : Nat) (code : Code) (count : Nat) : Dev :=
  if !d.jobLive i then d
  else
    let j := d.job i
    let d1 := ({ d with jobSeq := d.jobSeq + 1 } : Dev).setJob i { j with endOrder := d.jobSeq }
    ((((d1.setJobWord i (d1.ticket i) 3 code.num (d1.jobOp i) 1000 count).setDoneBit i true).syncJobs).cause 1).startNext
      j.unit

/-- COUNT of a running job raised (R371), with its PROGRESS, 0xFFFF where it is not estimated (Table 12.10). -/
def Dev.jobProgress (d : Dev) (i count : Nat) (progress : Nat := 0xFFFF) : Dev :=
  d.setJobWord i (d.ticket i) (d.jobState i) 0x01 (d.jobOp i) progress count

/-- The live jobs started by an opcode. -/
def Dev.jobsOf (d : Dev) (op : Nat) : List Nat :=
  (d.jobs.filter fun p => d.jobLive p.1 && d.jobOp p.1 == op).map (·.1)

/-! Requests to the commit engine and tuckpointing reports. -/

/-- Firmware asks for a commit (R467, R469): requests wait until COMMIT_START. -/
def Dev.wantCommit (d : Dev) (why : CommitWhy) (job : Option Nat) (checked : Bool := false) : Dev :=
  { d with pwr := { d.pwr with reqs := d.pwr.reqs ++ [{ why := why, job := job, checked := checked }] } }

/-- The last result of a self-test of a unit is recorded, with a signature that the manual does not give (R518). -/
def Dev.noteTest (d : Dev) (code inst result : Nat) : Dev :=
  let e := d.drew
  let r := (result, d.todSec, d.free % 2 ^ 64)
  { e with pwr := { e.pwr with selftests := tset (fun _ => none) e.pwr.selftests (256 * code + inst) (some r) } }

/-- A unit is marked failed, retired or absent: ERR_SUM bit 3 (Table 12.4). -/
def Dev.unitFailed (d : Dev) : Dev := d.errSum 3

/-- Tuckpointing of a unit is entered in ERRC and the spare map committed; `low` says that its class of reserve has just
reached zero (R413). -/
def Dev.tuckpointed (d : Dev) (unit : Nat) (low : Bool) : Dev :=
  let d1 := (d.raise 0x0A09 unit 0 0).wantCommit .spare none
  if low then d1.raise 0x0A0A unit 0 0 else d1

/-! Commands. -/

/-- A command as firmware reads it (Table 12.6): its slot, header and parameter words, the address in its result
extension, and the voltages that a hold-up check run for it would measure at HOLDUP_SENSE, in µV (R468). -/
structure Cmd where
  slot : Nat
  op : Nat
  noIrq : Bool
  force : Bool
  clear : Bool
  rdest : Bool
  rsv : Nat
  seq : Nat
  ps : List Nat
  ext : Nat
  s0 : Nat
  s1 : Nat
  deriving DecidableEq, Repr

/-- Parameter word n. -/
def Cmd.p (c : Cmd) (n : Nat) : Nat := c.ps.getD n 0

/-- Bits [hi:lo] of parameter word n. -/
def Cmd.b (c : Cmd) (n hi lo : Nat) : Nat := bits (c.p n) hi lo

/-- Parameter words n and n + 1 as one 64-bit value. -/
def Cmd.q (c : Cmd) (n : Nat) : Nat := c.p n + c.p (n + 1) * 2 ^ 32

/-- What a command answers: a completion code, a ticket with ACCEPTED, and result words (Table 12.7). -/
structure Reply where
  code : Code
  ticket : Nat := 0
  res : List Nat := []
  deriving DecidableEq, Repr

/-- How firmware carries out one opcode: the device mode it needs (0 any, 1 native, 2 compatibility), the bits each of
its parameter words defines, the range checks, and the effect. -/
structure CmdDef where
  op : Nat
  mode : Nat := 0
  masks : Cmd → List Nat := fun _ => []
  bad : Cmd → State → Bool := fun _ _ => false
  run : Cmd → State → Reply × State

/-- A command that only changes the device, lifted. -/
def onDev (f : Cmd → State → Reply × Dev) (c : Cmd) (s : State) : Reply × State :=
  ((f c s).1, { s with dev := (f c s).2 })

/-- OK with result words. -/
def okR {α : Type} (ws : List Nat) (x : α) : Reply × α := ({ code := .ok, res := ws }, x)

/-- A refusal that changes nothing. -/
def noR {α : Type} (k : Code) (x : α) : Reply × α := ({ code := k }, x)

/-- The first failing check of a list decides the code; otherwise the command goes on. -/
def checks {α : Type} (cs : List (Bool × Code)) (x : α) (go : Reply × α) : Reply × α :=
  match cs.find? (·.1) with
  | some (_, k) => noR k x
  | none => go

/-- A command accepted as a job, or NO_RESOURCE (R365, R369). The change `pre` is made with the acceptance. -/
def asJob (c : Cmd) (d : Dev) (unit : Nat) (needArea : Bool) (pre : Nat → Dev → Dev := fun _ e => e) : Reply × Dev :=
  match d.acceptJob c.op c.ps unit needArea c.clear c.force with
  | none => noR .noResource d
  | some (i, d1) => ({ code := .accepted, ticket := d1.ticket i }, pre i d1)

/-- The slot number of the SMBus mailbox. -/
def SMB_SLOT : Nat := 32

/-- Word i of the command in a slot (Table 12.6, R378). -/
def Dev.slotWord (d : Dev) (slot i : Nat) : Nat :=
  if slot < 32 then d.rdN (MB_WORD (64 * slot + i)) else if i < 16 then d.rdN (SMB_MB i) else 0

/-- The command a slot holds. -/
def Dev.readCmd (d : Dev) (slot s0 s1 : Nat) : Cmd :=
  let w := d.slotWord slot 0
  { slot := slot, op := bits w 15 0, noIrq := bit w 16, force := bit w 17, clear := bit w 18, rdest := bit w 19,
    rsv := bits w 23 20, seq := bits w 31 24, ps := (List.range 62).map fun i => d.slotWord slot (i + 1),
    ext := if slot < 32 then d.rdN (EXT_WORD (256 * slot)) + d.rdN (EXT_WORD (256 * slot + 1)) * 2 ^ 32 else 0,
    s0 := s0, s1 := s1 }

/-- Opcodes served by firmware state (Table 12.9): `none` where the mailbox is not served. -/
def served (fw op : Nat) : Option Bool :=
  if fw = FW_RESTORE ∨ fw = FW_TRAIN then some ([0x0101, 0x0102, 0x0103, 0x0A01, 0x0C01, 0x0C04].contains op)
  else if fw = FW_READY ∨ fw = FW_RUN ∨ fw = FW_DEGRADED then some true
  else if fw = FW_HALTED then some ([0x0101, 0x0102, 0x010B, 0x0C05].contains op)
  else none

/-- Whether a completion can be written now: the state serves the mailbox, and firmware runs (R361, R367); in HALTED the boot ROM
serves it, but not where TEST_EN keeps it to QDP (R490). -/
def Dev.mailServed (d : Dev) : Bool :=
  (served d.fwState 0).isSome && (if d.fwState = FW_HALTED then !d.tap.testEn else !d.fwStuck)

/-- An address of RDEST is 8-byte aligned, 48 bits wide and in HBM, DDR or the outbound window (R364). -/
def rdestBad (d : Dev) (a : Nat) : Bool :=
  a % 8 != 0 || a ≥ 2 ^ 48 ||
    match (d.route a).1 with
    | .hbm | .ddr | .out => false
    | _ => true

/-- Opcodes the SMBus port accepts (R378). -/
def smbOpcodes : List Nat := [0x0101, 0x0102, 0x0A01, 0x0B01, 0x0B03, 0x0B06, 0x0C04, 0x0D02]

/-- A reserved bit is set in a word the command defines. -/
def rsvSet (c : Cmd) (masks : List Nat) : Bool :=
  masks.zipIdx.any fun (m, i) => c.p i % 2 ^ 32 &&& (0xFFFFFFFF ^^^ m) != 0

/-- Firmware carries out a command under the order of R365: port and opcode, device mode, reserved bits and ranges,
firmware state, then the command's own checks and effect. -/
def carryOut (df : CmdDef) (c : Cmd) (s : State) : Reply × State :=
  if c.slot == SMB_SLOT && !smbOpcodes.contains df.op then noR .badOpcode s
  else if df.mode == 1 && s.dev.compat then noR .nativeOnly s
  else if df.mode == 2 && !s.dev.compat then noR .compatOnly s
  else if c.rsv != 0 || rsvSet c (df.masks c) || (c.rdest && (c.slot == SMB_SLOT || rdestBad s.dev c.ext)) || df.bad c s then
    noR .badParam s
  else if served s.dev.fwState df.op != some true then noR .badState s
  else df.run c s

/-- 32-bit words put into registers from an address upward, four bytes apart. -/
def Dev.wrWords (d : Dev) : Nat → List Nat → Dev
  | _, [] => d
  | a, w :: ws => (d.wrN a (w % 2 ^ 32)).wrWords (a + 4) ws

/-- The completion of a command and the release of its slot (R363, R364, R378): results in the completion slot and the
extension, the copy of RDEST, the DOORBELL bit cleared and CPL_STAT set in one step, vector 0 unless NO_IRQ; for the SMBus port
SMB_ALERT_N (R487). -/
def finish (c : Cmd) (r : Reply) (s : State) : State :=
  let bytes := wordsToBytes r.res
  let w := if c.rdest && !bytes.isEmpty then memWrite s.dev s.mem c.ext bytes false else (true, s.mem)
  let code := if w.1 then r.code else Code.partialDone
  let rlen := min bytes.length 32767
  let trunc := b2n (decide (rlen > 1080) && !c.rdest)
  let w0 := c.op % 2 ^ 16 + code.num * 2 ^ 16 + c.seq % 2 ^ 8 * 2 ^ 24
  let w1 := r.ticket % 2 ^ 16 + rlen * 2 ^ 16 + trunc * 2 ^ 31
  let d := s.dev
  let d1 :=
    if c.slot < 32 then
      let e := (d.wrWords (CPL_WORD (16 * c.slot)) (w0 :: w1 :: r.res.take 14)).wrWords (EXT_WORD (256 * c.slot))
        ((r.res.drop 14).take 256)
      let e1 := (e.wrN DOORBELL (e.rdN DOORBELL &&& (0xFFFFFFFF ^^^ 2 ^ c.slot))).wrN CPL_STAT
        (e.rdN CPL_STAT ||| 2 ^ c.slot)
      if c.noIrq then e1 else e1.cause 0
    else
      let e := (d.wrWords (SMB_CPL 0) (w0 :: w1 :: r.res.take 14)).wrN SMB_DB 0
      { e with host := { e.host with smbAlert := true } }
  let d2 := { d1 with host := { d1.host with fwq := d1.host.fwq.filter (· != c.slot) } }
  let d3 := if c.op == 0x010B && r.code == .ok then { d2 with host := { d2.host with sysReset := true } } else d2
  { s with mem := w.2, dev := d3 }

/-- A table that a command reads from a system address (R520): BAD_PARAM for an error response, POISONED for poison. -/
def readTable (d : Dev) (m : Mem) (a n : Nat) : Except Code (List Nat) :=
  if n = 0 then .ok []
  else if a ≥ 2 ^ 48 ∨ (d.route a).1 ≠ (d.route (a + n - 1)).1 then .error .badParam
  else
    let r := memRead d m a n
    if r.kind ≠ .ok then .error .badParam else if r.poison then .error .poisoned else .ok r.data

/-- Little-endian number of n bytes at an offset of a byte list. -/
def at' (bs : List Nat) (off n : Nat) : Nat := leNat ((bs.drop off).take n)

/-- A job ends with result words in its area (R371): COUNT gives their bytes. -/
def jobResult (i : Nat) (code : Code) (ws : List Nat) (s : State) : State :=
  let bs := wordsToBytes ws
  match (s.dev.job i).area with
  | some k => { s with mem := s.mem.wr (s.dev.areaAddr k) bs,
                       dev := (s.dev.setJob i { s.dev.job i with bytes := bs.length }).endJob i code bs.length }
  | none => { s with dev := s.dev.endJob i code 0 }

/-- Firmware takes up the slot at the front of the doorbell order when it holds this opcode (R366). -/
def serve (df : CmdDef) (slot s0 s1 : Nat) (s : State) : State :=
  let c := s.dev.readCmd slot s0 s1
  if s.dev.host.fwq.head? == some slot && slot ≤ SMB_SLOT && c.op == df.op && s.dev.mailServed then
    let r := carryOut df c s
    finish c r.1 r.2
  else s

end Sys2Proof.Machine
end

