-- ==== Sys2Proof/Machine/Ecc.lean ====
section
/-!
DEFINITION. Error correction: the table of corrected addresses of each memory class, corrections and uncorrectable errors
of reads, and the merges of partial writes (13_integrity R382 to R389).
-/
namespace Sys2Proof.Machine

/-- An entry of EC_TAB (chapter 13). -/
structure EcEntry where
  addr : Nat
  state : Nat
  after : Nat
  count : Nat
  first : Nat
  last : Nat
  deriving DecidableEq, Repr

/-- States of an entry. -/
def EC_LOGGED : Nat := 1
def EC_REWRITTEN : Nat := 2
def EC_HARD : Nat := 3
def EC_SPARED : Nat := 4
def EC_UNSPARABLE : Nat := 5
def EC_POISONED : Nat := 6

/-- Entry e of class k. -/
def Dev.ecEntry (d : Dev) (k e : Nat) : EcEntry :=
  let a := d.rdN (EC_TAB k e 0)
  let b := d.rdN (EC_TAB k e 1)
  { addr := bits a 47 0, state := bits a 50 48, after := bits a 52 51, count := bits a 63 56, first := bits b 31 0,
    last := bits b 63 32 }

/-- The device with entry e of class k replaced. -/
def Dev.setEc (d : Dev) (k e : Nat) (x : EcEntry) : Dev :=
  (d.wrN (EC_TAB k e 0) (x.addr % 2 ^ 48 + x.state * 2 ^ 48 + x.after * 2 ^ 51 + x.count * 2 ^ 56)).wrN (EC_TAB k e 1)
    (x.first % 2 ^ 32 + x.last % 2 ^ 32 * 2 ^ 32)

/-- The entry of an address. -/
def Dev.ecFind (d : Dev) (k a : Nat) : Option Nat :=
  (List.range 32).find? fun e => let x := d.ecEntry k e; x.state != 0 && x.addr == a

/-- The entry of least measure among those a test admits. -/
def Dev.ecLeast (d : Dev) (k : Nat) (ok : EcEntry → Bool) (m : EcEntry → Nat) : Option Nat :=
  (List.range 32).foldl
    (fun (acc : Option Nat) e =>
      let x := d.ecEntry k e
      if !ok x then acc
      else match acc with
        | none => some e
        | some f => if m x < m (d.ecEntry k f) then some e else acc) none

/-- The place a new address takes: an empty entry, the oldest SPARED one, or the LOGGED or REWRITTEN one of lowest COUNT
(R386). -/
def Dev.ecPlace (d : Dev) (k : Nat) : Option Nat :=
  match (List.range 32).find? fun e => (d.ecEntry k e).state == 0 with
  | some e => some e
  | none =>
    match d.ecLeast k (fun x => x.state == EC_SPARED) EcEntry.first with
    | some e => some e
    | none => d.ecLeast k (fun x => x.state == EC_LOGGED || x.state == EC_REWRITTEN) fun x => x.count * 2 ^ 32 + x.last

/-- An ERRC event of a class: INST is the class, INFO the syndrome, which is free, and the entry's state (R396). -/
def Dev.raiseEc (d : Dev) (code k a state : Nat) : Dev := (d.raise code k a (d.free % 2 ^ 16 + state * 2 ^ 16)).drew

/-- A correction at an address: CE counts it and its entry is found or made (R386); the third one after a rewrite makes the
entry HARD (R387). -/
def Dev.ecCorrected (d : Dev) (k a : Nat) : Dev :=
  let d1 := ({ d with scrub := { d.scrub with ce := d.scrub.ce + 1 } } : Dev).cntF (EC_CNT k) LO32 1
  match d1.ecFind k a with
  | some e =>
    let x := d1.ecEntry k e
    let y := { x with count := min 255 (x.count + 1), last := d.todSec }
    if x.state ≠ EC_REWRITTEN then d1.setEc k e y
    else if x.after + 1 < 3 then d1.setEc k e { y with after := x.after + 1 }
    else (d1.setEc k e { y with after := 3, state := EC_HARD }).raiseEc 0x0B01 k a EC_HARD
  | none =>
    match d1.ecPlace k with
    | some e => d1.setEc k e { addr := a, state := EC_LOGGED, after := 0, count := 1, first := d.todSec, last := d.todSec }
    | none => d1.cntF (EC_CTRL k) EC_CTRL_TAB_OVF 1

/-- An uncorrectable error at an address: UE counts it, its entry becomes POISONED and ERRC is told (R389). -/
def Dev.ecBad (d : Dev) (k a : Nat) : Dev :=
  let d1 := ({ d with scrub := { d.scrub with ue := d.scrub.ue + 1 } } : Dev).cntF (EC_CNT k) HI32 1
  let e := match d1.ecFind k a with | some e => some e | none => d1.ecPlace k
  let d2 := match e with
    | some e =>
      let x := d1.ecEntry k e
      let old := x.state != 0 && x.addr == a
      d1.setEc k e { addr := a, state := EC_POISONED, after := 0, count := if old then x.count else 0,
                     first := if old then x.first else d.todSec, last := d.todSec }
    | none => d1.cntF (EC_CTRL k) EC_CTRL_TAB_OVF 1
  d2.raiseEc 0x0B02 k a EC_POISONED

/-- A granule of class k has been written back with good data: a LOGGED entry of it becomes REWRITTEN, but in class 0 (R387). -/
def Dev.ecRewritten (d : Dev) (k a : Nat) : Dev :=
  match d.ecFind k a with
  | some e =>
    let x := d.ecEntry k e
    if x.state = EC_LOGGED ∧ k ≠ 0 then d.setEc k e { x with state := EC_REWRITTEN, after := 0 } else d
  | none => d

/-- Granules whose stored error a port's access meets: the addresses with what the environment asserts about them (1 corrected,
2 not), put into storage before the access. -/
def Mem.upset (m : Mem) (ecc : List (Nat × Nat)) : Mem :=
  ecc.foldl (fun q (a, v) => let g := a / granule a * granule a; q.setSoft (memClass g) g (max (q.softAt (memClass g) g) (v % 3))) m

/-- What a read of one granule costs: a correction, an uncorrectable error, after which the scrubber writes the granule back as
poison, or a read of stored poison (R384, R386, R389). -/
def eccRead1 (x : Dev × Mem) (g : Nat) : Dev × Mem :=
  let k := memClass g
  match x.2.softAt k g with
  | 1 => (x.1.ecCorrected k g, x.2)
  | 2 => (x.1.ecBad k g, if k = 0 then x.2 else x.2.mark g true)
  | _ => if x.2.poisonAt g then (x.1.cntF (EC_PRD k) LO32 1, x.2) else x

/-- What a read of a range costs, granule by granule. -/
def eccRead (x : Dev × Mem) (a n : Nat) : Dev × Mem := (granulesOf a n).foldl eccRead1 x

/-- What a write of a range costs: a write that covers a granule rewrites it (R387), and one that does not is merged, its read
treated as any other, and a merge over poison enters an uncorrected error (R383). -/
def eccWrite (x : Dev × Mem) (a n : Nat) (psn : Bool) : Dev × Mem :=
  (granulesOf a n).foldl
    (fun x g =>
      let k := memClass g
      if a ≤ g ∧ g + granule a ≤ a + n then (if psn then x else (x.1.ecRewritten k g, x.2))
      else
        let had := x.2.softAt k g != 2 && x.2.poisonAt g
        let y := eccRead1 (x.1.cntF (EC_PRD k) HI32 1, x.2) g
        if had then (y.1.raiseEc 0x0B02 k g EC_POISONED, y.2) else y) x

end Sys2Proof.Machine
end

