-- ==== Sys2Proof/Machine/Float.lean ====
section
/-!
DEFINITION. IEEE 754 binary16, binary32 and binary64 arithmetic, each operation computed exactly and rounded once to
nearest with ties to even, and integers held as binary32 (05_accumulation R161, 03_front R94 and R113, 06_beams R192).
-/
namespace Sys2Proof.Machine

/-- A format: exponent bits and fraction bits. -/
structure FFmt where
  eb : Nat
  mb : Nat
  deriving DecidableEq, Repr

def f16 : FFmt := ⟨5, 10⟩
def f32 : FFmt := ⟨8, 23⟩
def f64 : FFmt := ⟨11, 52⟩

/-- A value: not a number, an infinity, or m · 2^e with a sign. -/
inductive FV where
  | nan
  | inf (neg : Bool)
  | fin (neg : Bool) (m : Nat) (e : Int)
  deriving DecidableEq, Repr

/-- The exponent bias. -/
def FFmt.bias (f : FFmt) : Int := 2 ^ (f.eb - 1) - 1

/-- The quiet NaN of a format. -/
def FFmt.qnan (f : FFmt) : Nat := (2 ^ f.eb - 1) * 2 ^ f.mb + 2 ^ (f.mb - 1)

/-- The value a bit pattern stands for. -/
def fdec (f : FFmt) (x : Nat) : FV :=
  let neg := bit x (f.eb + f.mb)
  let e := x / 2 ^ f.mb % 2 ^ f.eb
  let m := x % 2 ^ f.mb
  if e = 2 ^ f.eb - 1 then (if m = 0 then .inf neg else .nan)
  else if e = 0 then .fin neg m (1 - f.bias - f.mb)
  else .fin neg (m + 2 ^ f.mb) (e - f.bias - f.mb)

/-- A quotient of naturals rounded to nearest, ties to even. -/
def rneDiv (m d : Nat) : Nat :=
  let q := m / d
  let r := m % d
  if 2 * r < d then q else if 2 * r > d then q + 1 else q + q % 2

/-- A value rounded to nearest even into a format; `sticky` says that m stands for something slightly above m. -/
def fenc (f : FFmt) (v : FV) (sticky : Bool := false) : Nat :=
  match v with
  | .nan => f.qnan
  | .inf neg => b2n neg * 2 ^ (f.eb + f.mb) + (2 ^ f.eb - 1) * 2 ^ f.mb
  | .fin neg m0 e0 =>
    let s := b2n neg * 2 ^ (f.eb + f.mb)
    if m0 = 0 then s
    else
      let m := m0 * 4 + b2n sticky
      let e := e0 - 2
      let top : Int := (m.log2 : Int) + e
      let lsb : Int := max (top - f.mb) (1 - f.bias - f.mb)
      let q := if lsb ≤ e then m * 2 ^ (e - lsb).toNat else rneDiv m (2 ^ (lsb - e).toNat)
      let body : Int := (lsb + f.bias + f.mb - 1) * 2 ^ f.mb + q
      if body ≥ (2 ^ f.eb - 1) * 2 ^ f.mb then s + (2 ^ f.eb - 1) * 2 ^ f.mb else s + body.toNat

/-- The sum of two finite values, exactly; a zero sum is positive unless both terms are negative. -/
def finAdd (n1 : Bool) (m1 : Nat) (e1 : Int) (n2 : Bool) (m2 : Nat) (e2 : Int) : FV :=
  let e := min e1 e2
  let a : Int := (m1 * 2 ^ (e1 - e).toNat : Nat)
  let b : Int := (m2 * 2 ^ (e2 - e).toNat : Nat)
  let s := (if n1 then -a else a) + (if n2 then -b else b)
  if s = 0 then .fin (n1 && n2) 0 0 else .fin (decide (s < 0)) s.natAbs e

/-- Floating addition on values. -/
def fvAdd (a b : FV) : FV :=
  match a, b with
  | .nan, _ | _, .nan => .nan
  | .inf s, .inf t => if s = t then .inf s else .nan
  | .inf s, _ => .inf s
  | _, .inf t => .inf t
  | .fin n1 m1 e1, .fin n2 m2 e2 => finAdd n1 m1 e1 n2 m2 e2

/-- Negation on values. -/
def fvNeg : FV → FV
  | .nan => .nan
  | .inf s => .inf (!s)
  | .fin s m e => .fin (!s) m e

/-- Floating multiplication on values. -/
def fvMul (a b : FV) : FV :=
  match a, b with
  | .nan, _ | _, .nan => .nan
  | .inf s, .inf t => .inf (s != t)
  | .inf s, .fin t m _ => if m = 0 then .nan else .inf (s != t)
  | .fin s m _, .inf t => if m = 0 then .nan else .inf (s != t)
  | .fin s m e, .fin t n g => .fin (s != t) (m * n) (e + g)

/-- a + b rounded once. -/
def fadd (f : FFmt) (a b : Nat) : Nat := fenc f (fvAdd (fdec f a) (fdec f b))

/-- a − b rounded once. -/
def fsub (f : FFmt) (a b : Nat) : Nat := fenc f (fvAdd (fdec f a) (fvNeg (fdec f b)))

/-- a · b rounded once. -/
def fmul (f : FFmt) (a b : Nat) : Nat := fenc f (fvMul (fdec f a) (fdec f b))

/-- a / b rounded once. -/
def fdiv (f : FFmt) (a b : Nat) : Nat :=
  match fdec f a, fdec f b with
  | .nan, _ | _, .nan => f.qnan
  | .inf _, .inf _ => f.qnan
  | .inf s, .fin t _ _ => fenc f (.inf (s != t))
  | .fin s _ _, .inf t => fenc f (.fin (s != t) 0 0)
  | .fin s m e, .fin t n g =>
    if n = 0 then (if m = 0 then f.qnan else fenc f (.inf (s != t)))
    else
      let k := 2 * f.mb + 4
      fenc f (.fin (s != t) (m * 2 ^ k / n) (e - k - g)) (m * 2 ^ k % n != 0)

/-- An integer rounded into a format. -/
def fofInt (f : FFmt) (x : Int) : Nat := fenc f (.fin (decide (x < 0)) x.natAbs 0)

/-- A pattern of one format converted to another, rounded once. -/
def fcvt (f g : FFmt) (x : Nat) : Nat := fenc g (fdec f x)

/-- a < b for numbers. -/
def flt (f : FFmt) (a b : Nat) : Bool :=
  match fvAdd (fdec f a) (fvNeg (fdec f b)) with
  | .fin s m _ => s && m != 0
  | .inf s => s
  | .nan => false

/-- A value times 2^k rounded to an integer, ties to even; NaN and infinities give none. -/
def fvToInt (v : FV) (k : Int) : Option Int :=
  match v with
  | .fin s m e =>
    let x := e + k
    let q : Nat := if x ≥ 0 then m * 2 ^ x.toNat else rneDiv m (2 ^ (-x).toNat)
    some (if s then -(q : Int) else q)
  | _ => none

/-- The integer that a binary32 pattern of an integer stands for (R161). -/
def f32Int (x : Nat) : Int := (fvToInt (fdec f32 x) 0).getD 0

/-- fl32 of an integer (R161). -/
def fl32 (v : Int) : Nat := fofInt f32 v

/-- The poison and scorch sentinels of a long accumulator (R165). -/
def NAN_POISON : Nat := 0x7FC00001
def NAN_SCORCH : Nat := 0x7FC00002

end Sys2Proof.Machine
end

