-- ==== Sys2Proof/Machine/Sample.lean ====
section
/-!
DEFINITION. The sample path: the expected spectrum number, the plan of a run, the HBM budget, and the alignment of
received spectra into the batch ring (01_sample_path R24 to R33, R44, R48; 04_tiles R141 to R145).
-/
namespace Sys2Proof.Machine

/-- The expected SPN E(t) of a run at the present time of day (R25): the whole spectrum periods since the epoch. -/
def Dev.expSpn (d : Dev) : Nat :=
  let p := d.run.par
  let ep := (p.epochS * 10 ^ 9 + p.epochNs) * 2 ^ 40
  (d.tod - ep) * 1000 / (2 ^ 24 * p.period)

/-- A 48-bit SPN extended to the 64-bit value nearest a reference (R24). -/
def extend48 (ref x : Nat) : Nat := wrapN 64 ((ref : Int) + serialDiff x ref 48)

/-- The timing state sets the HOLDOVER flags (Table 9.3). -/
def Dev.inHoldover (d : Dev) : Bool := [0x00, 0x05, 0x06, 0x0F].contains (d.f TIM_STAT TIM_STAT_STATE)

/-- A batch is open: a run is active (R2). -/
def Dev.batchOpen (d : Dev) : Bool := d.run.active

/-! The plan (R141 to R145). -/

/-- Slots an item takes in each course: 1 in C4, 2 in C8; also the bytes of a sample. -/
def fmtW (c8 : Bool) : Nat := if c8 then 2 else 1

/-- Input groups of 128. -/
def groups (n : Nat) : Nat := ceilDiv n 128

/-- Blocks of n input groups (R130). -/
def blocksOf (n : Nat) : Nat := groups n * (groups n + 1) / 2

/-- The largest number of open channels (R141), zero when none meets the rule; a nonzero K_REQ lowers it. -/
def openChannels (n : Nat) (c8 : Bool) (nch kReq : Nat) : Nat :=
  let m := fmtW c8
  let k := min (min 256 nch) (min (768 / (m * blocksOf n)) (65536 / (128 * groups n * m)))
  if kReq = 0 then k else min k kReq

/-- The plan of Table 4.10. -/
structure Plan where
  k : Nat
  c : Nat
  cLast : Nat
  passes : Nat
  depth : Nat
  need : Nat
  avail : Nat
  tileKhz : Nat
  laneKhz : Nat
  slotUse : Nat
  deriving DecidableEq, Repr

/-- The plan for given parameters (R141 to R145, R153): `avail` cycles of a spectrum, the tile clock in MHz, and the lane
payload in units of 10 Mb/s. -/
def planOf (n : Nat) (c8 : Bool) (nch kReq avail mhz payload : Nat) : Plan :=
  let k := openChannels n c8 nch kReq
  let m := fmtW c8
  let k1 := max k 1
  let c := ceilDiv (m * k1 * blocksOf n) 64
  let passes := ceilDiv nch k1
  let cl := ceilDiv (m * (nch - (passes - 1) * k1) * blocksOf n) 64
  { k := k, c := c, cLast := cl, passes := passes, depth := 0x2000000 / (k1 * 128 * groups n * 256 * m),
    need := m * ((passes - 1) * c + cl), avail := avail, tileKhz := min (mhz * 1000 * k1 / (m * c)) 0xFFFFFFFF,
    laneKhz := min (payload * 10000 / (8 * m * n)) 0xFFFFFFFF, slotUse := 10000 * m * k1 * blocksOf n / (64 * c) }

/-- Result words 0 to 6 of Table 4.10. -/
def Plan.words (p : Plan) : List Nat :=
  [p.k + min p.c 15 * 2 ^ 9 + min p.cLast 15 * 2 ^ 13, p.passes + min p.depth 0x7FFF * 2 ^ 17, p.need, p.avail, p.tileKhz,
   p.laneKhz, p.slotUse]

/-- Slots per tile of pass p (R145). -/
def passSlots (r : RunPar) (pass : Nat) : Nat :=
  if (pass + 1) * r.k < r.nch then r.c else r.cLast

/-- Passes of a batch. -/
def RunPar.passes (r : RunPar) : Nat := ceilDiv r.nch r.k

/-- Courses of a batch in one pass. -/
def RunPar.courses (r : RunPar) : Nat := r.t / 256

/-- Products of one channel. -/
def RunPar.prods (r : RunPar) : Nat := r.n * (r.n + 1) / 2

/-- Number of the product of inputs i ≤ j (R175). -/
def prodIx (n i j : Nat) : Nat := i * n - i * (i - 1) / 2 + (j - i)

/-- Dump images held (R167). -/
def ndb (nint : Nat) : Nat := if nint = 1 then 2 else 1

/-- Bytes of a product in a dump format (Table 5.4). -/
def prodBytes (dfmt : Nat) : Nat := if dfmt = 1 then 20 else 12

/-- The HBM regions of a run in bytes (Tables 1.7 and 5.8): ring, long accumulators, dump buffer, accounting, received
counters, item flags. -/
def runRegions (p : RunPar) (nint : Nat) : List Nat :=
  let m := fmtW p.c8
  [(2 * p.t + p.w) * p.nch * (128 * groups p.n) * m, p.nch * p.prods * 20, ndb nint * p.nch * p.prods * prodBytes p.dfmt,
   2 * p.nch * p.n * 16, 6 * p.nch * p.n * 4, ceilDiv (2 * p.nch * m * blocksOf p.n) (8 * 4096) * 4096]

/-- A rate of x bytes per spectrum period, in bytes per second. -/
def perSpectrum (p : RunPar) (x : Nat) : Nat := x * 10 ^ 12 * 2 ^ 16 / p.period

/-- Corner-turn, staging and promotion traffic of a run in bytes per second (Table 1.8); `promo` times the promotion. -/
def runDemand (p : RunPar) (promo : Nat) : Nat :=
  2 * perSpectrum p (p.n * p.nch * fmtW p.c8) + promo * perSpectrum p (2 * p.nch * p.prods * 20) / p.t

/-! Alignment (R26 to R33). -/

/-- Whether a sample code carries the native blank code (R13). -/
def isBlank (c8 : Bool) (v : Nat) : Bool :=
  if c8 then v % 256 == 0x80 || v / 256 % 256 == 0x80 else v % 16 == 8 || v / 16 % 16 == 8

/-- The real and imaginary parts of a sample code (Table 0.3). -/
def codeParts (c8 : Bool) (v : Nat) : Int × Int :=
  if c8 then (sext 8 v, sext 8 (v / 256)) else (sext 4 (v / 16), sext 4 v)

/-- The key of a slot of the batch ring. -/
def ringKey (p : RunPar) (off ch i : Nat) : Nat := (off * p.nch + ch) * 4096 + i

/-- The slot of a sample: 0 empty, otherwise its code plus one; 70000 marks poison. -/
def Run.slotAt (r : Run) (off ch i : Nat) : Nat := tget (fun _ => 0) r.ring (ringKey r.par off ch i)

/-- What alignment found in a frame: any part duplicate, late or early (R32). -/
structure AlignRes where
  dup : Bool := false
  late : Bool := false
  early : Bool := false
  /-- One more than the highest SPN placed; zero for none. -/
  top : Nat := 0
  deriving DecidableEq, Repr

/-- A received slot is counted on its side of an inner barrier (R174). -/
def Run.countRecv (r : Run) (off ch i : Nat) : Run :=
  let b := off / r.par.t
  let jb := tget (fun _ => 0) r.inner b
  let side := if jb ≠ 0 ∧ (off % r.par.t) / 256 ≥ jb - 1 then 1 else 0
  let key := ((b * 2 + side) * r.par.nch + ch) * 4096 + i
  { r with recv := tset (fun _ => 0) r.recv key (tget (fun _ => 0) r.recv key + 1) }

/-- One sample offered to the ring: early outside the window, late once its batch has closed, duplicate when its slot is
filled, and placed otherwise (R27, R30, R32). A slot 2T + W spectra lower is reused. `full` says that the blank code is a
value (DC-512 full range). -/
def placeOne (full : Bool) (spn ch i v : Nat) (x : Run × AlignRes) : Run × AlignRes :=
  let r := x.1
  let p := r.par
  if ch < p.chBase ∨ ch ≥ p.chBase + p.nch ∨ i ≥ p.n then x
  else if spn < p.s0 then (r, { x.2 with early := true })
  else
    let off := spn - p.s0
    let c := ch - p.chBase
    if off / p.t < r.closed then (r, { x.2 with late := true })
    else if off > r.released + (2 * p.t + p.w) - 1 then (r, { x.2 with early := true })
    else if r.slotAt off c i ≠ 0 then (r, { x.2 with dup := true })
    else
      let ring := tset (fun _ => 0) r.ring (ringKey p off c i) (v + 1)
      let r1 := { r with ring := if off ≥ 2 * p.t + p.w then tset (fun _ => 0) ring (ringKey p (off - (2 * p.t + p.w)) c i) 0 else ring }
      (if full || !isBlank p.c8 v then r1.countRecv off c i else r1, { x.2 with top := max x.2.top (spn + 1) })

/-- A frame of spectra handed to alignment: 2^logNs spectra of 2^logNc channels of 2^logNi inputs, ordered spectrum,
channel, input (R59). A frame with MISSING set places nothing (R60). -/
def Dev.align (d : Dev) (missing : Bool) (num i0 logNi c0 logNc : Nat) (vals : List Nat) : Dev × AlignRes :=
  if missing || !d.run.active then (d, {})
  else
    let base := extend48 d.expSpn num
    let ni := 2 ^ logNi
    let nc := 2 ^ logNc
    let r := vals.zipIdx.foldl
      (fun x (v, k) => placeOne d.compat ((base + k / (ni * nc)) % 2 ^ 64) (c0 + k / ni % nc) (i0 + k % ni) v x) (d.run, {})
    ({ d with run := r.1, cap := { d.cap with newest := max d.cap.newest r.2.top } }, r.2)

/-- Pairs of bytes as little-endian numbers. -/
def bytePairs : List Nat → List Nat
  | a :: b :: r => (a % 256 + b % 256 * 256) :: bytePairs r
  | _ => []

/-- Sample codes of a payload: one byte each in C4, two in C8 (Table 0.3). -/
def payloadCodes (c8 : Bool) (bs : List Nat) : List Nat := if c8 then bytePairs bs else bs.map (· % 256)

/-- What staging delivers of a slot: its parts and valid bit, and its poison mark (R124, R136). Unfilled slots were
zero-filled at batch close. -/
def Dev.sampleOf (d : Dev) (off ch i : Nat) : Int × Int × Bool × Bool :=
  let v := d.run.slotAt off ch i
  if i ≥ d.run.par.n ∨ v = 0 then (0, 0, d.compat && i < d.run.par.n, false)
  else if v = 70000 then (0, 0, true, true)
  else if isBlank d.run.par.c8 (v - 1) && !d.compat then (0, 0, false, false)
  else
    let q := codeParts d.run.par.c8 (v - 1)
    (q.1, q.2, true, false)

end Sys2Proof.Machine
end

