-- ==== Sys2Proof/Machine/Tiles.lean ====
section
/-!
DEFINITION. Tiles: the correlation cells, contexts and slots, the scorch guard and mirror check, the bond table, audits and
tuckpointing, and the scheduling commands (chapter 4, R123 to R154, with R411).
-/
namespace Sys2Proof.Machine

/-! The bond table (R137 to R139). -/

/-- Role of a tile: 0 active, 1 reserve, 2 retired; 3 acts as 2 (XC_TSTAT). -/
def Dev.tileRole (d : Dev) (t : Nat) : Nat := min 2 (d.f (XC_TSTAT t) XC_TSTAT_ROLE)

/-- The active tile that holds a position (R139). -/
def Dev.tileAt (d : Dev) (pos : Nat) : Option Nat :=
  (List.range 68).find? fun t => d.tileRole t == 0 && d.f (XC_TSTAT t) XC_TSTAT_POS == pos

/-- The bond-table copy in use (XC_CTRL.BT_ACTIVE). -/
def Dev.btCopy (d : Dev) : Nat := d.f XC_CTRL XC_CTRL_BT_ACTIVE

/-- A bond-table entry as it stands. -/
def Dev.btEntry (d : Dev) (copy t s : Nat) : Nat := d.rdN (BT_ENTRY copy t s)

/-- The item of an entry: channel within the pass, block row, block column and half (Table 4.6). -/
structure Item where
  ch : Nat
  row : Nat
  col : Nat
  half : Nat
  deriving DecidableEq, Repr

/-- The item an entry holds, none where it is not valid. -/
def entryItem (e : Nat) : Option Item :=
  if bit e 0 then some { ch := bits e 8 1, row := bits e 13 9, col := bits e 18 14, half := bits e 19 19 } else none

/-- Index of a block among n groups (R130). -/
def blkIx (n r c : Nat) : Nat := r * n - r * (r - 1) / 2 + (c - r)

/-- The number of an item in the default layout (R139). -/
def itemNo (p : RunPar) (i : Item) : Nat :=
  let g := groups p.n
  let b := i.ch * blocksOf p.n + blkIx g i.row i.col
  if p.c8 then 2 * b + i.half else b

/-- Row and column of a block index. -/
def blkRC (n blk : Nat) : Nat × Nat :=
  ((List.range n).foldl
    (fun (acc : Option (Nat × Nat) × Nat) r =>
      match acc.1 with
      | some x => (some x, acc.2)
      | none => if acc.2 < n - r then (some (r, r + acc.2), acc.2) else (none, acc.2 - (n - r))) (none, blk)).1.getD (0, 0)

/-- The entry of item q of a full pass (R139). -/
def defaultEntry (p : RunPar) (q : Nat) : Nat :=
  let m := fmtW p.c8
  let b := q / m
  let rc := blkRC (groups p.n) (b % blocksOf p.n)
  1 + b / blocksOf p.n * 2 + rc.1 * 2 ^ 9 + rc.2 * 2 ^ 14 + (if p.c8 then q % 2 else 0) * 2 ^ 19

/-- Items of a full pass. -/
def RunPar.items (p : RunPar) : Nat := fmtW p.c8 * p.k * blocksOf p.n

/-- The default layout written into a copy (R139): item q at position q mod 64, slot q / 64. -/
def Dev.defaultBond (d : Dev) (p : RunPar) (copy : Nat) : Dev :=
  let cleared := (List.range 68).foldl
    (fun e t => (List.range 12).foldl (fun e s => e.wrN (BT_ENTRY copy t s) 0) e) d
  (List.range p.items).foldl
    (fun e q => match d.tileAt (q % 64) with
      | some t => e.wrN (BT_ENTRY copy t (q / 64)) (defaultEntry p q)
      | none => e) cleared

/-- What a table check finds: the tile, slot and rule broken (R154). -/
def bondCheck (d : Dev) (p : RunPar) (entry : Nat → Nat → Nat) : Option (Nat × Nat × Nat) :=
  let g := groups p.n
  let step := fun (acc : Option (Nat × Nat × Nat) × List Nat) (ts : Nat × Nat) =>
    match acc.1 with
    | some _ => acc
    | none =>
      let e := entry ts.1 ts.2
      if e / 2 ^ 20 ≠ 0 then (some (ts.1, ts.2, 5), acc.2)
      else match entryItem e with
      | none => acc
      | some i =>
        if i.col < i.row ∨ i.col ≥ g ∨ i.ch ≥ p.k then (some (ts.1, ts.2, 1), acc.2)
        else
          let q := itemNo p i
          if acc.2.contains q then (some (ts.1, ts.2, 1), acc.2)
          else if d.tileRole ts.1 ≠ 0 then (some (ts.1, ts.2, 2), acc.2)
          else if (List.range ts.2).any (fun s => !bit (entry ts.1 s) 0) then (some (ts.1, ts.2, 3), acc.2)
          else if ts.2 ≥ p.c then (some (ts.1, ts.2, 4), acc.2)
          else (none, q :: acc.2)
  let res := ((List.range 68).flatMap fun t => (List.range 12).map fun s => (t, s)).foldl step (none, [])
  match res.1 with
  | some x => some x
  | none =>
    match (List.range p.items).find? fun q => !res.2.contains q with
    | some q => some ((d.tileAt (q % 64)).getD 0x7F, q / 64, 1)
    | none => none

/-- The swap of bond-table copies at a batch boundary (R137). -/
def Dev.btSwapApply (d : Dev) : Dev :=
  if d.on XC_CTRL XC_CTRL_BT_PEND then
    (((d.setF XC_CTRL XC_CTRL_BT_ACTIVE (1 - d.btCopy)).setF XC_CTRL XC_CTRL_BT_PEND 0).setF XC_CTRL XC_CTRL_BT_SWAP
      0).cnt XC_BT_SWAPS 1
  else d

/-- A swap asked for; it reads back as BT_PEND, and a second request changes nothing (R137). -/
def Dev.btSwapReq (d : Dev) : Dev := (d.setF XC_CTRL XC_CTRL_BT_PEND 1).setF XC_CTRL XC_CTRL_BT_SWAP 1

/-- The reserve a tuckpointing takes: the lowest physical index (R150). -/
def Dev.nextReserve (d : Dev) : Option Nat := (List.range 68).find? fun t => d.tileRole t == 1

/-- The spare map follows the tile roles and positions. -/
def Dev.spareTiles (d : Dev) : Dev :=
  let m := (List.range 68).foldl
    (fun (x : Tbl Nat) t => tset (fun _ => 0xFFF) x t
      (let v := d.rdN (XC_TSTAT t) % 256; if v = regReset (XC_TSTAT t) then 0xFFF else v)) d.ret.spare.tiles
  { d with ret := { d.ret with spare := { d.ret.spare with tiles := m } } }

/-- Tuckpointing of an active tile (R150): its rows and position go to the lowest reserve in the inactive copy, its role
becomes retired, and the swap and a commit of the spare map are requested. None when no reserve is left. While an
earlier swap is pending it joins that swap; otherwise the inactive copy first takes the table in force. -/
def Dev.tuckTile (d : Dev) (t : Nat) : Option Dev :=
  match d.nextReserve with
  | none => none
  | some r =>
    let act := d.btCopy
    let ina := 1 - act
    let base := if d.on XC_CTRL XC_CTRL_BT_PEND then d
      else (List.range 68).foldl
        (fun e t => (List.range 12).foldl (fun e s => e.wrN (BT_ENTRY ina t s) (d.btEntry act t s)) e) d
    let moved := (List.range 12).foldl
      (fun e s => (e.wrN (BT_ENTRY ina r s) (base.btEntry ina t s)).wrN (BT_ENTRY ina t s) 0) base
    let d1 := (((moved.setF (XC_TSTAT r) XC_TSTAT_ROLE 0).setF (XC_TSTAT r) XC_TSTAT_POS
      (d.f (XC_TSTAT t) XC_TSTAT_POS)).setF (XC_TSTAT t) XC_TSTAT_ROLE 2).btSwapReq.spareTiles
    let d2 := d1.tuckpointed t d1.nextReserve.isNone
    some (if d.run.active then d2 else d2.btSwapApply)

/-- A tile retired in the spare map without a successor (R147, R149). -/
def Dev.retireTile (d : Dev) (t : Nat) : Dev :=
  ((d.setF (XC_TSTAT t) XC_TSTAT_ROLE 2).spareTiles.unitFailed).wantCommit .spare none

/-- A tile event of Table 14.4: at most one strike in a batch, a forced audit of the position in the next batch, and
tuckpointing at the second strike within 24 h (R411). -/
def Dev.strike (d : Dev) (t : Nat) : Dev :=
  if d.run.struck.contains t then d
  else
    let live := d.run.strikes.filter fun p => p.1 == t
    let d1 := { d with run := { d.run with struck := t :: d.run.struck, strikes := (t, d.now) :: d.run.strikes } }
    if !live.isEmpty then (d1.tuckTile t).getD (d1.raise 0x0A0A t 0 0)
    else (d1.setF XC_AUDIT XC_AUDIT_FORCE 1).setF XC_AUDIT XC_AUDIT_FORCE_POS (d.f (XC_TSTAT t) XC_TSTAT_POS)

/-! Cells and contexts (R123 to R129). -/

/-- Limits of an accumulator field (R123, R126). -/
def fieldMax (c8 : Bool) : Int := if c8 then 2 ^ 39 - 1 else 2 ^ 23 - 1

/-- The bound of a component against the weight of its cell (R127). -/
def scorchBound (compat c8 : Bool) (w : Nat) : Int := (if compat then 128 else if c8 then 32258 else 98) * (w : Int)

/-- One component stepped: it stops once its guard bit is set, which a sum outside the field sets (R127). -/
def stepComp (c8 : Bool) (g : Bool) (v x : Int) : Int × Bool :=
  if g then (v, true)
  else if v + x > fieldMax c8 ∨ v + x < -fieldMax c8 - 1 then (v, true) else (v + x, false)

/-- One cell in one spectrum (R123, R124, R136): the conjugate product of two valid samples is added and the weight
counts; a poisoned sample with a valid partner poisons the record. -/
def cellStep (c8 : Bool) (x y : Int × Int × Bool × Bool) (r : Rec) : Rec :=
  let (xr, xi, xv, xp) := x
  let (yr, yi, yv, yp) := y
  if (xp && yv) || (yp && xv) then { r with psn := true }
  else if xv && yv then
    let a := stepComp c8 r.gRe r.re (xr * yr + xi * yi)
    let b := stepComp c8 r.gIm r.im (xi * yr - xr * yi)
    { r with re := a.1, gRe := a.2, im := b.1, gIm := b.2, w := r.w + 1 }
  else r

/-- The default record: a cleared cell. -/
def recOf (c : Ctx) (k : Nat) : Rec := tget (fun _ => {}) c.recs k

/-- The cells of an item that hold real inputs: cell number in the context, row input and column input (R130). -/
def itemCells (p : RunPar) (i : Item) : List (Nat × Nat × Nat) :=
  let cols := if p.c8 then 64 else 128
  (List.range (min 128 (p.n - 128 * i.row))).flatMap fun a =>
    (List.range (min cols (p.n - (128 * i.col + 64 * i.half)))).map fun b =>
      (cols * a + b, 128 * i.row + a, 128 * i.col + 64 * i.half + b)

/-- A course multiplied into a context: 256 spectra of one channel from offset `off` (R123, R133). -/
def Dev.mulCourse (d : Dev) (i : Item) (ch off : Nat) (c : Ctx) : Ctx :=
  let p := d.run.par
  { c with
    courses := c.courses + 1,
    recs := (itemCells p i).foldl
      (fun recs (k, x, y) =>
        let r0 := tget (fun _ => ({} : Rec)) recs k
        let r := (List.range 256).foldl
          (fun r s => cellStep p.c8 (d.sampleOf (off + s) ch x) (d.sampleOf (off + s) ch y) r) r0
        tset (fun _ => ({} : Rec)) recs k r) c.recs }

/-- A fault of a cell: bits of its record flipped, Re in the low 40 bits, Im above them, the weight above those. -/
def flipRec (r : Rec) (x : Nat) : Rec :=
  { r with re := sext 40 (wrapN 40 r.re ^^^ (x % 2 ^ 40)), im := sext 40 (wrapN 40 r.im ^^^ (x / 2 ^ 40 % 2 ^ 40)),
           w := r.w ^^^ (x / 2 ^ 80 % 2 ^ 17) }

/-- A context with cell faults applied. -/
def flipCtx (c : Ctx) (fs : List (Nat × Nat)) : Ctx :=
  let one := fun recs (f : Nat × Nat) => tset (fun _ => ({} : Rec)) recs f.1 (flipRec (tget (fun _ => {}) recs f.1) f.2)
  { c with recs := fs.foldl one c.recs }

/-- The test of a context when it is saved (R127): every component whose guard bit is set or that passes its bound is
scorched; each newly scorched one is logged, up to 128 entries. Answers the number newly scorched. -/
def scorchTest (compat c8 : Bool) (course : Nat) (c : Ctx) : Ctx × Nat :=
  c.recs.foldl
    (fun (acc : Ctx × Nat) (k, r) =>
      let bnd := scorchBound compat c8 r.w
      let sRe := !r.psn && (r.gRe || decide (r.re > bnd) || decide (r.re < -bnd))
      let sIm := !r.psn && (r.gIm || decide (r.im > bnd) || decide (r.im < -bnd))
      let nRe := sRe && !r.lRe
      let nIm := sIm && !r.lIm
      let new := (if nRe then [k + course % 256 * 2 ^ 15] else []) ++ (if nIm then [k + 2 ^ 14 + course % 256 * 2 ^ 15] else [])
      ({ acc.1 with
          recs := tset (fun _ => ({} : Rec)) acc.1.recs k { r with gRe := sRe, gIm := sIm, lRe := r.lRe || nRe, lIm := r.lIm || nIm },
          log := (acc.1.log ++ new).take 128, scorched := min (acc.1.scorched + new.length) 0xFFFFFFFF },
       acc.2 + new.length)) (c, 0)

/-- The mirror check of a diagonal C4 context: how many cells below the diagonal differ from the conjugate of their
mirror (R129). Cells that hold a sentinel are not compared. -/
def mirrorBad (p : RunPar) (i : Item) (c : Ctx) : Nat :=
  ((itemCells p i).filter fun (_, x, y) =>
    decide (x > y) &&
      let a := x - 128 * i.row
      let b := y - 128 * i.row
      let r := recOf c (128 * a + b)
      let q := recOf c (128 * b + a)
      !(r.psn || q.psn || r.gRe || r.gIm || q.gRe || q.gIm) && !(r.re == q.re && r.im == -q.im && r.w == q.w)).length

/-- What an audit compares of a context: header and records (R148). -/
def ctxImage (c : Ctx) : Nat × Nat × Nat × Nat × Nat × List Nat × Tbl Rec :=
  (c.item, c.batch, c.pass, c.courses, c.scorched, c.log, c.recs)

/-- Records of a context slot that overlap a 64-byte granule (Table 4.1, R136). -/
def granuleRecs (c8 : Bool) (g : Nat) : List Nat :=
  let w := if c8 then 97 else 65
  (List.range (512 / w + 2)).filterMap fun j =>
    let k := g * 512 / w + j
    if k * w < (g + 1) * 512 ∧ (k + 1) * w > g * 512 ∧ k < (if c8 then 8192 else 16384) then some k else none

/-- A context loaded with uncorrectable granules: every record that overlaps one is poisoned (R136). -/
def poisonCtx (c8 : Bool) (gs : List Nat) (c : Ctx) : Ctx :=
  let hit := fun recs k => tset (fun _ => ({} : Rec)) recs k { tget (fun _ => ({} : Rec)) recs k with psn := true }
  { c with recs := (gs.flatMap (granuleRecs c8)).foldl hit c.recs }

/-! Slots of a course (R133 to R135). -/

/-- The channels of a pass that the run has. -/
def passChannel (p : RunPar) (pass : Nat) (i : Item) : Option Nat :=
  let ch := pass * p.k + i.ch
  if ch < p.nch then some ch else none

/-- Course j of a batch opens a chunk: the first of the pass, or the course of an inner barrier (R134, R172). -/
def Run.firstCourse (r : Run) (j : Nat) : Bool := j == 0 || tget (fun _ => 0) r.inner (r.closed - 1) == j + 1

/-- Course j closes a chunk: the last of the pass, or the one before an inner barrier. -/
def Run.lastCourse (r : Run) (j : Nat) : Bool :=
  j + 1 == r.par.courses || (j + 2 == tget (fun _ => 0) r.inner (r.closed - 1))

/-- The chunk that course j belongs to (R172). -/
def Run.chunkOf (r : Run) (j : Nat) : Nat :=
  let b := tget (fun _ => 0) r.inner (r.closed - 1)
  if b ≠ 0 ∧ j + 1 ≥ b then 1 else 0

/-- The tiles that work in a slot: position, tile, and the tile whose entries it runs (the audit tile runs those of the
audited position, R148). -/
def Dev.workTiles (d : Dev) : List (Nat × Nat × Nat) :=
  let act := (List.range 64).filterMap fun pos => (d.tileAt pos).map fun t => (pos, t, t)
  match d.run.audit with
  | some (pos, at') => match d.tileAt pos with
    | some t => act ++ [(pos, at', t)]
    | none => act
  | none => act

/-- The tests of a save: the scorch test, and at a final save of a diagonal C4 item the mirror check, whose failure is
marked in bit 31 of the context's item word (R127, R129). -/
def Dev.saveTests (d : Dev) (t : Nat) (i : Item) (j : Nat) (lastC : Bool) (c : Ctx) : Dev × Ctx :=
  let p := d.run.par
  let tested := scorchTest d.compat p.c8 j c
  let c2 := tested.1
  let n := tested.2
  let d2 := if n = 0 then d
    else (((d.cnt XC_SCORCH n).setF (XC_TSTAT t) XC_TSTAT_SCORCH 1).raise 0x0501 t 0 n).strike t
  let mir := if lastC && !p.c8 && i.row == i.col && d.on XC_CTRL XC_CTRL_MIRROR_EN then mirrorBad p i c2 else 0
  if mir = 0 then (d2, c2)
  else ((((d2.cnt XC_MIRROR_ERR mir).setF (XC_TSTAT t) XC_TSTAT_MIRROR 1).raise 0x0502 t 0 mir).strike t,
        { c2 with item := c2.item + 2 ^ 31 })

/-- One tile's slot time: its context loaded, multiplied, tested and saved to its slot, or, at the last course of a chunk,
answered for the mortar. `ue` lists uncorrectable granules of this tile's load, `fs` its cell faults. -/
def Dev.tileSlot (d : Dev) (pos t src slot pass j : Nat) (ue : List Nat) (fs : List (Nat × Nat)) : Dev × Option Saved :=
  let p := d.run.par
  let e := d.btEntry d.btCopy src slot
  match (entryItem e).bind fun i => (passChannel p pass i).map fun ch => (i, ch) with
  | none => (d, none)
  | some (i, ch) =>
    let b := d.run.closed - 1
    let single := passSlots p pass == 1
    let fresh : Ctx := { item := e, batch := b % 2 ^ 32, pass := pass }
    let loaded := if d.run.firstCourse j then fresh
      else if single then tget (fun _ => fresh) d.run.plane t
      else poisonCtx p.c8 ue (tget (fun _ => fresh) d.run.store (12 * t + slot))
    let c1 := flipCtx (d.mulCourse i ch (b * p.t + 256 * j) loaded) fs
    let lastC := d.run.lastCourse j
    let d1 := if ue.isEmpty || single || d.run.firstCourse j then d
      else ((d.cnt XC_CTX_UE ue.length).setF (XC_TSTAT t) XC_TSTAT_CTX_UE 1).raise 0x0508 t 0 ue.length
    let sv := if single && !lastC then (d1, c1) else d1.saveTests t i j lastC c1
    let d3 := sv.1
    let c2 := sv.2
    let d4 := { d3 with run := { d3.run with shadow := tset (fun _ => {}) d3.run.shadow t c2,
                                             plane := tset (fun _ => {}) d3.run.plane t c2 } }
    if lastC then
      (d4, some { batch := b, chunk := d.run.chunkOf j, pass := pass, pos := pos, slot := slot, tile := t,
                  ctx := c2 })
    else if single then (d4, none)
    else ({ d4 with run := { d4.run with store := tset (fun _ => {}) d4.run.store (12 * t + slot) c2 } }, none)

/-- The audit compares the two images of a final save (R148, R149); a difference marks both tiles and the item. The
answer keeps only contexts of active tiles, the audited ones flagged in bit 30 of their item when they differ. -/
def Dev.auditSave (d : Dev) (xs : List Saved) : Dev × List Saved :=
  match d.run.audit with
  | none => (d, xs)
  | some (pos, at') =>
    let keep := xs.filter fun x => x.tile != at'
    match xs.find? (fun x => x.tile == at'), keep.find? (fun x => x.pos == pos) with
    | some a, some b =>
      let d1 := { d with run := { d.run with auditSeen := true } }
      if ctxImage a.ctx == ctxImage b.ctx then (d1, keep)
      else
        (((({ d1 with run := { d1.run with auditBad := true } } : Dev).setF (XC_TSTAT a.tile) XC_TSTAT_AUD_FAIL 1).setF
          (XC_TSTAT b.tile) XC_TSTAT_AUD_FAIL 1).raise 0x0503 b.tile 0 a.tile,
         keep.map fun x => if x.pos == pos then { x with ctx := { x.ctx with item := x.ctx.item + 2 ^ 30 } } else x)
    | _, _ => (d, keep)

/-- A final save finds a mortar queue of twelve full (R135). -/
def Dev.mortarFull (d : Dev) : Bool :=
  d.workTiles.any fun (_, t, _) => decide ((d.run.mortar.filter fun x => x.tile == t).length ≥ 12)

/-- Locator of a granule of a tile's context slot (Tables 4.1 and 13.1). -/
def ctxLoc (tile slot gran : Nat) : Nat := tile * 2 ^ 40 + slot * 136192 + gran % 2128 * 64

/-- Repairs of a tile's context store (R388). -/
def Dev.tileRepairs (d : Dev) (t : Nat) : Nat := d.ret.spare.repairs.countP fun x => x.1 == 3 && x.2 / 2 ^ 40 == t

/-- The corrected and uncorrectable granules of a slot's loads as the tables of chapter 13 see them; a tile whose row spares
are exhausted is tuckpointed (R386, R389, Table 14.4). -/
def Dev.ctxEcc (d : Dev) (slot : Nat) (ce ue : List (Nat × Nat)) : Dev :=
  let d1 := ce.foldl (fun (e : Dev) (t, g) => e.ecCorrected 3 (ctxLoc t slot g)) d
  ue.foldl
    (fun (e : Dev) (t, g) =>
      let e1 := e.ecBad 3 (ctxLoc t slot g)
      if e1.tileRepairs t < 2 ∨ e1.tileRole t ≠ 0 then e1 else (e1.tuckTile t).getD e1) d1

/-- ITEM_SLOT (R133 to R136): every working tile ends its slot time. `ce` lists (tile, granule) corrected on load, `ue`
those not correctable, `flips` lists (tile, cell, bits) faults. A final save that finds a queue full holds the
tiles for this TCLK cycle and counts MQ_STALL. The last slot ends the course, and at throttle level d its pause follows
(R406). -/
def Dev.itemSlot (d : Dev) (ce ue : List (Nat × Nat)) (flips : List (Nat × Nat × Nat)) : Dev :=
  match d.run.inSlot with
  | none => d
  | some q =>
    let p := d.run.par
    let pass := q / p.courses
    let j := q % p.courses
    let slot := d.run.slot
    if d.run.lastCourse j && d.mortarFull then d.cnt XC_MQ_STALL 1
    else
      let r := d.workTiles.foldl
        (fun (acc : Dev × List Saved) (pos, t, src) =>
          let x := acc.1.tileSlot pos t src slot pass j ((ue.filter fun u => u.1 == t).map (·.2))
            ((flips.filter fun f => f.1 == t).map (·.2))
          (x.1, match x.2 with | some s => acc.2 ++ [s] | none => acc.2)) (d, [])
      let a := r.1.auditSave r.2
      let d1 := { a.1 with run := { a.1.run with mortar := a.1.run.mortar ++ a.2 } }
      let d2 := (if ce.isEmpty then d1 else d1.cnt XC_CTX_CE ce.length).ctxEcc slot ce ue
      if slot + 1 < passSlots p pass then
        ({ d2 with run := { d2.run with slot := slot + 1 } }).setF XC_POS XC_POS_SLOT (slot + 1)
      else
        let duty := d2.f TH_CTRL TH_CTRL_DUTY
        let pause := if duty = 0 then 0 else ceilDiv (256 * fmtW p.c8 * passSlots p pass * duty) (16 - duty)
        let d3 := (({ d2 with run := { d2.run with inSlot := none, slot := 0, pause := pause } } : Dev).setF XC_POS
          XC_POS_SLOT 0).cnt XC_COURSES_DONE 1
        if pause = 0 then d3 else d3.cnt XC_PAUSE_CYC pause

/-- Meaning of ITEM_SLOT. -/
def execItemSlot (ce ue : List (Nat × Nat)) (flips : List (Nat × Nat × Nat)) (s : State) :
    Host.Outcome State Fault Refusal :=
  .next { s with dev := s.dev.itemSlot ce ue flips }

/-- STAGING_READ_COMPLETE (R144): the next course set of the batch being staged is complete in the ring of D sets.
`bad` lists (channel of the pass, input, spectrum of the course) whose granule cannot be corrected (R136); `ce` lists
offsets of corrected granules in the staging SRAM, which holds a set as [channel][spectrum][input]. -/
def Dev.stagingRead (d : Dev) (bad : List (Nat × Nat × Nat)) (ce : List Nat) : Dev :=
  let r := d.run
  let p := r.par
  let depth := 0x2000000 / (p.k * (128 * groups p.n) * 256 * fmtW p.c8)
  if !r.active || r.closed = 0 || r.staged ≥ p.passes * p.courses || r.staged - r.dispatched ≥ depth then d
  else
    let pass := r.staged / p.courses
    let j := r.staged % p.courses
    let ring := bad.foldl
      (fun t (c, i, s) =>
        if pass * p.k + c < p.nch ∧ i < p.n then
          tset (fun _ => 0) t (ringKey p ((r.closed - 1) * p.t + 256 * j + s) (pass * p.k + c) i) 70000
        else t) r.ring
    let rel := if pass + 1 == p.passes then max r.released ((r.closed - 1) * p.t + 256 * (j + 1)) else r.released
    let d1 := { d with run := { r with ring := ring, staged := r.staged + 1, released := rel } }
    let d2 := if bad.isEmpty then d1 else d1.cnt XC_CTX_UE bad.length
    let d3 := if ce.isEmpty then d2 else d2.cnt XC_CTX_CE ce.length
    let loc := fun (c i s : Nat) =>
      ((((r.staged % max depth 1) * p.k + c) * 256 + s) * (128 * groups p.n) + i) * fmtW p.c8 / 64 * 64
    let locs := (bad.map fun (c, i, s) => loc c i s).eraseDups
    locs.foldl (fun (e : Dev) a => e.ecBad 4 a) (ce.foldl (fun (e : Dev) a => e.ecCorrected 4 (a / 64 * 64)) d3)

/-- Meaning of STAGING_READ_COMPLETE. -/
def execStagingReadComplete (bad : List (Nat × Nat × Nat)) (ce : List Nat) (s : State) : Host.Outcome State Fault Refusal :=
  .next { s with dev := s.dev.stagingRead bad ce }

/-- PAUSE_CYCLES_END (R146): the pause after a course runs out and dispatch resumes. -/
def execPauseCyclesEnd (s : State) : Host.Outcome State Fault Refusal :=
  .next { s with dev := { s.dev with run := { s.dev.run with pause := 0 } } }

/-- RESERVE_TILE_SELFTEST (R147): the self-test of a reserve between two batches; one that fails is retired. -/
def Dev.reserveTest (d : Dev) (t : Nat) (pass : Bool) : Dev :=
  if d.tileRole t ≠ 1 ∨ t ≥ 68 then d
  else
    let rest := d.run.tested.filter (· != t)
    let e := d.noteTest 2 t (b2n (!pass))
    if pass then { e with run := { e.run with tested := t :: rest } }
    else (({ e with run := { e.run with tested := rest } } : Dev).raise 0x000D t 0 0).retireTile t

/-- Meaning of RESERVE_TILE_SELFTEST; a reserve that audits is left alone. -/
def execReserveTileSelftest (tile : Nat) (pass : Bool) (s : State) : Host.Outcome State Fault Refusal :=
  if (s.dev.run.audit.map (·.2)) = some tile then .next s else .next { s with dev := s.dev.reserveTest tile pass }

/-- STRIKE_EXPIRY (R411): strikes of a tile recorded at least 24 h ago expire. -/
def execStrikeExpiry (tile : Nat) (s : State) : Host.Outcome State Fault Refusal :=
  let d := s.dev
  let left := d.run.strikes.filter fun p => !(p.1 == tile && decide (p.2 + 86400 * 10 ^ 9 ≤ d.now))
  .next { s with dev := { d with run := { d.run with strikes := left } } }

/-! Audits (R147 to R149). -/

/-- The verdict on the audit of the batch that ends, and what follows it (R149). -/
def Dev.auditEnd (d : Dev) : Dev :=
  match d.run.audit with
  | none => d
  | some (pos, at') =>
    let d0 := (d.setF (XC_TSTAT at') XC_TSTAT_AUDITING 0)
    if !d.run.auditSeen then (d0.setF XC_AUDIT XC_AUDIT_RESULT 3)
    else
      let d1 := (d0.cntF XC_AUDITS LO32 1).setF XC_AUDIT XC_AUDIT_RESULT (if d.run.auditBad then 2 else 1)
      let d2 := if d.run.auditBad then d1.cntF XC_AUDITS HI32 1 else d1
      match d.run.repeating, d.run.auditBad with
      | none, true => { d2 with run := { d2.run with repeatDue := some (pos, at') } }
      | none, false => d2
      | some _, true => match d2.tileAt pos with
        | some t => (d2.tuckTile t).getD (d2.raise 0x0A0A t 0 0)
        | none => d2
      | some first, false =>
        if first ≠ at' then d2.retireTile first
        else match d2.tileAt pos with
          | some t => d2.strike t
          | none => d2

/-- The audit chosen for batch b (R147): a repeat first, then a forced one, then the rotation. `selftest` is the result of
the self-test run between the batches when a repeat must use the same reserve (R149). -/
def Dev.auditSelect (d : Dev) (b : Nat) (selftest : Bool) : Dev :=
  let usable := (List.range 68).filter fun t => d.tileRole t == 1 && d.run.tested.contains t
  let clear := { d with run := { d.run with audit := none, auditBad := false, auditSeen := false, repeating := none,
                                            struck := [] } }
  let put := fun (e : Dev) (pos t : Nat) =>
    ((({ e with run := { e.run with audit := some (pos, t) } } : Dev).setF XC_AUDIT XC_AUDIT_AUD_POS pos).setF XC_AUDIT
      XC_AUDIT_AUD_TILE t).setF (XC_TSTAT t) XC_TSTAT_AUDITING 1
  let none' := fun (e : Dev) => (e.setF XC_AUDIT XC_AUDIT_AUD_TILE 0x7F).setF XC_AUDIT XC_AUDIT_RESULT 3
  let rotate := fun (e : Dev) =>
    if e.on XC_AUDIT XC_AUDIT_FORCE then
      match usable with
      | t :: _ => put (e.setF XC_AUDIT XC_AUDIT_FORCE 0) (e.f XC_AUDIT XC_AUDIT_FORCE_POS) t
      | [] => none' e
    else if e.on XC_CTRL XC_CTRL_AUDIT_EN then
      match usable with
      | t :: _ => put e (b % 64) t
      | [] => none' e
    else (e.setF XC_AUDIT XC_AUDIT_AUD_TILE 0x7F).setF XC_AUDIT XC_AUDIT_RESULT 0
  match d.run.repeatDue with
  | some (pos, first) =>
    let e := { clear with run := { clear.run with repeatDue := none } }
    match usable.find? (· != first) with
    | some t => put { e with run := { e.run with repeating := some first } } pos t
    | none =>
      if selftest then put { e with run := { e.run with repeating := some first } } pos first
      else match d.tileAt pos with
        | some t => rotate ((e.reserveTest first false).strike t)
        | none => rotate (e.reserveTest first false)
  | none => rotate clear

/-! Commands of Table 4.8. -/

/-- XCOR_PLAN (R153): computes a plan and changes nothing. -/
def xcorPlanDef : CmdDef where
  op := 0x0501
  masks := fun _ => [0x01FF3FFF, 0x1FFFF, 0xFFFFFFFF, 0x3FFFF]
  bad := fun c _ => c.b 0 12 0 < 2 || c.b 0 12 0 > 4096 || c.b 1 16 0 < 1 || c.b 1 16 0 > 65536 || c.b 0 24 16 > 256
  run := onDev fun c s =>
    let d := s.dev
    let mhz := if c.b 3 10 0 = 0 then d.f TIM_CLK TIM_CLK_TCLK_MHZ else c.b 3 10 0
    let lanes := if c.b 3 17 11 = 0 then 80 else c.b 3 17 11
    let avail := if c.p 2 = 0 then 0xFFFFFFFF else mhz * c.p 2 / 10 ^ 6
    let pl := planOf (c.b 0 12 0) (bit (c.p 0) 13) (c.b 1 16 0) (c.b 0 24 16) avail mhz (lanes * 10307)
    ({ code := if pl.k = 0 then .noResource else .ok, res := pl.words }, d)

/-- BOND_READ: copies a copy of the bond table to a system address as a job (words 0 and 1, word 2 bit 0 the inactive
copy; log entry 8). -/
def bondReadDef : CmdDef where
  op := 0x0502
  masks := fun _ => [0xFFFFFFFF, 0xFFFF, 1]
  bad := fun c _ => c.p 0 % 4 != 0
  run := onDev fun c s => asJob c s.dev 0x0502 false

/-- The bytes of a bond-table copy, tile-major and slot-minor (R154). -/
def Dev.bondBytes (d : Dev) (copy : Nat) : List Nat :=
  (List.range 68).flatMap fun t => (List.range 12).flatMap fun s => leBytes 4 (d.btEntry copy t s)

/-- BOND_SET (R154): the table is read, checked, loaded into the inactive copy and its swap requested, as a job. -/
def bondSetDef : CmdDef where
  op := 0x0503
  masks := fun _ => [0xFFFFFFFF, 0xFFFF]
  bad := fun c _ => c.p 0 % 4 != 0
  run := onDev fun c s => if s.dev.run.par.n = 0 then noR .badState s.dev else asJob c s.dev 0x0503 true

/-- The work of BOND_SET on the table's bytes: the device, and the failing tile, slot and rule. -/
def Dev.bondLoad (d : Dev) (bs : List Nat) : Dev × Option (Nat × Nat × Nat) :=
  let entry := fun t s => leNat ((bs.drop (4 * (12 * t + s))).take 4)
  match bondCheck d d.run.par entry with
  | some x => (d, some x)
  | none =>
    let ina := 1 - d.btCopy
    let d1 := (List.range 68).foldl
      (fun e t => (List.range 12).foldl (fun e s => e.wrN (BT_ENTRY ina t s) (entry t s)) e) d
    (d1.btSwapReq, none)

/-- TUCKPOINT (R150): word 0 [6:0] names the tile (log entry 8). -/
def tuckpointDef : CmdDef where
  op := 0x0504
  masks := fun _ => [0x7F]
  bad := fun c s => c.b 0 6 0 ≥ 68 || s.dev.tileRole (c.b 0 6 0) != 0
  run := onDev fun c s =>
    match s.dev.tuckTile (c.b 0 6 0) with
    | some d => okR [] d
    | none => noR .noResource s.dev

/-- AUDIT_CTRL: word 0 [0] SET_EN, [1] AUDIT_EN, [2] FORCE, [8:3] position (log entry 8). -/
def auditCtrlDef : CmdDef where
  op := 0x0505
  masks := fun _ => [0x1FF]
  run := onDev fun c s =>
    let d1 := if bit (c.p 0) 0 then s.dev.setF XC_CTRL XC_CTRL_AUDIT_EN (c.b 0 1 1) else s.dev
    okR [] (if bit (c.p 0) 2 then (d1.setF XC_AUDIT XC_AUDIT_FORCE_POS (c.b 0 8 3)).setF XC_AUDIT XC_AUDIT_FORCE 1 else d1)

/-- The XCOR counters of Table 4.7. -/
def xcorCounters : List Nat :=
  [XC_COURSES_DONE, XC_COURSES_CUT, XC_PAUSE_CYC, XC_STG_LATE, XC_SCORCH, XC_MIRROR_ERR, XC_CTX_CE, XC_CTX_UE, XC_MQ_STALL,
   XC_AUDITS, XC_BT_SWAPS]

/-- TILE_STATUS: XC_TSTAT of all tiles, XC_AUDIT and the counters, cleared under CLEAR (R151). -/
def tileStatusDef : CmdDef where
  op := 0x0506
  run := onDev fun c s =>
    let d := s.dev
    okR ((List.range 68).map (fun t => d.rdN (XC_TSTAT t)) ++ [d.rdN XC_AUDIT] ++ xcorCounters.flatMap (fun a => lohi (d.rdN a)))
      (if c.clear then d.clearRegs xcorCounters else d)

/-- Meanings of the scheduling commands. -/
def execXcorPlan (slot : Nat) (s : State) : Host.Outcome State Fault Refusal := .next (serve xcorPlanDef slot 0 0 s)
def execBondRead (slot : Nat) (s : State) : Host.Outcome State Fault Refusal := .next (serve bondReadDef slot 0 0 s)
def execBondSet (slot : Nat) (s : State) : Host.Outcome State Fault Refusal := .next (serve bondSetDef slot 0 0 s)
def execTuckpoint (slot : Nat) (s : State) : Host.Outcome State Fault Refusal := .next (serve tuckpointDef slot 0 0 s)
def execAuditCtrl (slot : Nat) (s : State) : Host.Outcome State Fault Refusal := .next (serve auditCtrlDef slot 0 0 s)
def execTileStatus (slot : Nat) (s : State) : Host.Outcome State Fault Refusal := .next (serve tileStatusDef slot 0 0 s)

end Sys2Proof.Machine
end

