-- ==== Sys2Proof/Machine/Accum.lean ====
section
/-!
DEFINITION. Dispatch of courses, the cut-off, the mortar's order of release, promotion into long accumulators and
integrations (01_sample_path R34 to R36; 05_accumulation R155 to R166, R170 to R174).
-/
namespace Sys2Proof.Machine

/-! Integrations (R157, R158). -/

/-- The integration a batch belongs to. -/
def Run.integOf (r : Run) (b : Nat) : Option Integ := r.integs.find? fun i => decide (i.start ≤ b ∧ b < i.stop)

/-- The integration of a batch exists: the next one is opened at the end of the last, with the pending NINT from its
boundary on, and ends at the earliest of NINT, that boundary and a barrier (R157, R158). -/
def Run.openInteg (r : Run) (b : Nat) : Run :=
  match r.integOf b with
  | some _ => r
  | none =>
    let start := match r.integs.getLast? with | some i => i.stop | none => 0
    let id := match r.integs.getLast? with | some i => (i.id + 1) % 2 ^ 32 | none => 0
    let r1 := match r.pendNint with
      | some (n, x) => if start ≥ x then { r with nint := n, pendNint := none } else r
      | none => r
    let full := start + max r1.nint 1
    let s1 := match r1.pendNint with | some (_, x) => if start < x then min full x else full | none => full
    let stop := r1.barriers.foldl (fun m k => if start < k.batch then min m k.batch else m) s1
    { r1 with integs := r1.integs ++ [{ id := id, start := start, stop := stop, early := decide (stop < full) }] }

/-- An integration is cut short at a barrier that falls inside it (R158). -/
def Run.cutInteg (r : Run) (b : Nat) : Run :=
  { r with integs := r.integs.map fun i => if i.start < b ∧ b < i.stop then { i with stop := b, early := true } else i }

/-- The batch being staged; before the first close, the batch that closes next (log entry 9). -/
def Run.bs (r : Run) : Nat := r.closed - 1

/-- The first batch at which a batch-boundary barrier is accepted (R171). -/
def Run.firstBarrier (r : Run) : Nat := r.bs + 2

/-- The batch of the first integration boundary at least two batches after the one being staged (R158). -/
def Run.nextBoundary (r : Run) : Nat :=
  let n := max r.nint 1
  let base := match r.integs.getLast? with | some i => i.stop | none => n
  if base ≥ r.firstBarrier then base else base + ceilDiv (r.firstBarrier - base) n * n

/-! Accounting (R44, R174). -/

/-- Counts of a channel and input over a range of batches and, in the batch of an inner barrier, over the side below it:
received, substituted, correlated and skipped. `inner` gives that batch and its barrier course. -/
def Run.acctOf (r : Run) (start stop : Nat) (inner : Option (Nat × Nat)) (ch i : Nat) : Acct :=
  let p := r.par
  let bs := (List.range (stop - start)).map (· + start)
  let rc := fun b side => tget (fun _ => 0) r.recv (((b * 2 + side) * p.nch + ch) * 4096 + i)
  let co := fun b side => tget (fun _ => 0) r.corr ((b * 2 + side) * p.nch + ch)
  let sk := fun b side => tget (fun _ => 0) r.skip ((b * 2 + side) * p.nch + ch)
  let whole : Acct := bs.foldl
    (fun a b =>
      let got := rc b 0 + rc b 1
      { received := a.received + got, substituted := a.substituted + (p.t - got),
        correlated := a.correlated + co b 0 + co b 1, skipped := a.skipped + sk b 0 + sk b 1 }) {}
  match inner with
  | none => whole
  | some (b, j) =>
    { received := whole.received + rc b 0, substituted := whole.substituted + (256 * j - rc b 0),
      correlated := whole.correlated + co b 0, skipped := whole.skipped + sk b 0 }

/-- Slots of a course counted as correlated or skipped for its channel, on its side of an inner barrier (R174). -/
def Run.countCourse (r : Run) (b pass j : Nat) (done : Bool) : Run :=
  let p := r.par
  let jb := tget (fun _ => 0) r.inner b
  let side := if jb ≠ 0 ∧ j + 1 ≥ jb then 1 else 0
  (List.range p.k).foldl
    (fun r c =>
      let ch := pass * p.k + c
      if ch ≥ p.nch then r
      else
        let key := (b * 2 + side) * p.nch + ch
        if done then { r with corr := tset (fun _ => 0) r.corr key (tget (fun _ => 0) r.corr key + 256) }
        else { r with skip := tset (fun _ => 0) r.skip key (tget (fun _ => 0) r.skip key + 256) }) r

/-! Dispatch and cut-off (R34 to R36, R144). -/

/-- Whether thermal shutdown or an idle engine keeps courses from being dispatched (R407). -/
def Dev.dispatchHeld (d : Dev) : Bool := d.run.inSlot.isSome || d.run.pause != 0 || d.therm.shut.isSome || d.fwState == FW_SHUTDOWN

/-- The channel-courses of course q of a batch, in ascending channel order, put on the beam engine's queue while it runs
(R183, R185). -/
def Dev.beamPush (d : Dev) (b q : Nat) (cut : Bool) : Dev :=
  if !d.on BM_CTRL BM_CTRL_EN then d
  else
    let p := d.run.par
    let first := q / p.courses * p.k
    let xs := ((List.range p.k).filter fun c => first + c < p.nch).map fun c =>
      ({ batch := b, q := q, ch := first + c, cut := cut } : BCourse)
    { d with beam := { d.beam with queue := d.beam.queue ++ xs } }

/-- The beam engine has not finished every channel of the course two before course q (R184). -/
def Dev.beamHolds (d : Dev) (b q : Nat) : Bool :=
  d.beam.queue.any fun x => !x.cut && x.batch == b && decide (x.q + 2 ≤ q)

/-- COURSE_DISPATCH (R34): the next course of the batch being staged is broadcast once its set is complete; a slot that
finds it not complete counts one STG_LATE (R144), and a cycle that the beam engine holds it counts one BEAM_HOLD (R184). -/
def Dev.courseDispatch (d : Dev) : Dev :=
  let r := d.run
  let p := r.par
  if !r.active || r.closed = 0 || d.dispatchHeld || r.dispatched ≥ p.passes * p.courses then d
  else if r.dispatched ≥ r.staged then
    if r.lateNoted then d else ({ d with run := { r with lateNoted := true } }).cnt XC_STG_LATE 1
  else if d.beamHolds (r.closed - 1) r.dispatched then d.cnt BM_BEAM_HOLD 1
  else
    let q := r.dispatched
    let pass := q / p.courses
    let j := q % p.courses
    let r1 := r.countCourse (r.closed - 1) pass j true
    (((({ d with run := { r1 with dispatched := q + 1, inSlot := some q, slot := 0, lateNoted := false } } : Dev).setF
      XC_POS XC_POS_PASS pass).setF XC_POS XC_POS_COURSE j).setF XC_POS XC_POS_SLOT 0).beamPush (r.closed - 1) q false

/-- Meaning of COURSE_DISPATCH. -/
def execCourseDispatch (s : State) : Host.Outcome State Fault Refusal :=
  .next { s with dev := s.dev.courseDispatch }

/-- The items of the bond table in force, by position and slot. -/
def Dev.layoutNow (d : Dev) : List (Nat × Nat × Nat) :=
  (List.range 64).flatMap fun pos => match d.tileAt pos with
    | none => []
    | some t => (List.range 12).filterMap fun s => (entryItem (d.btEntry d.btCopy t s)).map fun i => (pos, s, i.ch)

/-- The contexts of a pass that a cut-off leaves unsaved: those of a chunk begun, as they stand, and empty chunks for the
rest (R36, R160). `j` is the first course not dispatched. -/
def Dev.cutSaves (d : Dev) (b pass j : Nat) : Dev × List Saved :=
  let p := d.run.par
  let jb := tget (fun _ => 0) d.run.inner b
  let begun := if j = 0 then none else if jb ≠ 0 ∧ j + 1 ≥ jb then (if j + 1 = jb then none else some 1) else some 0
  let chunks := if jb = 0 then (if j = 0 then [0] else [0]) else if jb ≠ 0 ∧ j + 1 ≥ jb ∧ j ≠ 0 then [1] else [0, 1]
  let items := (d.layoutNow.filter fun x => pass * p.k + x.2.2 < p.nch)
  let one := fun (acc : Dev × List Saved) (chunk : Nat) =>
    d.workTiles.foldl
      (fun acc (pos, t, src) =>
        (items.filter fun x => x.1 == pos).foldl
          (fun acc (_, slot, _) =>
            let e := d.btEntry d.btCopy src slot
            let fresh : Ctx := { item := e, batch := b % 2 ^ 32, pass := pass }
            let c := if begun == some chunk then
                (if passSlots p pass == 1 then tget (fun _ => fresh) d.run.plane t
                 else tget (fun _ => fresh) d.run.store (12 * t + slot))
              else fresh
            match entryItem e with
            | none => acc
            | some i =>
              let sv := acc.1.saveTests t i (j - 1) true c
              (sv.1, acc.2 ++ [{ batch := b, chunk := chunk, pass := pass, pos := pos, slot := slot, tile := t, ctx := sv.2 }])) acc) acc
  chunks.foldl one (d, [])

/-- The cut-off of the batch being staged (R35, R36): undispatched courses are skipped, and their passes promoted with
what they completed. -/
def Dev.cutOff (d : Dev) : Dev :=
  let r := d.run
  let p := r.par
  if r.closed = 0 then d
  else
    let b := r.closed - 1
    let total := p.passes * p.courses
    let left := (List.range (total - r.dispatched)).map (· + r.dispatched)
    let r1 := left.foldl (fun r q => r.countCourse b (q / p.courses) (q % p.courses) false) r
    let d1 := (if left.isEmpty then { d with run := r1 } else ({ d with run := r1 } : Dev).cnt XC_COURSES_CUT left.length)
    let first := r.dispatched / p.courses
    let sv := (List.range (p.passes - first)).foldl
      (fun (acc : Dev × List Saved) k =>
        let x := acc.1.cutSaves b (first + k) (if k = 0 then r.dispatched % p.courses else 0)
        let y := x.1.auditSave x.2
        (y.1, acc.2 ++ y.2)) (d1, [])
    let d2 := left.foldl (fun e q => e.beamPush b q true) sv.1
    { d2 with run := { d2.run with mortar := d2.run.mortar ++ sv.2, released := max d2.run.released (r.closed * p.t) } }

/-! The mortar (R159). -/

/-- The contexts of the pass being released, in order of position and slot. -/
def Run.relItems (r : Run) : List (Nat × Nat) :=
  ((tget (fun _ => []) r.layout r.relBatch).filter fun x => r.relPass * r.par.k + x.2.2 < r.par.nch).map fun x => (x.1, x.2.1)

/-- Chunks of a batch (R160). -/
def Run.chunks (r : Run) (b : Nat) : Nat := if tget (fun _ => 0) r.inner b = 0 then 1 else 2

/-- The order moves to the next pass, chunk or batch once a pass is released. -/
def Run.relAdvance (r : Run) : Run :=
  if r.relDone < r.relItems.length then r
  else if r.relPass + 1 < r.par.passes then { r with relPass := r.relPass + 1, relDone := 0 }
  else if r.relChunk + 1 < r.chunks r.relBatch then { r with relChunk := r.relChunk + 1, relPass := 0, relDone := 0 }
  else { r with relBatch := r.relBatch + 1, relChunk := 0, relPass := 0, relDone := 0 }

/-- MORTAR_RELEASE (R159): the next context in ascending order of (batch, chunk, pass, position, slot) is released once it
is in its queue. -/
def Run.mortarRelease (r : Run) : Run :=
  match r.relItems[r.relDone]? with
  | none => r
  | some (pos, slot) =>
    let hit := fun (x : Saved) => x.batch == r.relBatch && x.chunk == r.relChunk && x.pass == r.relPass && x.pos == pos && x.slot == slot
    match r.mortar.find? hit with
    | none => r
    | some x => ({ r with mortar := r.mortar.filter (fun y => !hit y), promq := r.promq ++ [x], relDone := r.relDone + 1 }).relAdvance

/-- Meaning of MORTAR_RELEASE. -/
def execMortarRelease (s : State) : Host.Outcome State Fault Refusal :=
  .next { s with dev := { s.dev with run := s.dev.run.mortarRelease } }

/-! Promotion (R161 to R166). -/

/-- One component added to its pair (R161, R163, R165): the pair, and whether |v| reached 2^47. -/
def promoteComp (hi lo : Nat) (scorched : Bool) (s : Int) : Nat × Nat × Bool :=
  if hi = NAN_POISON then (hi, lo, false)
  else if hi = NAN_SCORCH ∨ scorched then (NAN_SCORCH, NAN_SCORCH, false)
  else
    let v := f32Int hi + f32Int lo + s
    let h := fl32 v
    (h, fl32 (v - f32Int h), decide (v.natAbs ≥ 2 ^ 47))

/-- A chunk record added to a long accumulator; a poisoned record sets the poison sentinel in both components and adds no
weight (R161, R165). -/
def promoteRec (a : LongAcc) (r : Rec) : LongAcc :=
  if r.psn then { a with reHi := NAN_POISON, reLo := NAN_POISON, imHi := NAN_POISON, imLo := NAN_POISON }
  else
    let x := promoteComp a.reHi a.reLo r.gRe r.re
    let y := promoteComp a.imHi a.imLo r.gIm r.im
    { reHi := x.1, reLo := x.2.1, imHi := y.1, imLo := y.2.1, w := a.w + r.w, inexact := a.inexact || x.2.2 || y.2.2 }

/-- The products of a context that promotion keeps: those on and above the diagonal of real inputs (R161). -/
def promoteCells (p : RunPar) (i : Item) : List (Nat × Nat × Nat) := (itemCells p i).filter fun (_, x, y) => decide (x ≤ y)

/-- Key of a product among long accumulators. -/
def accKey (p : RunPar) (ch x y : Nat) : Nat := ch * p.prods + prodIx p.n x y

/-- Key of a product in a dump image. -/
def imageKey (p : RunPar) (img ch prod : Nat) : Nat := (img * p.nch + ch) * p.prods + prod

/-- A context promoted: `opens` starts the integration's accumulators afresh, `closes` writes the dump image (R161, R162). -/
def Run.promoteCtx (r : Run) (x : Saved) (opens closes : Bool) (img : Nat) : Run :=
  let p := r.par
  match entryItem x.ctx.item with
  | none => r
  | some i =>
    let ch := x.pass * p.k + i.ch
    (promoteCells p i).foldl
      (fun r (k, a, b) =>
        let key := accKey p ch a b
        let old : LongAcc := if opens then {} else tget (fun _ => {}) r.acc key
        let new := promoteRec old (recOf x.ctx k)
        if closes then { r with image := tset (fun _ => {}) r.image (imageKey p img ch (prodIx p.n a b)) new }
        else { r with acc := tset (fun _ => {}) r.acc key new }) r

/-- The item flag table key of an item in an integration (R166). -/
def flagKey (p : RunPar) (id pass : Nat) (i : Item) : Nat :=
  id % 4 * 2 ^ 40 + itemNo p { i with ch := pass * p.k + i.ch }

/-- All contexts up to a chunk of a batch have been promoted: the next to be promoted lies beyond it. -/
def Run.chunkPromoted (r : Run) (b chunk : Nat) : Bool :=
  match r.promq with
  | x :: _ => decide (x.batch > b) || (x.batch == b && decide (x.chunk > chunk))
  | [] => decide (r.relBatch > b) || (r.relBatch == b && decide (r.relChunk > chunk))

end Sys2Proof.Machine
end

