-- ==== Sys2Proof/Machine/LaneBase.lean ====
section
/-!
DEFINITION. Lanes as other blocks see them: rates, lane PLLs, the lanes a MAC claims and the lanes a run uses
(02_lanes_and_links R49 to R51; 08_network_and_time R241).
-/
namespace Sys2Proof.Machine

/-- The state of a lane beyond its registers. -/
def Dev.lane (d : Dev) (n : Nat) : Lane := tget (fun _ => {}) d.lanes n

/-- The device with the state of a lane replaced. -/
def Dev.setLane (d : Dev) (n : Nat) (l : Lane) : Dev := { d with lanes := tset (fun _ => {}) d.lanes n l }

/-- Receiver states of Table 2.2. -/
def LST_OFF : Nat := 0
def LST_LOWPOWER : Nat := 1
def LST_DETECT : Nat := 2
def LST_CDR : Nat := 3
def LST_ADAPT : Nat := 4
def LST_FEC : Nat := 5
def LST_FRAME : Nat := 6
def LST_IDENT : Nat := 7
def LST_UP : Nat := 8
def LST_MISWIRED : Nat := 9

/-- A lane's receiver state (LN_STAT.STATE). -/
def Dev.laneSt (d : Dev) (n : Nat) : Nat := d.f (LN_STAT n) LN_STAT_STATE

/-- Function of a lane: 0 off, 1 ASL, 2 Ethernet, 3 JESD204C, 4 DC-512 (LN_CTRL.FUNC). -/
def Dev.laneFunc (d : Dev) (n : Nat) : Nat := d.f (LN_CTRL n) LN_CTRL_FUNC

/-- The functions and rate codes of Table 2.1 that go together (R50). -/
def rateOk (func rate : Nat) : Bool :=
  match func with
  | 0 => true
  | 1 => rate == 3 || rate == 4 || rate == 5 || rate == 6
  | 2 => rate == 3 || rate == 4 || rate == 5
  | 3 => rate == 1
  | 4 => rate == 2
  | _ => false

/-- Line rate of a rate code in units of 31.25 Mb/s; 0 for JESD204C, which runs at the PLL's rate (LN_CTRL.RATE). -/
def rateUnits (rate : Nat) : Nat :=
  match rate with
  | 2 => 330 | 3 => 825 | 4 => 1700 | 5 => 3400 | 6 => 3600 | _ => 0

/-- ASL payload of a rate code in units of 10 Mb/s (Table 2.1). -/
def aslPayload (rate : Nat) : Nat :=
  match rate with
  | 3 => 2434 | 4 => 4867 | 5 => 9735 | 6 => 10307 | _ => 0

/-- The base rate of a lane PLL, zero when off; `sel` is 1 for PLL_B. -/
def Dev.pllBase (d : Dev) (group sel : Nat) : Nat := tget (fun _ => 0) d.pll (2 * group + sel)

/-- A base rate serves lanes of these rates: each is the base divided by 1, 2 or 4, and JESD204C lanes (0) run at a base of
6.5 to 32.5 Gb/s (R49, R50). -/
def pllServes (b : Nat) (rs : List Nat) : Bool :=
  rs.all fun r => if r = 0 then decide (208 ≤ b ∧ b ≤ 1040) else b == r || b == 2 * r || b == 4 * r

/-- The base rate for lanes of these rates, preferring the present one, then the smallest; none when none serves (R49). -/
def pllFor (now : Nat) (rs : List Nat) : Option Nat :=
  if now ≠ 0 ∧ pllServes now rs then some now
  else
    match (rs.filter (· ≠ 0)) with
    | [] => if rs.isEmpty then some 0 else some 1040
    | xs => ((xs.flatMap fun r => [r, 2 * r, 4 * r]).filter fun b => pllServes b rs).foldl
        (fun acc b => match acc with | none => some b | some a => some (min a b)) none

/-- Rates of the configured lanes on a PLL, other than the lanes named. -/
def Dev.pllLoad (d : Dev) (group sel : Nat) (but : List Nat) : List Nat :=
  ((List.range 8).map (· + 8 * group)).filterMap fun n =>
    if d.laneFunc n ≠ 0 ∧ d.f (LN_CTRL n) LN_CTRL_PLL_SEL = sel ∧ !but.contains n then
      some (rateUnits (d.f (LN_CTRL n) LN_CTRL_RATE)) else none

/-- A lane PLL given a base rate. -/
def Dev.setPll (d : Dev) (group sel b : Nat) : Dev := { d with pll := tset (fun _ => 0) d.pll (2 * group + sel) b }

/-! MAC lanes (R51, R241). -/

/-- Lanes of a port mode (Table 8.1). -/
def modeLanes (mode : Nat) : Nat := match mode with | 1 | 2 | 3 => 1 | 4 => 2 | 5 => 4 | _ => 0

/-- Rate code of a port mode. -/
def modeRate (mode : Nat) : Nat := match mode with | 1 => 3 | 2 => 4 | 3 | 4 | 5 => 5 | _ => 0

/-- Data rate of a port mode in Mb/s. -/
def modeMbps (mode : Nat) : Nat := match mode with | 1 => 25000 | 2 => 50000 | 3 => 100000 | 4 => 200000 | 5 => 400000 | _ => 0

/-- The mode of a port; codes above 5 act as off. -/
def Dev.macMode (d : Dev) (m : Nat) : Nat := let v := d.f (EM_CTRL m) EM_CTRL_MODE; if v > 5 then 0 else v

/-- The lanes a MAC claims in a mode (R51). -/
def macLanes (m mode : Nat) : List Nat := (List.range (modeLanes mode)).map (· + 4 * m)

/-- A lane is claimed by a MAC (R241, R86). -/
def Dev.claimed (d : Dev) (n : Nat) : Bool :=
  decide (n < 80) && (macLanes (n / 4) (d.macMode (n / 4))).contains n

/-- A receive lane an active run or the running front uses: it carries ASL or JESD204C with its receiver enabled, or it
belongs to a MAC (log entry 10). -/
def Dev.laneRxUsed (d : Dev) (n : Nat) : Bool :=
  (d.run.active || d.front.running) && d.on (LN_CTRL n) LN_CTRL_RX_EN &&
    (d.laneFunc n == 1 || (d.laneFunc n == 3 && d.front.running) || d.laneFunc n == 2)

/-- A transmit lane of a route of the running front. -/
def Dev.laneTxUsed (d : Dev) (n : Nat) : Bool :=
  d.front.running && d.front.route.any fun r => r.kind == 0 && r.lanes.contains n

/-- A lane that an active run or the running front uses. -/
def Dev.laneUsed (d : Dev) (n : Nat) : Bool := d.laneRxUsed n || d.laneTxUsed n

end Sys2Proof.Machine
end

