-- ==== Sys2Proof/Machine/Streams.lean ====
section
/-!
DEFINITION. Streams and the packets that wait on them: the stream table, sequence counters, packet headers, GAP records and
the bandwidth of a port (08_network_and_time R248 to R256; Tables 5.3, 5.7, 6.3 and 8.3).
-/
namespace Sys2Proof.Machine

/-! Streams (Table 8.5). -/

/-- Bits [hi:lo] of a word of a stream's entry. -/
def Stream.b (s : Stream) (w hi lo : Nat) : Nat := bits (s.words.getD w 0) hi lo

/-- The MAC of a stream. -/
def Stream.mac (s : Stream) : Nat := s.b 0 20 16

/-- The class of a stream (Table 8.2): 1 AVP, 2 ABP, 3 ACP data, 4 ACP readout, 5 ACP trigger. -/
def Stream.cls (s : Stream) : Nat := s.b 0 23 21

/-- The stream sends IPv6. -/
def Stream.v6 (s : Stream) : Bool := bit (s.words.getD 0 0) 24

/-- The stream sends an 802.1Q tag. -/
def Stream.tagged (s : Stream) : Bool := bit (s.words.getD 2 0) 15

/-- The 802.1Q priority of a stream. -/
def Stream.pcp (s : Stream) : Nat := s.b 2 14 12

/-- The largest IP packet of a stream. -/
def Stream.mtu (s : Stream) : Nat := s.b 3 13 0

/-- RATE_MBPS of a stream. -/
def Stream.rate (s : Stream) : Nat := s.words.getD 4 0

/-- Destination address: 32 bits for IPv4, 128 for IPv6, first byte of the address lowest (R273). -/
def Stream.dst (s : Stream) : Nat :=
  if s.v6 then s.words.getD 5 0 + s.words.getD 6 0 * 2 ^ 32 + s.words.getD 7 0 * 2 ^ 64 + s.words.getD 8 0 * 2 ^ 96
  else s.words.getD 5 0

/-- The next hop is given and never resolved (R254). -/
def Stream.static (s : Stream) : Bool := bit (s.words.getD 10 0) 16

/-- The stream of an identifier. -/
def Dev.stream (d : Dev) (i : Nat) : Option Stream := tget (fun _ => none) d.net.streams i

/-- The device with a stream replaced or deleted. -/
def Dev.setStream (d : Dev) (i : Nat) (s : Option Stream) : Dev :=
  { d with net := { d.net with streams := tset (fun _ => none) d.net.streams i s } }

/-- A stream is defined with this class (R248). -/
def Dev.streamIs (d : Dev) (i cls : Nat) : Bool := match d.stream i with | some s => s.cls == cls | none => false

/-- Bytes of UDP, IP headers over a payload (R243). -/
def ipHeader (v6 : Bool) : Nat := if v6 then 48 else 28

/-- A UDP payload of n bytes fits the stream's MTU, IP and UDP headers counted (R181, R202, R243). -/
def Stream.fits (s : Stream) (n : Nat) : Bool := decide (n + ipHeader s.v6 ≤ s.mtu)

/-- Planned numbers taken from a stream's counter (R252). -/
def Dev.takeSeq (d : Dev) (i n : Nat) : Nat × Dev :=
  match d.stream i with
  | some s => (s.seq, d.setStream i (some { s with seq := (s.seq + n) % 2 ^ 32 }))
  | none => (0, d)

/-- The streams, with their identifiers. -/
def Dev.streamList (d : Dev) : List (Nat × Stream) := d.net.streams.filterMap fun p => p.2.map fun s => (p.1, s)

/-- The shaped rates of a port's streams fit its data rate: each nonzero rate grows by 90 bytes per packet of its MTU
(R250). -/
def rateFits (mbps : Nat) (ss : List Stream) : Bool :=
  let x := (ss.filter fun s => s.rate ≠ 0 ∧ s.mtu ≠ 0).foldl
    (fun (nd : Nat × Nat) s => (nd.1 * s.mtu + s.rate * (s.mtu + 90) * nd.2, nd.2 * s.mtu)) (0, 1)
  decide (x.1 ≤ mbps * x.2)

/-- A route of the active run or of the running front names the stream (R271). -/
def Dev.routeNames (d : Dev) (i : Nat) : Bool :=
  (d.run.active && (d.run.route.any (fun r => r.2.2.1 == i) || (d.on BM_CTRL BM_CTRL_EN && d.beam.route.any (fun r => r.stream == i)))) ||
    ((d.front.running || d.run.active) && d.front.route.any (fun r => r.kind == 1 && r.stream == i))

/-- A port is used by an active run (R271). -/
def Dev.portUsed (d : Dev) (m : Nat) : Bool :=
  d.streamList.any (fun p => p.2.mac == m && d.routeNames p.1) ||
    ((d.run.active || d.front.running) && d.net.bind.any fun b => b.bytes.getD 0 0 % 32 == m)

/-! Packet headers. -/

/-- A packet header: little-endian fields of given widths, then the CRC-32C of the bytes before it. -/
def header (fs : List (Nat × Nat)) : List Nat :=
  let b := fs.flatMap fun (n, v) => leBytes n v
  b ++ leBytes 4 (crc32c b)

/-- An AVP header (Table 5.3). -/
def avpHeader (type flags stream seq id start stop channel dfmt log first count len nin dev : Nat) : List Nat :=
  header [(2, 0xA7B0), (1, 1), (1, type), (2, flags), (2, stream), (4, seq), (4, id), (8, start), (8, stop), (2, channel),
    (1, dfmt), (1, log), (4, first), (2, count), (2, len), (2, nin), (2, dev), (12, 0)]

/-- An ABP header (Table 6.3). -/
def abpHeader (type flags stream seq integ first nspec channel beam kind ncrs count len nin dev nbeam ofmt : Nat) : List Nat :=
  header [(2, 0xA7B1), (1, 1), (1, type), (2, flags), (2, stream), (4, seq), (4, integ), (8, first), (4, nspec), (2, channel),
    (2, beam), (1, kind), (1, ncrs), (2, count), (2, len), (2, nin), (2, dev), (2, nbeam), (1, ofmt), (15, 0)]

/-- An ACP header (Table 8.3) over its data. -/
def acpHeader (type flags stream seq dev link fmt num i0 c0 ni nc ns off ticket : Nat) (data : List Nat) : List Nat :=
  header [(2, 0xA7B2), (1, 1), (1, type), (2, flags), (2, stream), (4, seq), (2, dev), (1, link), (1, fmt), (8, num), (2, i0),
    (2, c0), (1, ni), (1, nc), (1, ns), (1, 0), (4, off), (2, data.length), (2, ticket), (4, crc32c data), (16, 0)]

/-- The data of a GAP record (Table 5.7). -/
def gapData (first count reason chFirst chLast : Nat) : List Nat :=
  leBytes 4 first ++ leBytes 4 count ++ leBytes 4 reason ++ leBytes 2 chFirst ++ leBytes 2 chLast

/-- SRC_DEV of this device. -/
def Dev.srcDev (d : Dev) : Nat := d.rdN ID_SRC_DEV

/-- The UDP payload of a GAP record on a stream, in the protocol of its class (R169, R176, R200, R258). Its SEQ is the next
number that can follow. -/
def Dev.gapBody (d : Dev) (stream first count reason chFirst chLast : Nat) : List Nat :=
  let data := gapData first count reason chFirst chLast
  let nxt := (first + count) % 2 ^ 32
  let n := d.run.par.n
  match (d.stream stream).map Stream.cls with
  | some 1 => avpHeader 4 0 stream nxt 0 0 0 0 d.run.par.dfmt d.run.par.pktLog2 0 0 data.length n d.srcDev ++ data
  | some 2 => abpHeader 4 0 stream nxt 0 0 0 0 0 0 0 0 data.length d.beam.n d.srcDev (32 * (d.f BM_CTRL BM_CTRL_S_M1 + 1)) 0 ++ data
  | _ => acpHeader 4 0 stream nxt d.srcDev 0 0 0 0 0 0 0 0 0 0 data ++ data

/-- A packet put at the end of the packets that wait (R251). -/
def Dev.push (d : Dev) (p : Pkt) : Dev := { d with net := { d.net with queue := d.net.queue ++ [p] } }

/-- Packets of a stream that wait. -/
def Dev.waiting (d : Dev) (stream : Nat) : List Pkt := d.net.queue.filter fun p => p.stream == stream

/-- A GAP record put among the packets that wait; it takes no number. -/
def Dev.pushGap (d : Dev) (stream first count reason chFirst chLast : Nat) : Dev :=
  d.push { stream := stream, seq := (first + count) % 2 ^ 32, body := d.gapBody stream first count reason chFirst chLast,
           at' := d.now, gap := true, chFirst := chFirst, chLast := chLast }

/-- Waiting packets that a test picks are abandoned: in each stream one GAP record takes the place of the first and covers
them all; a twin without the lease abandons without a record (R201, R258, R419). Answers how many packets were abandoned. -/
def Dev.abandonPkts (d : Dev) (pick : Pkt → Bool) (reason : Nat) (silent : Bool) : Dev × Nat :=
  let hit := fun (p : Pkt) => !p.gap && pick p
  let r := d.net.queue.foldl
    (fun (acc : List Pkt × List Nat) p =>
      if !hit p then (acc.1 ++ [p], acc.2)
      else if silent || acc.2.contains p.stream then acc
      else
        let xs := d.net.queue.filter fun q => hit q && q.stream == p.stream
        let hi := (xs.getLast?.map (·.chLast)).getD p.chLast
        (acc.1 ++ [{ stream := p.stream, seq := (p.seq + xs.length) % 2 ^ 32, at' := d.now, gap := true, chFirst := p.chFirst,
                     chLast := hi, body := d.gapBody p.stream p.seq xs.length reason p.chFirst hi }], p.stream :: acc.2)) ([], [])
  ({ d with net := { d.net with queue := r.1 } }, d.net.queue.countP hit)

/-- Whether the lease lets a lease-gated packet leave: always on a device that is no twin, else only while it holds the lease,
its lease timer has time left and no fence condition holds (R251, R417, R423). -/
def Dev.leaseOpen (d : Dev) : Bool :=
  !d.isTwin || (d.twin.holder && decide (d.now < d.twin.leaseEnd) && !d.fenceCond)

/-- A twin sends IDLE on its ASL lanes: fenced, or without the lease while GATE_ASL is set (R417, R423). -/
def Dev.aslGated (d : Dev) : Bool :=
  d.isTwin && (d.fenceCond || (d.on LS_CTRL LS_CTRL_GATE_ASL && !d.leaseOpen))

/-- A twin that does not hold the lease (R419). -/
def Dev.standby (d : Dev) : Bool := !d.leaseOpen

/-- The service addresses of a port while it is in the port mask: IPv4 and IPv6. -/
def Dev.svc (d : Dev) (m : Nat) : Option (Nat × Nat) :=
  if bit d.ret.lease.portMask m then
    some (d.ret.lease.svc.getD ((List.range m).countP fun k => bit d.ret.lease.portMask k) (0, 0))
  else none

/-- The service addresses a port answers for now: only the holder of the lease answers for them (R419). -/
def Dev.svcNow (d : Dev) (m : Nat) : Option (Nat × Nat) := if d.isTwin && d.leaseOpen then d.svc m else none

end Sys2Proof.Machine
end

