-- ==== Sys2Proof/Machine/Dumps.lean ====
section
/-!
DEFINITION. Promotion of chunks, barriers and peeks, dumps and their AVP packets, and the dump commands
(05_accumulation_and_dumps R161 to R181).
-/
namespace Sys2Proof.Machine

/-! Demand (R48, R187). -/

/-- Weight-port demand of the beams in bytes per second at a run's rate (R187). -/
def Dev.beamDemand (d : Dev) (p : RunPar) : Nat :=
  if d.on BM_CTRL BM_CTRL_EN then
    perSpectrum p (p.nch * 32 * (d.f BM_CTRL BM_CTRL_S_M1 + 1) * 128 * groups p.n * 4) / 256 else 0

/-- Live pseudo-channels (R222). -/
def Dev.livePc (d : Dev) : Nat :=
  (List.range 128).countP fun pc => !(d.f (MC_CHSTAT (pc / 2)) MC_CHSTAT_STATE == 3) &&
    !bit (d.f (MC_CHSTAT (pc / 2)) MC_CHSTAT_PC_DEAD) (pc % 2)

/-- The R48 demand of a run, its promotion counted `promo` times, with the front's delay lines and the beam weights. -/
def Dev.demand (d : Dev) (p : RunPar) (promo : Nat) : Nat :=
  runDemand p promo + d.beamDemand p + (if d.role = 3 then d.front.demand else 0)

/-- The demand stays within 4.00 TB/s, scaled to the live pseudo-channels (R48, R222). -/
def Dev.demandOk (d : Dev) (x : Nat) : Bool := decide (x * 128 ≤ 4 * 10 ^ 12 * d.livePc)

/-! Products (Tables 5.4 and 5.5). -/

/-- Inputs of product p of N inputs (R175). -/
def prodPair (n p : Nat) : Nat × Nat :=
  ((List.range n).foldl
    (fun (acc : Option (Nat × Nat) × Nat) i =>
      match acc.1 with
      | some _ => acc
      | none => if acc.2 < n - i then (some (i, i + acc.2), acc.2) else (none, acc.2 - (n - i))) (none, p)).1.getD (0, 0)

/-- One component of a product in a dump format (Table 5.4). -/
def compBytes (dfmt hi lo : Nat) : List Nat :=
  let nan := hi == NAN_POISON || hi == NAN_SCORCH
  match dfmt with
  | 1 => leBytes 4 hi ++ leBytes 4 (if nan then 0 else lo)
  | 2 => leBytes 4 (if nan then 0x80000000 else wrapN 32 (f32Int hi + f32Int lo))
  | _ => leBytes 4 hi

/-- A product in a dump format (Table 5.4). -/
def prodDump (dfmt : Nat) (a : LongAcc) : List Nat :=
  compBytes dfmt a.reHi a.reLo ++ compBytes dfmt a.imHi a.imLo ++ leBytes 4 a.w

/-- The flag nibble of a product (Table 5.5). -/
def prodFlags (a : LongAcc) (audit : Bool) : Nat :=
  b2n (a.reHi == NAN_POISON || a.imHi == NAN_POISON) + 2 * b2n (a.reHi == NAN_SCORCH || a.imHi == NAN_SCORCH) +
    4 * b2n audit + 8 * b2n a.inexact

/-- The work item that holds the product of two inputs, at its channel of the run (R130, R166). -/
def itemOf (p : RunPar) (ch i j : Nat) : Item :=
  { ch := ch, row := i / 128, col := j / 128, half := if p.c8 then j % 128 / 64 else 0 }

/-- Key of an item of the run in the flag table of an integration (R166). -/
def flagAt (p : RunPar) (id ch i j : Nat) : Nat := id % 4 * 2 ^ 40 + itemNo p (itemOf p ch i j)

/-- A product of a dump with its flag nibble. -/
def Run.dumpProd (r : Run) (u : Dump) (ch p : Nat) : LongAcc × Nat :=
  let a := tget (fun _ => {}) r.image (imageKey u.par u.image ch p)
  let ij := prodPair u.par.n p
  (a, prodFlags a (tget (fun _ => false) r.flags (flagAt u.par u.id ch ij.1 ij.2)))

/-- Pairs of nibbles packed into bytes, the first in bits [3:0]. -/
def packNibbles : List Nat → List Nat
  | a :: b :: r => (a % 16 + 16 * (b % 16)) :: packNibbles r
  | [a] => [a % 16]
  | [] => []

/-- A byte list padded with zeros to a multiple of n. -/
def padTo (n : Nat) (bs : List Nat) : List Nat := bs ++ List.replicate ((n - bs.length % n) % n) 0

/-! AVP packets (R175 to R177). -/

/-- The four counts of an input as ACCOUNT data (Table 5.7). -/
def Acct.bytes (a : Acct) : List Nat :=
  leBytes 4 a.received ++ leBytes 4 a.substituted ++ leBytes 4 a.correlated ++ leBytes 4 a.skipped

/-- Planned packets of a channel: ACCOUNT and DATA packets, then one TRAILER (R176). -/
def chPackets (p : RunPar) : Nat × Nat := (ceilDiv p.n (2 ^ p.pktLog2), ceilDiv p.prods (2 ^ p.pktLog2))

/-- The data section of packet k of a channel of a dump, with FIRST, COUNT and whether a flag section follows. -/
def Run.dumpData (r : Run) (u : Dump) (ch k : Nat) : List Nat × Nat × Nat × Bool :=
  let p := u.par
  let na := (chPackets p).1
  let sz := 2 ^ p.pktLog2
  if k < na then
    let n := min sz (p.n - k * sz)
    ((List.range n).flatMap fun i => (r.acctOf u.start u.stop none ch (k * sz + i)).bytes, k * sz, n, false)
  else
    let f := (k - na) * sz
    let n := min sz (p.prods - f)
    let xs := (List.range n).map fun i => r.dumpProd u ch (f + i)
    let flagged := xs.any fun x => x.2 ≠ 0
    let bs := xs.flatMap fun x => prodDump p.dfmt x.1
    (if flagged then bs ++ padTo 8 (packNibbles (xs.map (·.2))) else bs, f, n, flagged)

/-- The CRC-64 of R177. -/
def crc64 (bs : List Nat) : Nat := crc 64 0x42F0E1EBA9EA3693 (2 ^ 64 - 1) (2 ^ 64 - 1) true true bs

/-- The DIGEST of a channel (R177). -/
def Run.chDigest (r : Run) (u : Dump) (ch : Nat) : Nat :=
  let n := chPackets u.par
  crc64 ((List.range (n.1 + n.2)).flatMap fun k => (r.dumpData u ch k).1)

/-- The dump digest: the CRC-64 over the channel digests in ascending order (R177). -/
def Run.dumpDigest (r : Run) (u : Dump) : Nat :=
  crc64 ((List.range u.par.nch).flatMap fun ch => leBytes 8 (r.chDigest u ch))

/-- Products of a channel flagged with each bit of Table 5.5. -/
def Run.chFlags (r : Run) (u : Dump) (ch : Nat) : List Nat :=
  let fs := (List.range u.par.prods).map fun p => (r.dumpProd u ch p).2
  (List.range 4).map fun b => fs.countP fun f => bit f b

/-- Products of a channel whose weight exceeds the correlated slots of either input (R46, R168). -/
def Run.weightFails (r : Run) (u : Dump) (ch : Nat) : Nat :=
  (List.range u.par.prods).countP fun p =>
    let w := (r.dumpProd u ch p).1.w
    let ij := prodPair u.par.n p
    decide (w > (r.acctOf u.start u.stop none ch ij.1).correlated) || decide (w > (r.acctOf u.start u.stop none ch ij.2).correlated)

/-- SKIPPED and SUBST of a channel over a range of batches (Table 5.6). -/
def Run.chMarks (r : Run) (p : RunPar) (start stop : Nat) (inner : Option (Nat × Nat)) (ch : Nat) : Nat :=
  let xs := (List.range p.n).map fun i => r.acctOf start stop inner ch i
  8 * b2n (xs.any fun a => a.skipped ≠ 0) + 16 * b2n (xs.any fun a => a.substituted ≠ 0)

/-- Packet k of a channel of a dump with its sequence number: header and data (R175). -/
def Dev.avpPacket (d : Dev) (u : Dump) (stream seq ch k : Nat) : List Nat :=
  let r := d.run
  let p := u.par
  let n := chPackets p
  let base := r.chMarks p u.start u.stop none ch + 2 * b2n u.acctFail + 32 * b2n u.early + 64 * b2n u.holdover
  let hd := fun type flags first count len =>
    avpHeader type flags stream seq u.id (p.s0 + u.start * p.t) (p.s0 + u.stop * p.t) (p.chBase + ch) p.dfmt p.pktLog2 first
      count len p.n d.srcDev
  if k < n.1 + n.2 then
    let x := r.dumpData u ch k
    hd (if k < n.1 then 2 else 1) (base + b2n x.2.2.2) x.2.1 x.2.2.1 x.1.length ++ x.1
  else
    let fs := r.chFlags u ch
    let wf := r.weightFails u ch
    let any := (List.range p.nch).any fun c => (r.chFlags u c).any (· ≠ 0)
    let data := leBytes 8 (r.chDigest u ch) ++ leBytes 4 p.prods ++ leBytes 4 wf ++ fs.flatMap (leBytes 4)
    hd 3 (base + b2n any + 4 * b2n (decide (wf > 0))) 0 0 data.length ++ data

/-- Channel at place k of ascending ranges. -/
def nthOf : List (Nat × Nat) → Nat → Nat
  | [], _ => 0
  | (a, b) :: r, k => if k < b + 1 - a then a + k else nthOf r (k - (b + 1 - a))

/-- How many numbers ranges hold. -/
def spanOf (rs : List (Nat × Nat)) : Nat := (rs.map fun x => x.2 + 1 - x.1).foldl (· + ·) 0

/-- Planned packets of a line of a dump (R176). -/
def Dump.linePackets (u : Dump) (l : DumpLine) : Nat := spanOf l.ranges * ((chPackets u.par).1 + (chPackets u.par).2 + 1)

/-- The next packet a dump has ready on a stream: its sequence number, channel, place and length of its body. -/
def Dump.nextOn (u : Dump) (stream : Nat) : Option (Nat × Nat × Nat) :=
  if !u.started then none
  else match u.lines.find? (fun l => l.stream == stream) with
  | none => none
  | some l =>
    if l.sent ≥ u.linePackets l then none
    else
      let per := (chPackets u.par).1 + (chPackets u.par).2 + 1
      some ((l.base + l.sent) % 2 ^ 32, nthOf l.ranges (l.sent / per), l.sent % per)

/-- Every planned packet of a dump has left or been abandoned (R179). -/
def Dump.finished (u : Dump) : Bool := u.started && u.lines.all fun l => decide (l.sent ≥ u.linePackets l)

/-- Ranges put in ascending order. -/
def sortRanges (rs : List (Nat × Nat)) : List (Nat × Nat) :=
  rs.foldl (fun acc x => acc.filter (fun y => y.1 < x.1) ++ x :: acc.filter (fun y => y.1 ≥ x.1)) []

/-- The lines of a dump from the route table: one a stream, its channels in ascending order, clipped to the run (R169,
R181). Each takes its planned numbers from its stream. -/
def Dev.planLines (d : Dev) (p : RunPar) : List DumpLine × Dev :=
  let per := (chPackets p).1 + (chPackets p).2 + 1
  d.run.route.foldl
    (fun (acc : List DumpLine × Dev) (_, _, st, rate) =>
      if acc.1.any (fun l => l.stream == st) then acc
      else
        let rs := sortRanges (d.run.route.filterMap fun (a, b, s, _) =>
          if s = st ∧ a < p.nch then some (a, min b (p.nch - 1)) else none)
        if rs.isEmpty then acc
        else
          let t := acc.2.takeSeq st (spanOf rs * per)
          (acc.1 ++ [{ stream := st, rate := rate, ranges := rs, base := t.1 }], t.2)) ([], d)

/-- What is left of a dump is abandoned: one GAP record per affected stream names the numbers (R169); its digest is taken
first, whether or not its packets left (R177). A standby twin abandons without a record (R419). -/
def Dev.abandon (d : Dev) (u : Dump) (reason : Nat) : Dev × Dump :=
  let d1 := u.lines.foldl
    (fun (e : Dev) l =>
      let tot := u.linePackets l
      if l.sent ≥ tot then e
      else
        let per := (chPackets u.par).1 + (chPackets u.par).2 + 1
        ((if e.standby then e else e.pushGap l.stream ((l.base + l.sent) % 2 ^ 32) (tot - l.sent) reason
          (nthOf l.ranges (l.sent / per)) (nthOf l.ranges ((tot - 1) / per))).cntF AC_GAPS HI32 (tot - l.sent))) d
  (d1, { u with started := true, lost := u.lost || u.lines.any (fun l => decide (l.sent < u.linePackets l)), digest := some (u.digest.getD (d.run.dumpDigest u)), lines := u.lines.map fun l => { l with sent := max l.sent (u.linePackets l) } })

/-- Every dump held in an image is abandoned (R169). -/
def Dev.abandonImage (d : Dev) (img reason : Nat) : Dev :=
  d.run.dumps.foldl
    (fun (e : Dev) u =>
      if u.image ≠ img then e
      else
        let x := e.abandon u reason
        { x.1 with run := { x.1.run with dumps := x.1.run.dumps.map fun w => if w.id = u.id ∧ w.image = img then x.2 else w } }) d

/-! Barriers and peeks (R170 to R173). -/

/-- PEEK_PEND says that a barrier is pending (AC_CTRL). -/
def Dev.syncPend (d : Dev) : Dev :=
  d.setF AC_CTRL AC_CTRL_PEEK_PEND (b2n (!(d.run.barriers.isEmpty && d.run.peeks.isEmpty)))

/-- The batch whose last chunk below it a peek waits for, that chunk, and the inner barrier (batch and course) if it has one. -/
def Run.peekPlace (r : Run) (k : Peek) : Nat × Nat × Option (Nat × Nat) :=
  let off := k.spn - r.par.s0
  let b := off / r.par.t
  let j := off % r.par.t / 256
  if j = 0 then (b - 1, r.chunks (b - 1) - 1, none) else (b, 0, some (b, j))

/-- The image bytes of a peek per selected channel (Table 5.2). -/
def Dev.peekImage (d : Dev) (k : Peek) : List Nat :=
  let r := d.run
  let p := r.par
  let pl := r.peekPlace k
  match r.integOf pl.1 with
  | none => []
  | some g =>
    let stop := match pl.2.2 with | some (b, _) => b | none => pl.1 + 1
    let closed := decide (stop = g.stop) && pl.2.2.isNone
    let img := g.id % ndb r.nint
    let prod := fun ch q =>
      if closed then tget (fun _ => {}) r.image (imageKey p img ch q) else tget (fun _ => ({} : LongAcc)) r.acc (ch * p.prods + q)
    (List.range k.chCount).flatMap fun c =>
      let ch := k.chFirst + c
      let hd := avpHeader 6 (1 + r.chMarks p g.start stop pl.2.2 ch + 64 * b2n g.holdover) 0 0 g.id (p.s0 + g.start * p.t) k.spn
        (p.chBase + ch) k.dfmt 0 0 0 0 p.n d.srcDev
      let acct := (List.range p.n).flatMap fun i => (r.acctOf g.start stop pl.2.2 ch i).bytes
      let prods := (List.range p.prods).flatMap fun q => prodDump k.dfmt (prod ch q)
      let fl := packNibbles ((List.range p.prods).map fun q =>
        let ij := prodPair p.n q
        prodFlags (prod ch q) (tget (fun _ => false) r.flags (flagAt p g.id ch ij.1 ij.2)))
      padTo 64 (hd ++ acct ++ prods ++ fl)

/-- Bytes of a peek image (Table 5.2). -/
def peekBytes (p : RunPar) (dfmt count : Nat) : Nat :=
  count * (ceilDiv (64 + 16 * p.n + prodBytes dfmt * p.prods + ceilDiv (p.n * (p.n + 1)) 4) 64 * 64)

/-- Peeks whose last chunk has been promoted are written and their jobs end (R173). -/
def servePeeks (s : State) : State :=
  (s.dev.run.peeks.filter fun k => let pl := s.dev.run.peekPlace k; s.dev.run.chunkPromoted pl.1 pl.2.1).foldl
    (fun s k =>
      let d := s.dev
      let img := d.peekImage k
      let w := memWrite d s.mem k.dest img false
      let g := d.run.integOf (d.run.peekPlace k).1
      let words := lohi k.spn ++ [(g.map (·.id)).getD 0, min (d.rdN XC_MQ_STALL - k.stall0) 0xFFFFFFFF,
        min (d.rdN XC_COURSES_CUT - k.cut0) 0xFFFFFFFF] ++ lohi (if w.1 then img.length else 0)
      let d1 := ({ d with run := { d.run with peeks := d.run.peeks.filter (· ≠ k) } }).wrN AC_BARRIER k.spn
      jobResult k.job (if w.1 then .ok else .hwFault) words { s with mem := w.2, dev := (d1.cnt AC_PEEKS 1).syncPend }) s

/-- Barriers and peeks beyond the batch boundary at which a run ends are missed: their jobs end with BAD_STATE (R171). -/
def Dev.missBeyond (d : Dev) (b : Nat) : Dev :=
  let p := d.run.par
  let late := d.run.barriers.filter fun k => decide (k.batch > b)
  let peeks := d.run.peeks.filter fun k => decide (k.spn > p.s0 + b * p.t)
  let d1 := { d with run := { d.run with barriers := d.run.barriers.filter (fun k => decide (k.batch ≤ b)),
                                         peeks := d.run.peeks.filter (fun k => decide (k.spn ≤ p.s0 + b * p.t)) } }
  let d2 := late.foldl (fun e k => e.endJob k.job .badState 0) d1
  (peeks.foldl (fun e k => e.endJob k.job .badState 0) d2).syncPend

/-! Promotion of a chunk (R161 to R167). -/

/-- CHUNK_PROMOTE on the device: the head of the promotion queue is added to its accumulators; the first chunk of an
integration opens it, the last closes it into its dump image, and when its last context is closed its dump stands ready. -/
def Dev.chunkPromote (d : Dev) : Dev :=
  let r := d.run
  match r.promq, r.promq.head?.bind fun x => r.integOf x.batch with
  | x :: rest, some g =>
    let opens := decide (x.batch = g.start) && x.chunk == 0
    let lastChunk := x.chunk + 1 == r.chunks x.batch
    let closes := decide (x.batch + 1 = g.stop) && lastChunk
    let img := g.id % ndb r.nint
    let firstOpen := opens && x.pass == 0 && !(r.integs.any fun i => i.id == g.id && i.opened)
    let d0 := if firstOpen then
        ({ d with run := { r with integs := r.integs.map (fun i => if i.id = g.id then { i with opened := true } else i),
                                  flags := r.flags.filter fun y => y.1 / 2 ^ 40 ≠ g.id % 4 } } : Dev).setF AC_INTEG
          AC_INTEG_DUMP_ID g.id
      else d
    let firstClose := closes && !(d0.run.integs.any fun i => i.id == g.id && i.closing)
    let d1 := if firstClose then
        let e := d0.abandonImage img 1
        { e with run := { e.run with integs := e.run.integs.map fun i => if i.id = g.id then { i with closing := true } else i } }
      else d0
    let r1 := ({ d1.run with promq := rest } : Run).promoteCtx x opens closes img
    let marked := bit x.ctx.item 30 || bit x.ctx.item 31
    let r2 := match marked, entryItem x.ctx.item with
      | true, some i => { r1 with flags := tset (fun _ => false) r1.flags (flagKey r1.par g.id x.pass i) true }
      | _, _ => r1
    let d2 := ({ d1 with run := r2 } : Dev).cnt AC_CHUNKS 1
    if closes && d2.run.chunkPromoted x.batch x.chunk then
      let plan := d2.planLines r.par
      let js := (d2.run.barriers.filter fun k => k.batch == g.stop).map (·.job)
      let early := g.early
      let u : Dump := { id := g.id, start := g.start, stop := g.stop, par := r.par, early := early, holdover := g.holdover,
                        image := img, lines := plan.1, jobs := js }
      let d3 := plan.2
      ({ d3 with run := { d3.run with dumps := d3.run.dumps ++ [u],
                                      barriers := d3.run.barriers.filter fun k => k.batch != g.stop } } : Dev).syncPend
    else d2
  | _ :: rest, none => { d with run := { r with promq := rest } }
  | [], _ => d

/-- A chunk promoted, and any peek it completes. -/
def chunkStep (s : State) : State := servePeeks { s with dev := s.dev.chunkPromote }

/-! The dump reader (R168, R177, R179). -/

/-- The accounting identity of R44 fails for some input and channel of a dump. -/
def Run.acctBad (r : Run) (u : Dump) : Bool :=
  (List.range u.par.nch).any fun ch => (List.range u.par.n).any fun i =>
    let a := r.acctOf u.start u.stop none ch i
    let all := u.par.t * (u.stop - u.start)
    !(a.received + a.substituted == all && a.correlated + a.skipped == all)

/-- DUMP_START (R168): the oldest dump that closed and has not been started is checked, its digest computed, and its packets
become ready. -/
def Dev.dumpStart (d : Dev) : Dev :=
  match d.run.dumps.find? fun u => !u.started with
  | none => d
  | some u =>
    let r := d.run
    let bad := r.acctBad u
    let u1 := { u with acctFail := bad, started := true, digest := some (r.dumpDigest { u with acctFail := bad }) }
    let fl := (List.range u.par.nch).map fun ch => r.chFlags u ch
    let sum := fun b => (fl.map fun x => x.getD b 0).foldl (· + ·) 0
    let wfs := (List.range u.par.nch).map fun ch => r.weightFails u ch
    let wf := wfs.foldl (· + ·) 0
    let d1 := { d with run := { r with dumps := r.dumps.map fun w => if w = u then u1 else w } }
    let d2 := if bad then ((d1.cntF AC_ACCT_FAILS LO32 1).setF AC_CTRL AC_CTRL_ACCT_FAIL 1).raise 0x0505 0xFF 0 u.id else d1
    let d3 := if wf = 0 then d2 else
      wfs.foldl (fun (e : Dev) n => (List.range n).foldl (fun (e : Dev) _ => e.raise 0x0506 0xFF 0 u.id) e)
        ((d2.cntF AC_ACCT_FAILS HI32 wf).setF AC_CTRL AC_CTRL_WEIGHT_FAIL 1)
    (((d3.cnt AC_POISONED (sum 0)).cnt AC_SCORCHED (sum 1)).cnt AC_INEXACT (sum 3)).setF AC_CTRL AC_CTRL_DUMP_BUSY 1

/-- Meaning of DUMP_START. -/
def execDumpStart (s : State) : Host.Outcome State Fault Refusal :=
  .next { s with dev := if s.dev.on AC_CTRL AC_CTRL_EN then s.dev.dumpStart else s.dev }

/-- Batches of a dump that were delivered (R425): no slot skipped, no product flagged POISON, SCORCH or AUDIT, no packet
abandoned. -/
def Run.delivered (r : Run) (u : Dump) : Nat :=
  if u.lost || (List.range u.par.nch).any (fun ch => ((r.chFlags u ch).take 3).any (· ≠ 0)) then 0
  else (List.range (u.stop - u.start)).countP fun k =>
    (List.range u.par.nch).all fun ch => (r.acctOf (u.start + k) (u.start + k + 1) none ch 0).skipped == 0

/-- Totals of skipped and substituted slots of a dump over all inputs and channels (R420). -/
def Run.dumpTotals (r : Run) (u : Dump) : Nat × Nat :=
  let xs := (List.range u.par.nch).flatMap fun ch => (List.range u.par.n).map fun i => r.acctOf u.start u.stop none ch i
  ((xs.map (·.skipped)).sum, (xs.map (·.substituted)).sum)

/-- Batches of a dump counted in today's availability bucket (R425). -/
def Dev.countAvail (d : Dev) (u : Dump) : Dev :=
  let w := d.ret.wear
  let x := w.avail.headD (0, 0)
  let n := (x.1 + (u.stop - u.start), x.2 + d.run.delivered u)
  { d with ret := { d.ret with wear := { w with avail := n :: w.avail.tail } } }

/-- DUMP_COMPLETE (R179): a dump whose every packet has left or been abandoned is counted, its digest kept, and the jobs that
wait for it end. -/
def dumpComplete (s : State) : State :=
  match s.dev.run.dumps.find? Dump.finished with
  | none => s
  | some u =>
    let d := s.dev
    let dg := u.digest.getD (d.run.dumpDigest u)
    let left := d.run.dumps.filter (· ≠ u)
    let tot := d.run.dumpTotals u
    let d1 := ({ d with run := { d.run with dumps := left, digests := ((u.id, dg) :: d.run.digests).take 16,
                                            lastDump := some (u.id, dg, tot.1, tot.2) } } : Dev).countAvail u
    let stop := u.par.s0 + u.stop * u.par.t
    let d2 := (((d1.cnt AC_DUMPS 1).wrN AC_DIGEST dg).wrN AC_BARRIER stop).setF AC_CTRL AC_CTRL_DUMP_BUSY
      (b2n (left.any fun w => w.started))
    u.jobs.foldl (fun s j => jobResult j .ok (lohi stop) s) { s with dev := d2 }

/-- Meaning of DUMP_COMPLETE. -/
def execDumpComplete (s : State) : Host.Outcome State Fault Refusal := .next (dumpComplete s)

/-! Commands of Table 5.10 other than RUN_START. -/

/-- A batch boundary at which an integration ends under what is now planned (R158). -/
def Run.isBoundary (r : Run) (b : Nat) : Bool :=
  let n := max r.nint 1
  let last := match r.integs.getLast? with | some i => i.stop | none => 0
  let xs := match r.pendNint with | some (_, x) => b == x || (decide (b > x) && (b - x) % max (r.pendNint.map (·.1) |>.getD 1) 1 == 0) | none => false
  r.integs.any (fun i => i.stop == b) || r.barriers.any (fun k => k.batch == b) || xs ||
    (decide (b > last) && r.pendNint.isNone && (b - last) % n == 0)

/-- The barrier a command names: AT_EARLIEST (word 0 [0]) or the SPN of words 1 and 2 (R171, log entry 8). -/
def barrierSpn (d : Dev) (c : Cmd) : Nat :=
  if bit (c.p 0) 0 then d.run.par.s0 + d.run.firstBarrier * d.run.par.t else c.q 1

/-- DUMP_NOW and RUN_STOP: a batch-boundary barrier is accepted as a job, or missed (R158, R171). -/
def barrierCmd (stop : Bool) (c : Cmd) (d : Dev) : Reply × Dev :=
  let p := d.run.par
  let spn := barrierSpn d c
  if !d.run.active then noR .badState d
  else if !bit (c.p 0) 0 && (decide (spn < p.s0) || (spn - p.s0) % p.t != 0) then noR .badParam d
  else
    let b := (spn - p.s0) / p.t
    checks [(decide (b < d.run.firstBarrier), .badState),
            (d.run.stopAt.any fun x => decide (b > x), .badState),
            (stop && d.run.barriers.any (·.stop), .busy)] d
      (let a := asJob c d (0x0508 + 0x10000 * c.seq + 0x1000000 * d.jobSeq) true fun i e =>
         let r := (e.run.cutInteg b)
         let e1 : Dev := { e with run := { r with barriers := r.barriers ++ [{ stop := stop, batch := b, job := i }],
                                                  stopAt := if stop then some b else r.stopAt } }
         (if stop then e1.missBeyond b else e1).syncPend
       ({ a.1 with res := lohi spn }, a.2))

/-- RUN_STOP ends the run at a batch boundary. -/
def runStopDef : CmdDef where
  op := 0x0508
  mode := 1
  masks := fun _ => [1]
  run := onDev fun c s => barrierCmd true c s.dev

/-- DUMP_NOW ends the integration at a batch boundary. -/
def dumpNowDef : CmdDef where
  op := 0x050B
  mode := 1
  masks := fun _ => [1]
  run := onDev fun c s => barrierCmd false c s.dev

/-- The largest NINT (R157). -/
def nintMax (t : Nat) : Nat := (2 ^ 32 - 1) / t

/-- Every region of a run rounded up to its 1 MiB start, in MiB (R224). -/
def regionMib (rs : List Nat) : Nat := (rs.map fun x => ceilDiv x (2 ^ 20)).foldl (· + ·) 0

/-- HBM that regions may take, in MiB: 144 GiB less 4 GiB and the dead pseudo-channels (R48, R222, R224). -/
def Dev.hbmMib (d : Dev) : Nat := d.livePc * 1152 - 4096

/-- INTEG_SET changes NINT at the next admissible integration boundary (R158); word 0 is NINT. -/
def integSetDef : CmdDef where
  op := 0x0509
  mode := 1
  bad := fun c s => c.p 0 = 0 || (s.dev.run.active && decide (c.p 0 > nintMax s.dev.run.par.t))
  run := onDev fun c s =>
    let d := s.dev
    let r := d.run
    if !r.active then noR .badState d
    else
      let rg := runRegions r.par (c.p 0)
      if ndb (c.p 0) ≠ ndb r.nint ∧ regionMib rg + d.front.hbm / 2 ^ 20 > d.hbmMib then noR .noResource d
      else
        let x := ({ r with pendNint := none } : Run).nextBoundary
        ({ code := .ok, res := lohi (r.par.s0 + x * r.par.t) }, { d with run := { r with pendNint := some (c.p 0, x) } })

/-- An entry of a DUMP_ROUTE table: channel range, stream, rate, and whether its reserved bits are zero. -/
def routeEntry (bs : List Nat) (i : Nat) : (Nat × Nat × Nat × Nat) × Bool :=
  let o := 16 * i
  ((at' bs o 2, at' bs (o + 2) 2, at' bs (o + 4) 2, at' bs (o + 8) 4), at' bs (o + 6) 2 == 0 && at' bs (o + 12) 4 == 0)

/-- Every channel below nch is covered by exactly one entry (R181). -/
def coverOnce (es : List (Nat × Nat × Nat × Nat)) (nch : Nat) : Bool :=
  let rs := (es.filter fun e => e.1 < nch).map fun e => (e.1, min e.2.1 (nch - 1))
  (sortRanges rs).foldl (fun (acc : Option Nat) x => match acc with | some k => if x.1 = k then some (x.2 + 1) else none | none => none)
    (some 0) == some nch

/-- Bytes of the largest AVP packet (R181). -/
def avpLargest (dfmt log : Nat) : Nat := 64 + max (prodBytes dfmt * 2 ^ log + 2 ^ (log - 1)) (16 * 2 ^ log)

/-- An entry of the dump route names channels in order and a stream of class 1 that holds the largest packet. -/
def Dev.dumpEntryOk (d : Dev) (largest : Nat) (e : (Nat × Nat × Nat × Nat) × Bool) : Bool :=
  e.2 && decide (e.1.1 ≤ e.1.2.1) && match d.stream e.1.2.2.1 with | some st => st.cls == 1 && st.fits largest | none => false

/-- DUMP_ROUTE replaces the route table (R181, R520). -/
def dumpRouteDef : CmdDef where
  op := 0x050A
  mode := 1
  masks := fun _ => [0x1F, 0xFFFFFFFF, 0xFFFF]
  bad := fun c _ => c.b 0 4 0 < 1 || c.b 0 4 0 > 16 || c.q 1 % 16 != 0
  run := onDev fun c s =>
    let d := s.dev
    let n := c.b 0 4 0
    match readTable d s.mem (c.q 1) (16 * n) with
    | .error k => noR k d
    | .ok bs =>
      let es := (List.range n).map (routeEntry bs)
      let tab := es.map (·.1)
      let dfmt := if d.run.active then d.run.par.dfmt else d.f AC_CTRL AC_CTRL_DFMT
      let log := if d.run.active then d.run.par.pktLog2 else d.f AC_CTRL AC_CTRL_PKT_LOG2
      if !es.all (d.dumpEntryOk (avpLargest dfmt log)) || (d.run.active && !coverOnce tab d.run.par.nch) then noR .badParam d
      else okR [] { d with run := { d.run with route := tab } }

/-- PEEK copies products at a barrier (Table 5.12, R171 to R173). -/
def peekDef : CmdDef where
  op := 0x050C
  mode := 1
  masks := fun _ => [7, 0xFFFFFFFF, 0xFFFFFFFF, 0xFFFFFFFF, 0xFFFFFFFF, 0xFFFF]
  bad := fun c s => c.b 0 2 1 == 3 || c.q 4 % 64 != 0 ||
    match (s.dev.route (c.q 4)).1 with | .hbm | .ddr => false | _ => true
  run := onDev fun c s =>
    let d := s.dev
    let r := d.run
    let p := r.par
    if !r.active then noR .badState d
    else
      let spn := barrierSpn d c
      let chF := c.b 3 15 0
      let n := c.b 3 31 16 + 1
      let off := spn - p.s0
      let b := off / p.t
      let j := off % p.t / 256
      let jb := tget (fun _ => 0) r.inner b
      let bytes := peekBytes p (c.b 0 2 1) n
      checks [(decide (spn < p.s0) || off % 256 != 0 || decide (chF + n > p.nch), .badParam),
              (j == 0 && r.isBoundary b, .badParam),
              (decide (b < r.bs + (if j = 0 then 2 else 4)), .badState),
              (r.stopAt.any fun x => decide (spn > p.s0 + x * p.t), .badState),
              (decide (r.peeks.length ≥ 4) || (j != 0 && jb != 0 && jb != j + 1), .busy),
              (decide (c.q 6 < bytes) || !d.demandOk (d.demand p 2), .noResource)] d
        (asJob c d (0x050C + 0x1000000 * d.jobSeq) true fun i e =>
          ({ e with run := { e.run with
              inner := if j = 0 then e.run.inner else tset (fun _ => 0) e.run.inner b (j + 1),
              peeks := e.run.peeks ++ [{ spn := spn, chFirst := chF, chCount := n, dest := c.q 4, dfmt := c.b 0 2 1, job := i }] } } : Dev).syncPend)

/-- The counters of Table 5.9. -/
def accCounters : List Nat :=
  [AC_CHUNKS, AC_DUMPS, AC_PKTS, AC_GAPS, AC_POISONED, AC_SCORCHED, AC_INEXACT, AC_ACCT_FAILS, AC_PEEKS]

/-- ACC_STATUS: the AC registers, counters, pending barriers and the last 16 dump digests; CLEAR clears the counters. -/
def accStatusDef : CmdDef where
  op := 0x050D
  mode := 1
  run := onDev fun c s =>
    let d := s.dev
    let p := d.run.par
    let regs := [AC_CTRL, AC_INTEG, AC_BARRIER, AC_DIGEST] ++ accCounters
    okR (regs.flatMap (fun a => lohi (d.rdN a)) ++
        [d.run.barriers.length + d.run.peeks.length] ++ d.run.barriers.flatMap (fun k => lohi (p.s0 + k.batch * p.t)) ++
        d.run.peeks.flatMap (fun k => lohi k.spn) ++ d.run.digests.flatMap (fun x => x.1 :: lohi x.2))
      (if c.clear then d.clearRegs accCounters else d)

/-- Meanings of the dump commands. -/
def execRunStop (slot : Nat) (s : State) : Host.Outcome State Fault Refusal := .next (serve runStopDef slot 0 0 s)
def execIntegSet (slot : Nat) (s : State) : Host.Outcome State Fault Refusal := .next (serve integSetDef slot 0 0 s)
def execDumpRoute (slot : Nat) (s : State) : Host.Outcome State Fault Refusal := .next (serve dumpRouteDef slot 0 0 s)
def execDumpNow (slot : Nat) (s : State) : Host.Outcome State Fault Refusal := .next (serve dumpNowDef slot 0 0 s)
def execPeek (slot : Nat) (s : State) : Host.Outcome State Fault Refusal := .next (serve peekDef slot 0 0 s)
def execAccStatus (slot : Nat) (s : State) : Host.Outcome State Fault Refusal := .next (serve accStatusDef slot 0 0 s)

end Sys2Proof.Machine
end

