-- ==== Sys2Proof/Machine/Capture.lean ====
section
/-!
DEFINITION. The capture ring: selection, segments, triggers, forwarding and readout (07_memories R225 to R240).
-/
namespace Sys2Proof.Machine

/-! Sample numbers (R296) and the front's spectrum period. -/

/-- The epoch of a generator in units of 2^-40 ns. -/
def Dev.sngEpoch (d : Dev) (g : Nat) : Nat :=
  d.f (TIM_SNG_EP_SEC g) TIM_SNG_EP_SEC_SEC * secUnits + d.f (TIM_SNG_EP_NS g) TIM_SNG_EP_NS_NSFRAC * 2 ^ 24

/-- The sample counter of a generator at a time of day (R296). -/
def Dev.sngAt (d : Dev) (g t : Nat) : Nat :=
  let den := d.f (TIM_SNG_DEN g) TIM_SNG_DEN_DEN
  (t - d.sngEpoch g) * d.rdN (TIM_SNG_NUM g) / (max den 1 * secUnits)

/-- The sample counter of a generator now. -/
def Dev.sngCount (d : Dev) (g : Nat) : Nat := d.sngAt g d.tod

/-- Points P of the front's filterbank (R100). -/
def Dev.frP (d : Dev) : Nat := let l := d.f FR_CTRL FR_CTRL_LOG2P; 2 ^ (if 8 ≤ l ∧ l ≤ 14 then l else 8)

/-- Mode of the filterbank: 0 critical, 1 4/3 oversampled, 2 settling. -/
def Dev.frMode (d : Dev) : Nat := let m := d.f FR_CTRL FR_CTRL_MODE; if m = 3 then 0 else m

/-- Taps of the filterbank (R100, R105). -/
def Dev.frTaps (d : Dev) : Nat := if d.frMode = 2 then 1 else clampN 4 16 (d.f FR_CTRL FR_CTRL_NTAP)

/-- Hop H between spectra (Table 3.2). -/
def Dev.frHop (d : Dev) : Nat := match d.frMode with | 1 => 3 * d.frP / 4 | 2 => d.frP / 2 | _ => d.frP

/-- Output sample rate of an input of the front as a fraction of 2^46 · rate and denominator (R97). -/
def Dev.frRate (d : Dev) (i : FInput) : Nat × Nat :=
  (d.rdN (TIM_SNG_NUM i.sng) * 2 ^ 46, max (d.f (TIM_SNG_DEN i.sng) TIM_SNG_DEN_DEN) 1 * max i.q 1)

/-- The front's spectrum period in units of 2^-16 ps. -/
def Dev.frontPeriod (d : Dev) : Nat :=
  match d.front.inputs.head? with
  | none => 0
  | some i => let r := d.frRate i; if r.1 = 0 then 0 else d.frHop * r.2 * 10 ^ 12 * 2 ^ 16 / r.1

/-- The device captures what the front makes (R39): the front role. -/
def Dev.capFront (d : Dev) : Bool := d.role == 1

/-- C8 samples in the captured stream. -/
def Dev.capC8 (d : Dev) : Bool := if d.capFront then d.on FR_CTRL FR_CTRL_FMT else d.on XC_CTRL XC_CTRL_FMT

/-- Spectrum period of the captured stream in units of 2^-16 ps; zero when none is known. -/
def Dev.capPeriod (d : Dev) : Nat := if d.capFront then d.frontPeriod else if d.run.par.n = 0 then 0 else d.run.par.period

/-! Geometry (R225 to R227). -/

/-- Live DDR channels as a mask. -/
def Dev.liveDdr (d : Dev) : Nat :=
  (List.range 8).foldl (fun m c => if d.f (MC_CHSTAT (64 + c)) MC_CHSTAT_STATE ≠ 3 ∧ d.memc.dimm.getD c 0 ≠ 0 then m + 2 ^ c else m) 0

/-- Number of channels of a mask. -/
def maskCount (m : Nat) : Nat := (List.range 8).countP fun c => bit m c

/-- Rows of eight grains of the capture area (R225): the smallest live DIMM less 1 GiB. -/
def Dev.capRows (d : Dev) : Nat := (d.dimmMin - 2 ^ 30) / d.grain false

/-- Window unit of a live grain by its ordinal among the live grains of the capture area, wrapping at its end (R227). -/
def capUnit (rows mask ord : Nat) : Nat :=
  let l := maskCount mask
  if l = 0 ∨ rows = 0 then 0
  else
    let row := ord / l % rows
    let liveIx := (List.range 8).filter fun i => bit mask (i ^^^ (row % 8))
    row * 8 + liveIx.getD (ord % l) 0

/-- The ordinal of the first live grain at or after a window unit. -/
def capOrd (mask unit : Nat) : Nat :=
  unit / 8 * maskCount mask + ((List.range (unit % 8)).filter fun i => bit mask (i ^^^ (unit / 8 % 8))).length

/-- The numbers from the least `lo` to the greatest `hi` of some ranges that lie in one of them, ascending. -/
def inRanges (l : List (Nat × Nat)) : List Nat :=
  let lo := l.foldl (fun m x => min m x.1) 65536
  let hi := l.foldl (fun m x => max m (x.2 + 1)) 0
  ((List.range (hi - lo)).map (lo + ·)).filter fun c => l.any fun x => decide (x.1 ≤ c ∧ c ≤ x.2)

/-- Channels selected, ascending. -/
def capChans (sel : List (Nat × Nat × Nat × Nat)) : List Nat := inRanges (sel.map fun x => (x.2.2.1, x.2.2.2))

/-- Inputs selected of a channel, ascending. -/
def capInputs (sel : List (Nat × Nat × Nat × Nat)) (c : Nat) : List Nat :=
  inRanges ((sel.filter fun x => decide (x.2.2.1 ≤ c ∧ c ≤ x.2.2.2)).map fun x => (x.1, x.2.1))

/-- Selected (channel, input) pairs in the order of R226. -/
def capPairs (sel : List (Nat × Nat × Nat × Nat)) : List (Nat × Nat) :=
  (capChans sel).flatMap fun c => (capInputs sel c).map fun i => (c, i)

/-- Courses a segment (R226): the smallest power of two that makes the payload at least 1 MiB, or 256. -/
def segCourses (nsel w : Nat) : Nat :=
  ([1, 2, 4, 8, 16, 32, 64, 128].find? fun k => decide (256 * k * nsel * w ≥ 2 ^ 20)).getD 256

/-- Courses a segment in force. -/
def Dev.segCrs (d : Dev) : Nat := let v := d.f CAP_STAT CAP_STAT_SEG_CRS; if v = 0 then 256 else v

/-- Spectra a segment. -/
def Dev.segSpec (d : Dev) : Nat := 256 * d.segCrs

/-- Grains a segment. -/
def segGrains (g nsel w crs : Nat) : Nat := ceilDiv (64 + 256 * crs * nsel * w) g

/-- Bytes of a sample in capture. -/
def Dev.capW (d : Dev) : Nat := fmtW d.capC8

/-- Window address of a byte of a segment. -/
def Dev.segAddr (d : Dev) (x : CapSeg) (off : Nat) : Nat :=
  let g := d.grain false
  0x200000000000 + capUnit d.capRows x.mask (x.first + off / g) * g + off % g

/-- Capture state (Table 7.4). -/
def Dev.capState (d : Dev) : Nat := d.f CAP_STAT CAP_STAT_STATE

/-- Capture is writing. -/
def Dev.capWriting (d : Dev) : Bool := d.capState == 1 || d.capState == 2 || d.capState == 3

/-- Capacity R in segments. -/
def Dev.capR (d : Dev) : Nat := d.f CAP_STAT CAP_STAT_SEGS

/-- The state of capture set. -/
def Dev.setCap (d : Dev) (v : Nat) : Dev := d.setF CAP_STAT CAP_STAT_STATE v

/-- Numbers of the segments held, ascending. -/
def Dev.capHeld (d : Dev) : List Nat := d.cap.segs.filterMap fun p => if p.2.isSome then some p.1 else none

/-! Writing (R226 to R228). -/

/-- A segment begins: the next live grains are taken, a change of the live set is entered in the epoch table, and the oldest
segment of a full ring goes (R227). -/
def Dev.capBegin (d : Dev) (j : Nat) : Dev :=
  match tget (fun _ => none) d.cap.segs j with
  | some _ => d
  | none =>
    let live := d.liveDdr
    let nsel := (capPairs d.cap.sel).length
    let g := segGrains (d.grain false) nsel d.capW d.segCrs
    let changed := live != d.cap.live && d.cap.live != 0
    if live = 0 ∨ (changed && decide (d.cap.epochs.length ≥ 8)) then d.setCap 5
    else
      let ord := if changed then capOrd live (capUnit d.capRows d.cap.live d.cap.next) else d.cap.next
      let x : CapSeg := { first := ord, mask := live }
      let r := d.capRows * maskCount live / max g 1
      let addr := d.segAddr x 0
      let old := d.capHeld
      let segs := if old.length ≥ r ∧ r ≠ 0 then old.foldl
          (fun (acc : Tbl (Option CapSeg) × Nat) k => if acc.2 ≥ r then (tset (fun _ => none) acc.1 k none, acc.2 - 1) else acc)
          (d.cap.segs, old.length) |>.1 else d.cap.segs
      let c := { d.cap with segs := tset (fun _ => none) segs j (some x), next := (ord + g) % max (d.capRows * maskCount live) 1,
                            live := live,
                            epochs := if changed then d.cap.epochs ++ [(j, addr, live)] else d.cap.epochs }
      (({ d with cap := c } : Dev).setF CAP_STAT CAP_STAT_EPOCHS c.epochs.length).setF CAP_STAT CAP_STAT_SEGS r

/-- A segment completes (R228): its header is written, it counts in CAP_SEGS, and the state follows (Table 7.4, R235). -/
def capComplete (s : State) (j : Nat) : State :=
  let d := s.dev
  match tget (fun _ => none) d.cap.segs j with
  | none => s
  | some x =>
    if x.complete then s
    else
      let nsel := (capPairs d.cap.sel).length
      let n := d.segSpec * nsel * d.capW
      let payload := (List.range n).map fun o => s.mem.rd8 (d.segAddr x (64 + o))
      let dead := (List.range (ceilDiv (64 + n) (d.grain false))).any fun k => d.dead (d.segAddr x (k * d.grain false))
      let fl := x.flags ||| b2n (decide (x.blanked > 0)) ||| (2 * b2n dead) ||| (4 * b2n d.inHoldover)
      let hd := header [(2, 0xA7B9), (1, 1), (1, fl), (4, nsel), (8, d.segSpec * j), (4, d.cap.selGen), (4, x.blanked),
        (8, d.segAddr x 0), (4, if bit fl 4 then 0 else crc32c payload), (24, 0)]
      let mem := hd.zipIdx.foldl (fun m (b, k) => (memWrite d m (d.segAddr x k) [b] false).2) s.mem
      let x1 := { x with complete := true, flags := fl }
      let d1 := ({ d with cap := { d.cap with segs := tset (fun _ => none) d.cap.segs j (some x1) } } : Dev).cnt CAP_SEGS 1
      let full := (d1.cap.segs.countP fun p => match p.2 with | some y => y.complete | none => false) ≥ d1.capR
      let d2 := if d1.capState = 1 ∧ full then d1.setCap 2 else d1
      let d3 := if d2.capState = 3 ∧ d2.cap.freeze = some j then
          (d2.setCap 4).wrN FREEZE_SPN ((d2.segSpec * (j + 1)) % 2 ^ 64) else d2
      { s with mem := mem, dev := d3 }

/-- One entry of a spectrum put into its segment, unless a dropped range covers it; the second number counts blanked entries. -/
def capPut (d : Dev) (x : CapSeg) (base blank : Nat) (val : Nat → Nat → Option Nat) (acc : Mem × Nat) (e : (Nat × Nat) × Nat) : Mem × Nat :=
  let v := val e.1.1 e.1.2
  let off := base + e.2 * d.capW
  if x.drops.any (fun (a, n) => decide (a ≤ off ∧ off < a + n)) then acc
  else
    ((leBytes d.capW (v.getD blank)).zipIdx.foldl (fun m (b, q) => (memWrite d m (d.segAddr x (off + q)) [b] false).2) acc.1,
      if v.isNone then acc.2 + 1 else acc.2)

/-- One spectrum copied into the ring: `val` gives the code of a selected slot, none where nothing was received (R39, R226,
R228). -/
def capSpectrum (spn : Nat) (val : Nat → Nat → Option Nat) (s : State) : State :=
  let d := s.dev
  let j := spn / d.segSpec
  match d.cap.firstSeg with
  | none => s
  | some f =>
    if !d.capWriting || decide (j < f) then s
    else
      let d1 := d.capBegin j
      match tget (fun _ => none) d1.cap.segs j with
      | none => { s with dev := d1 }
      | some x =>
        let w := d1.capW
        let pairs := capPairs d1.cap.sel
        let base := 64 + (spn % d1.segSpec) * pairs.length * w
        let blank := if w = 2 then 0x8080 else 0x88
        let r := pairs.zipIdx.foldl (capPut d1 x base blank val) (s.mem, 0)
        let c := { d1.cap with segs := tset (fun _ => none) d1.cap.segs j (some { x with blanked := x.blanked + r.2 }),
                               newest := if d1.capFront then max d1.cap.newest (spn + 1) else d1.cap.newest }
        { s with mem := r.1, dev := { d1 with cap := c } }

/-- The spectra of a batch copied at its close, and every segment completed that ends with it (R228, log entry 11). -/
def capBatch (b : Nat) (s : State) : State :=
  let d := s.dev
  let p := d.run.par
  if !d.capWriting || d.capFront then s
  else
    let val := fun t c i =>
      if c < p.chBase ∨ c ≥ p.chBase + p.nch then none
      else
        let v := d.run.slotAt (b * p.t + t) (c - p.chBase) i
        if v = 0 ∨ v = 70000 then none else some (v - 1)
    let s1 := (List.range p.t).foldl (fun s t => capSpectrum (p.s0 + b * p.t + t) (val t) s) s
    let fin := p.s0 + (b + 1) * p.t
    (s1.dev.capHeld.filter fun j => decide ((j + 1) * s1.dev.segSpec ≤ fin)).foldl capComplete s1

/-- The end of a run or of the front freezes a capture that writes (R230). -/
def Dev.capStop (d : Dev) : Dev :=
  if d.capWriting then (d.setCap 4).setF CAP_STAT CAP_STAT_STOPPED 1 else d

/-! Triggers (R231 to R236). -/

/-- A trigger message (Table 7.6). -/
def trigMessage (reason dev seq st input channel post : Nat) (user : List Nat) : List Nat :=
  let b := leBytes 2 0xA7B8 ++ [1, reason % 256] ++ leBytes 2 dev ++ leBytes 2 seq ++ leBytes 8 st ++ leBytes 4 input ++
    leBytes 4 channel ++ leBytes 4 post ++ (user ++ List.replicate 32 0).take 32
  b ++ leBytes 4 (crc32c b)

/-- An accepted trigger of kinds 1 to 3 is forwarded when FWD is set (R236). -/
def Dev.trigForward (d : Dev) (reason st input channel post : Nat) : Dev :=
  if !d.on CAP_CTRL CAP_CTRL_FWD || d.cap.fwdKind = 0 then d
  else
    let seq := (d.cap.trigSeq + 1) % 2 ^ 16
    let msg := trigMessage reason d.srcDev seq st input channel post []
    let d1 := { d with cap := { d.cap with trigSeq := seq } }
    if d.cap.fwdKind = 1 then
      let t := d1.takeSeq d.cap.fwdStream 1
      t.2.push { stream := d.cap.fwdStream, seq := t.1, at' := d.now,
                 body := acpHeader 3 (4 * b2n d.inHoldover) d.cap.fwdStream t.1 d.srcDev 0 0 0 0 0 0 0 0 0 0 msg ++ msg }
    else
      match d.cap.fwdLanes.head? with
      | none => d1
      | some n =>
        let l := d1.lane n
        d1.setLane n { l with txq := l.txq ++ [{ type := 5, link := d.cap.fwdLink, payload := padTo 4096 msg }] }

/-- How a trigger was judged (R234). -/
inductive Verdict where
  | accepted | stale | future | frozen
  deriving DecidableEq, Repr

/-- A trigger judged against the ring; an accepted one is logged, and moves capture to TRIGGERED or extends it (R234, R235). -/
def Dev.judge (d : Dev) (kind st input channel post : Nat) (user : List Nat) : Dev × Verdict :=
  let span := d.capR * d.segSpec
  let oldest := match d.capHeld with | j :: _ => j * d.segSpec | [] => (d.cap.firstSeg.getD 0) * d.segSpec
  if d.capState = 0 ∨ d.capState = 4 ∨ d.capState = 5 then (d.cntF TRIG_REJ HI32 1, .frozen)
  else if st < oldest then (d.cntF TRIG_REJ ⟨15, 0⟩ 1, .stale)
  else if st > d.cap.newest - 1 + span then (d.cntF TRIG_REJ ⟨31, 16⟩ 1, .future)
  else
    let e : TrigEntry := { kind := kind, st := st, timeS := d.todSec, timeNs := d.todNs, input := input, channel := channel, user := user }
    let d1 := ({ d with cap := { d.cap with log := (e :: d.cap.log).take 16 } } : Dev).cntF TRIG_ACC LO32 1
    let p := if post = 0 then d.f CAP_POST CAP_POST_POST else post
    let f := (st + 256 * p) / d.segSpec
    let d2 :=
      if d1.capState = 1 ∨ d1.capState = 2 then
        ({ d1 with cap := { d1.cap with freeze := some f, firstSt := st } } : Dev).setCap 3
      else if d1.on CAP_CTRL CAP_CTRL_EXTEND then
        { d1 with cap := { d1.cap with freeze := some (max (d1.cap.freeze.getD 0) (min f (d1.cap.firstSt / d.segSpec + d.capR - 1))) } }
      else d1
    let fin : Bool := (d2.cap.freeze.bind fun j => tget (fun _ => none) d2.cap.segs j).any fun x => x.complete
    (if d2.capState = 3 ∧ fin = true then (d2.setCap 4).wrN FREEZE_SPN (d2.segSpec * (d2.cap.freeze.getD 0 + 1) % 2 ^ 64) else d2, .accepted)

/-- A trigger of an enabled kind (SRC_EN covers kinds 1, 3, 4 and 5; kind 2 is always enabled), judged and forwarded. -/
def Dev.trigger (d : Dev) (kind reason st input channel post : Nat) (user : List Nat) : Dev × Option Verdict :=
  let en := d.f CAP_CTRL CAP_CTRL_SRC_EN
  let on := match kind with | 1 => bit en 0 | 2 => true | 3 => bit en 1 | 4 => bit en 2 | 5 => bit en 3 | _ => false
  if !on then (d, none)
  else
    let r := d.judge kind st input channel post user
    (if r.2 = .accepted ∧ kind ≤ 3 then r.1.trigForward reason st input channel post else r.1, some r.2)

/-- A received trigger message is checked and judged (R233). -/
def Dev.trigReceived (d : Dev) (kind : Nat) (bs : List Nat) : Dev :=
  let en := d.f CAP_CTRL CAP_CTRL_SRC_EN
  if !bit en (kind - 2) then d
  else if at' bs 0 2 ≠ 0xA7B8 ∨ at' bs 2 1 ≠ 1 ∨ at' bs 60 4 ≠ crc32c (bs.take 60) ∨ bs.length < 64 then d.cntF TRIG_DUP HI32 1
  else
    let dev := at' bs 4 2
    let seq := at' bs 6 2
    match d.cap.senders.find? fun x => x.1 == dev with
    | some (_, last) =>
      let seen := { d with cap := { d.cap with senders := (dev, last) :: d.cap.senders.filter fun x => x.1 != dev } }
      if !later seq last 16 then seen.cntF TRIG_DUP LO32 1
      else
        let r := seen.trigger kind 0 (at' bs 8 8) (at' bs 16 4) (at' bs 20 4) (at' bs 24 4) ((bs.drop 28).take 32)
        if r.2 = some .accepted then
          { r.1 with cap := { r.1.cap with senders := (dev, seq) :: r.1.cap.senders.filter fun x => x.1 != dev } }
        else r.1
    | none =>
      let r := d.trigger kind 0 (at' bs 8 8) (at' bs 16 4) (at' bs 20 4) (at' bs 24 4) ((bs.drop 28).take 32)
      if r.2 = some .accepted then { r.1 with cap := { r.1.cap with senders := ((dev, seq) :: r.1.cap.senders).take 16 } } else r.1

/-- The spectrum of a moment in the captured stream (Table 7.5, kind 1). -/
def Dev.spnNow (d : Dev) : Nat :=
  if d.capFront then
    match d.front.inputs.head? with
    | some i => d.sngCount i.sng * 2 ^ 46 / (max i.q 1 * max d.frHop 1)
    | none => 0
  else d.expSpn

/-- State of a TRIG_IN pin: the last accepted edge, and whether its timeout was raised. -/
def Dev.trigPin (d : Dev) (p : Nat) : Option Nat × Bool := tget (fun _ => (none, false)) d.cap.pins p

/-- TRIG_IN_EDGE (R232): an edge of an enabled pin is filtered by polarity, by how long its level holds and by the time since
the last accepted edge; an accepted one is a kind-1 trigger. -/
def Dev.trigEdge (d : Dev) (pin : Nat) (rising : Bool) (holdNs : Nat) : Dev :=
  if pin ≥ 4 ∨ !bit (d.f CAP_CTRL CAP_CTRL_PIN_EN) pin ∨ !bit (d.f CAP_CTRL CAP_CTRL_SRC_EN) 0 then d
  else
    let pol := bit (d.f CAP_TRIG CAP_TRIG_POL) pin
    let mpw := clampN 1 100000 (d.f CAP_TRIG CAP_TRIG_MPW) * 10
    let gap := clampN 1 (10 ^ 7) (d.f CAP_TRIG CAP_TRIG_MIN_INT) * 1000
    let old := (d.trigPin pin).1
    if rising == pol || holdNs < mpw || old.any (fun t => decide (d.now < t + gap)) then d.cntF TRIG_ACC HI32 1
    else
      let d1 := { d with cap := { d.cap with pins := tset (fun _ => (none, false)) d.cap.pins pin (some d.now, false) } }
      (d1.trigger 1 0 d1.spnNow 0xFFFFFFFF 0xFFFFFFFF 0 []).1

/-- Meaning of TRIG_IN_EDGE. -/
def execTrigInEdge (pin : Nat) (rising : Bool) (holdNs : Nat) (s : State) : Host.Outcome State Fault Refusal :=
  .next { s with dev := s.dev.trigEdge pin rising holdNs }

/-- TRIG_TIMEOUT (R232): an enabled pin with no accepted edge for PIN_TIMEOUT raises TRIG_TIMEOUT once. -/
def execTrigTimeout (pin : Nat) (s : State) : Host.Outcome State Fault Refusal :=
  let d := s.dev
  let x := d.trigPin pin
  if pin ≥ 4 ∨ !bit (d.f CAP_CTRL CAP_CTRL_PIN_EN) pin ∨ d.f CAP_TRIG CAP_TRIG_PIN_TIMEOUT = 0 ∨ x.2 then .next s
  else
    let d1 := { d with cap := { d.cap with pins := tset (fun _ => (none, false)) d.cap.pins pin (x.1, true) } }
    .next { s with dev := d1.raise 0x0703 pin 0 pin }

/-- CAP_DROP (R229): a capture request overdue by more than 12 µs more is dropped; its bytes of the segment are not written
and FLAGS bit 4 is set. -/
def execCapDrop (seg off len : Nat) (s : State) : Host.Outcome State Fault Refusal :=
  let d := s.dev
  match d.capWriting, tget (fun _ => none) d.cap.segs seg with
  | true, some x =>
    if x.complete then .next s
    else
      let x1 := { x with flags := x.flags ||| 16, drops := (off, len) :: x.drops }
      .next { s with dev := ({ d with cap := { d.cap with segs := tset (fun _ => none) d.cap.segs seg (some x1) } } : Dev).cnt CAP_DROP 1 }
  | _, _ => .next s

/-! Commands (R239, R240). -/

/-- A selection entry. -/
def selEntry (bs : List Nat) (i : Nat) : Nat × Nat × Nat × Nat :=
  (at' bs (8 * i) 2, at' bs (8 * i + 2) 2, at' bs (8 * i + 4) 2, at' bs (8 * i + 6) 2)

/-- CAP_CONFIG (R229, R240). -/
def capConfigDef : CmdDef where
  op := 0x0704
  mode := 1
  masks := fun _ => [0x7F, 0xFFFFFFFF, 0xFFFF, 0xFFFFF, 0xFFFFFFFF, 0xFFFFFFFF, 0xFFFF, 0x3FF, 0xFFFFFFFF, 0x0FFFFFFF, 0xFFFFFF]
  bad := fun c s =>
    c.b 0 6 0 < 1 || c.b 0 6 0 > 64 || c.q 1 % 8 != 0 || c.b 3 1 0 == 3 ||
      (c.b 3 1 0 == 1 && !s.dev.streamIs (c.b 3 11 2) 5) || c.b 8 23 4 < 1 || c.b 8 23 4 > 100000 ||
      bits (c.q 8) 47 24 > 10 ^ 7 || bits (c.q 8) 59 48 > 3600
  run := onDev fun c s =>
    let d := s.dev
    if d.capState ≠ 0 then noR .badState d
    else match readTable d s.mem (c.q 1) (8 * c.b 0 6 0) with
    | .error k => noR k d
    | .ok bs =>
      let sel := (List.range (c.b 0 6 0)).map (selEntry bs)
      if sel.any (fun (a, b, e, f) => decide (a > b ∨ e > f ∨ b > 4095)) then noR .badParam d
      else
        let w := d.capW
        let n := (capPairs sel).length
        let crs := segCourses n w
        let g := segGrains (d.grain false) n w crs
        let bytes := g * d.grain false
        let live := maskCount d.liveDdr
        let r := d.capRows * live / max g 1
        let per := d.capPeriod * 256 * crs
        let rate := if per = 0 then 0 else bytes * 10 ^ 12 * 2 ^ 16 / per
        let mts := 4800 + 400 * min (d.f MC_MAP MC_MAP_DDR_RATE) 4
        let lim := min (300 * 10 ^ 9) (37500000000 * live * mts / 6400)
        if rate > lim then ({ code := .noResource, res := [crs, r, 0, rate / 10 ^ 6] }, d)
        else
          let cap := { d.cap with sel := sel, selGen := (d.cap.selGen + 1) % 2 ^ 32, fwdKind := c.b 3 1 0, fwdStream := c.b 3 11 2,
                                  fwdLink := c.b 3 19 12, segs := [], epochs := [], next := 0, live := 0,
                                  fwdLanes := (List.range 80).filter fun n => bit (c.q 4 + c.b 6 15 0 * 2 ^ 64) n }
          let d1 := (((((({ d with cap := cap } : Dev).wrN CAP_CTRL (c.b 7 9 0)).wrN CAP_TRIG (c.q 8 % 2 ^ 60)).wrN CAP_POST
            (c.b 10 23 0)).setF CAP_STAT CAP_STAT_SEG_CRS (crs % 256)).setF CAP_STAT CAP_STAT_SEGS r).setF CAP_STAT CAP_STAT_EPOCHS 0
          okR [crs, r, r * per / (10 ^ 9 * 2 ^ 16), rate / 10 ^ 6] d1

/-- Capture starts at the first segment boundary that no batch has closed past (R230). -/
def Dev.capArm (d : Dev) : Dev :=
  let from' := if d.capFront then d.front.spn else d.run.par.s0 + d.run.closed * d.run.par.t
  ({ d with cap := { d.cap with firstSeg := some (ceilDiv from' d.segSpec), segs := [], freeze := none } } : Dev).setCap 1

/-- A run or the front is running. -/
def Dev.streaming (d : Dev) : Bool := d.run.active || d.front.running

/-- CAP_ARM (R230). -/
def capArmDef : CmdDef where
  op := 0x0705
  mode := 1
  run := onDev fun _ s =>
    if s.dev.capState ≠ 0 ∨ !s.dev.streaming ∨ s.dev.cap.sel.isEmpty then noR .badState s.dev else okR [] s.dev.capArm

/-- CAP_TRIGGER: word 0 [0] NOW, [15:8] REASON; words 1 and 2 the SPN; word 3 POST_CRS (log entry 8). -/
def capTriggerDef : CmdDef where
  op := 0x0706
  mode := 1
  masks := fun _ => [0xFF01]
  run := onDev fun c s =>
    let d := s.dev
    let st := if bit (c.p 0) 0 then d.cap.newest - 1 else c.q 1
    match d.trigger 2 (c.b 0 15 8) st 0xFFFFFFFF 0xFFFFFFFF (c.p 3) [] with
    | (d1, some .accepted) => okR (lohi st) d1
    | (d1, some .stale) => ({ code := .badState, res := [1] }, d1)
    | (d1, some .future) => ({ code := .badState, res := [2] }, d1)
    | (d1, _) => ({ code := .badState, res := [3] }, d1)

/-- CAP_RELEASE: to IDLE, or with word 0 [0] RE_ARM to FILLING; the trigger log is cleared (R237). -/
def capReleaseDef : CmdDef where
  op := 0x0708
  mode := 1
  masks := fun _ => [1]
  run := onDev fun c s =>
    let d := s.dev
    if bit (c.p 0) 0 && !d.streaming then noR .badState d
    else
      let d1 := (({ d with cap := { d.cap with log := [], freeze := none, firstSeg := none, segs := [] } } : Dev).setCap 0).setF
        CAP_STAT CAP_STAT_STOPPED 0
      okR [] (if bit (c.p 0) 0 then d1.capArm else d1)

/-- CAP_READ (R237): words 0 and 1 the first SPN, 2 the spectra, 3 IN_LO [11:0] IN_HI [27:16], 4 CH_LO and CH_HI, 5 [0] a
stream and [25:16] which, 6 and 7 the address (log entry 8). -/
def capReadDef : CmdDef where
  op := 0x0707
  mode := 1
  masks := fun _ => [0xFFFFFFFF, 0xFFFFFFFF, 0xFFFFFFFF, 0x0FFF0FFF, 0xFFFFFFFF, 0x03FF0001, 0xFFFFFFFF, 0xFFFF]
  bad := fun c s =>
    let sel := s.dev.cap.sel
    c.q 0 % 256 != 0 || c.p 2 % 256 != 0 || c.p 2 == 0 || c.b 3 11 0 > c.b 3 27 16 || c.b 4 15 0 > c.b 4 31 16 ||
      (bit (c.p 5) 0 && !s.dev.streamIs (c.b 5 25 16) 4) ||
      !((List.range (c.b 4 31 16 + 1 - c.b 4 15 0)).all fun k => (List.range (c.b 3 27 16 + 1 - c.b 3 11 0)).all fun i =>
        sel.any fun (a, b, e, f) => decide (a ≤ c.b 3 11 0 + i ∧ c.b 3 11 0 + i ≤ b ∧ e ≤ c.b 4 15 0 + k ∧ c.b 4 15 0 + k ≤ f))
  run := onDev fun c s => if s.dev.capState ≠ 4 then noR .badState s.dev else asJob c s.dev 0x0707 false

/-- The readout image of a CAP_READ job by segment: number and bytes, none where the segment is missing or its header fails
(R237). -/
def readoutSegs (s : State) (ps : List Nat) : List (Nat × Option (List Nat)) :=
  let d := s.dev
  let p := fun n => ps.getD n 0
  let first := p 0 + p 1 * 2 ^ 32
  let last := first + p 2
  let sp := d.segSpec
  let pairs := capPairs d.cap.sel
  let w := d.capW
  let want := pairs.zipIdx.filter fun ((c, i), _) =>
    decide (bits (p 3) 11 0 ≤ i ∧ i ≤ bits (p 3) 27 16 ∧ bits (p 4) 15 0 ≤ c ∧ c ≤ bits (p 4) 31 16)
  (List.range (ceilDiv last sp - first / sp)).map fun k =>
    let j := first / sp + k
    match tget (fun _ => none) d.cap.segs j with
    | none => (j, none)
    | some x =>
      let rd := fun o n => (List.range n).map fun q =>
        let a := d.segAddr x (o + q)
        if d.dead a then (if w = 2 then 0x80 else 0x88) else s.mem.rd8 a
      let hd := rd 0 64
      if at' hd 60 4 ≠ crc32c (hd.take 60) then (j, none)
      else
        let lo := max first (j * sp)
        let hi := min last ((j + 1) * sp)
        let body := (List.range (hi - lo)).flatMap fun t =>
          want.flatMap fun (_, q) => rd (64 + ((lo + t - j * sp) * pairs.length + q) * w) w
        (j, some (hd ++ body))

/-- The READOUT packets of one segment's image on a stream (R256). -/
def Dev.pushReadout (d : Dev) (st job spn : Nat) (lastSeg : Bool) (img : List Nat) : Dev :=
  match d.stream st with
  | none => d
  | some t =>
    let room := max 1 (t.mtu - ipHeader t.v6 - 64)
    let n := ceilDiv img.length room
    (List.range n).foldl
      (fun (e : Dev) k =>
        let data := (img.drop (k * room)).take room
        let last := lastSeg && k + 1 == n
        let q := e.takeSeq st 1
        q.2.push { stream := st, seq := q.1, at' := e.now, job := some job, last := last,
                   body := acpHeader 2 (2 * b2n last) st q.1 e.srcDev 0 0 spn 0 0 0 0 0 (k * room) (e.ticket job) data ++ data }) d

/-- The work of a CAP_READ job: bytes to the address, or packets on the stream; the code is PARTIAL when a segment was left
out. A readout to a stream ends when its last packet has left, so it answers no code yet. -/
def capReadWork (s : State) (i : Nat) : State × Option (Code × Nat) :=
  let ps := (s.dev.job i).params
  let xs := readoutSegs s ps
  let code := if xs.any (fun x => x.2.isNone) then Code.partialDone else Code.ok
  if bit (ps.getD 5 0) 0 then
    if (s.dev.job i).tally ≠ 0 then (s, none)
    else
      let good := xs.filterMap fun x => x.2.map fun b => (x.1, b)
      let st := bits (ps.getD 5 0) 25 16
      let d := good.zipIdx.foldl
        (fun (e : Dev) ((j, b), k) => e.pushReadout st i (j * e.segSpec) (k + 1 == good.length) b) s.dev
      let d1 := d.setJob i { d.job i with tally := code.num + 1 }
      if good.isEmpty then ({ s with dev := d1 }, some (code, 0)) else ({ s with dev := d1 }, none)
  else
    let img := xs.flatMap fun x => x.2.getD []
    let w := memWrite s.dev s.mem (ps.getD 6 0 + ps.getD 7 0 * 2 ^ 32) img false
    ({ s with mem := w.2 }, some (if w.1 then code else .hwFault, if w.1 then img.length else 0))

/-- Capture counters of Table 7.7. -/
def capCounters : List Nat := [CAP_SEGS, CAP_DROP, TRIG_ACC, TRIG_DUP, TRIG_REJ]

/-- CAP_STATUS: the CAP registers, epoch table, trigger log and counters; CLEAR clears the counters. -/
def capStatusDef : CmdDef where
  op := 0x0709
  mode := 1
  run := onDev fun c s =>
    let d := s.dev
    okR (([CAP_CTRL, CAP_STAT, CAP_TRIG, CAP_POST, FREEZE_SPN] ++ capCounters).flatMap (fun a => lohi (d.rdN a)) ++
        d.cap.epochs.flatMap (fun (j, a, m) => [j] ++ lohi a ++ [m]) ++
        d.cap.log.flatMap (fun e => [e.kind] ++ lohi e.st ++ [e.timeS, e.timeNs, e.input, e.channel]))
      (if c.clear then d.clearRegs capCounters else d)

/-- Meanings of the capture commands. -/
def execCapConfig (slot : Nat) (s : State) : Host.Outcome State Fault Refusal := .next (serve capConfigDef slot 0 0 s)
def execCapArm (slot : Nat) (s : State) : Host.Outcome State Fault Refusal := .next (serve capArmDef slot 0 0 s)
def execCapTrigger (slot : Nat) (s : State) : Host.Outcome State Fault Refusal := .next (serve capTriggerDef slot 0 0 s)
def execCapRead (slot : Nat) (s : State) : Host.Outcome State Fault Refusal := .next (serve capReadDef slot 0 0 s)
def execCapRelease (slot : Nat) (s : State) : Host.Outcome State Fault Refusal := .next (serve capReleaseDef slot 0 0 s)
def execCapStatus (slot : Nat) (s : State) : Host.Outcome State Fault Refusal := .next (serve capStatusDef slot 0 0 s)

end Sys2Proof.Machine
end

