-- ==== Sys2Proof/Machine/Beams.lean ====
section
/-!
DEFINITION. The beam engine: weights and their swap, the summation tree, voltage and detected outputs, ABP packets, and the
beam commands (06_beams R182 to R206).
-/
namespace Sys2Proof.Machine

/-- Beams formed: 32 a set. -/
def Dev.beams (d : Dev) : Nat := 32 * (d.f BM_CTRL BM_CTRL_S_M1 + 1)

/-- A beam set is output as voltage beams (BM_VMASK; bits at or above S are ignored). -/
def Dev.vset (d : Dev) (k : Nat) : Bool := decide (k ≤ d.f BM_CTRL BM_CTRL_S_M1) && bit (d.rdN BM_VMASK) k

/-- Courses in a voltage packet (BM_CTRL.LOG2_NCRS; other values act as 4). -/
def Dev.ncrs (d : Dev) : Nat := 2 ^ min 4 (d.f BM_CTRL BM_CTRL_LOG2_NCRS)

/-- KIND of the detected products (Table 6.2); 3 acts as 0. -/
def Dev.detKind (d : Dev) : Nat := let k := d.f BM_CTRL BM_CTRL_KIND; if k = 3 then 0 else k

/-- Detected values of a channel (Table 6.2). -/
def detValues (kind beams : Nat) : Nat := match kind with | 1 => beams / 2 | 2 => 2 * beams | _ => beams

/-- Courses in a detected integration. -/
def Dev.detM (d : Dev) : Nat := d.f BM_DET BM_DET_M_M1 + 1

/-- Bytes of a weight buffer (R187). -/
def wbufBytes (n nch beams : Nat) : Nat := 4096 + nch * beams * (128 * groups n) * 4

/-- System address of a weight buffer. -/
def Dev.wbase (d : Dev) (b : Bool) : Nat := d.rdN (if b then BM_WBASE_B else BM_WBASE_A)

/-- The active buffer: true for B. -/
def Dev.bufAct (d : Dev) : Bool := d.on BM_WCTRL BM_WCTRL_BUF_ACT

/-- First SPN of a channel-course. -/
def Dev.courseSpn (d : Dev) (x : BCourse) : Nat :=
  let p := d.run.par
  p.s0 + x.batch * p.t + 256 * (x.q % p.courses)

/-! Swaps (R189 to R191). -/

/-- Set RESULT of the swap control. -/
def Dev.swapResult (d : Dev) (v : Nat) : Dev := d.setF BM_WCTRL BM_WCTRL_RESULT v

/-- A swap done: the new buffer from S_w on (R191). -/
def Dev.swapDone (d : Dev) (sw : Nat) : Dev :=
  let d1 := ((((((d.setF BM_WCTRL BM_WCTRL_BUF_ACT (b2n (!d.bufAct))).swapResult 2).setF BM_WCTRL BM_WCTRL_STALE 0).setF
    BM_WCTRL BM_WCTRL_PEND 0).setF BM_WCTRL BM_WCTRL_SWAP 0).setF BM_WCTRL BM_WCTRL_READY 0).wrN BM_DONE_SPN sw
  let d2 := d1.cntF BM_SWAPS LO32 1
  { d2 with beam := { d2.beam with swapAt := none, staleFrom := none } }

/-- A request judged when it is made (R190). -/
def Dev.swapRequest (d : Dev) : Dev :=
  let sw := d.rdN BM_WSPN
  let p := d.run.par
  if sw % 256 ≠ 0 then d.swapResult 5
  else if d.run.active && earlier sw ((p.s0 + (d.run.bs + 1) * p.t) % 2 ^ 64) 64 then (d.swapResult 3).cnt BM_SWAP_MISSED 1
  else if d.on BM_WCTRL BM_WCTRL_OLD_BUSY then d.swapResult 6
  else
    let d1 := ((({ d with beam := { d.beam with swapAt := some sw } } : Dev).setF BM_WCTRL BM_WCTRL_PEND 1).setF BM_WCTRL
      BM_WCTRL_SWAP 1).swapResult 1
    if !d.run.active && d.on BM_WCTRL BM_WCTRL_READY then d1.swapDone sw else d1

/-- A running BEAM_WLOAD stops when a swap is decided: BAD_STATE with the bytes written (R189). -/
def Dev.stopLoad (d : Dev) : Dev :=
  match d.beam.load with
  | none => d
  | some (j, _, n) => ({ d with beam := { d.beam with load := none } }).endJob j .badState n

/-- A pending swap is decided at the first channel-course whose first SPN is at or after S_w (R191). -/
def Dev.swapDecide (d : Dev) (spn : Nat) : Dev :=
  match d.beam.swapAt with
  | none => d
  | some sw =>
    if spn < sw then d
    else
      let d0 := d.stopLoad.lineAll 16
      if d0.on BM_WCTRL BM_WCTRL_READY then
        let d1 := (d0.swapDone sw).setF BM_WCTRL BM_WCTRL_OLD_BUSY 1
        { d1 with beam := { d1.beam with oldUntil := some sw } }
      else
        let d1 := ((((d0.swapResult 4).cntF BM_SWAPS HI32 1).setF BM_WCTRL BM_WCTRL_STALE 1).setF BM_WCTRL BM_WCTRL_PEND
          0).setF BM_WCTRL BM_WCTRL_SWAP 0
        { d1 with beam := { d1.beam with swapAt := none, staleFrom := some (d1.beam.staleFrom.getD sw) } }

/-- OLD_BUSY clears once the last course below S_w has been processed (R191). -/
def Dev.oldDone (d : Dev) (x : BCourse) : Dev :=
  match d.beam.oldUntil with
  | none => d
  | some sw =>
    let p := d.run.par
    let off := sw - p.s0
    let j := off % p.t / 256
    let more := x.batch == off / p.t && j != 0 && !(x.q / p.courses + 1 == p.passes && decide (x.q % p.courses + 1 ≥ j) && x.ch + 1 == p.nch)
    if more then d else ({ d with beam := { d.beam with oldUntil := none } }).setF BM_WCTRL BM_WCTRL_OLD_BUSY 0

/-- User code on core 1 or 2 may write the swap registers when OWNER names it; firmware always may (R189). -/
def Dev.beamOpen (d : Dev) (who : Nat) : Bool := who == 0 || ((who == 1 || who == 2) && bit (d.f BM_WCTRL BM_WCTRL_OWNER) (who - 1))

/-- SWAP (R190): a write of BM_WCTRL.SWAP by core `who`, 0 for firmware. -/
def execSwap (who : Nat) (s : State) : Host.Outcome State Fault Refusal :=
  .next { s with dev := if s.dev.beamOpen who then s.dev.swapRequest else s.dev.raise 0x0601 0xFF BM_WCTRL who }

/-- READY (R189): a write of BM_WCTRL.READY by core `who`. -/
def execReady (who : Nat) (s : State) : Host.Outcome State Fault Refusal :=
  .next { s with dev := if s.dev.beamOpen who then s.dev.setF BM_WCTRL BM_WCTRL_READY 1 else s.dev.raise 0x0601 0xFF BM_WCTRL who }

/-! Beam values (R188, R192 to R196). -/

/-- A weight as read: its parts, zero in both when a part is an infinity or NaN, and whether it was (R188). -/
def weightOf (x : Nat) : FV × FV × Bool :=
  let z : FV := .fin false 0 0
  match fdec f16 (x % 65536), fdec f16 (x / 65536) with
  | .fin a b c, .fin e f g => (.fin a b c, .fin e f g, false)
  | _, _ => (z, z, true)

/-- An integer as a floating value. -/
def fvInt (x : Int) : FV := .fin (decide (x < 0)) x.natAbs 0

/-- A leaf of R192 as binary32 parts: a real input whose sample is valid, rounded once; +0 otherwise. -/
def leafOf (w : FV × FV × Bool) (x : Int × Int × Bool × Bool) : Nat × Nat :=
  if !x.2.2.1 then (0, 0)
  else
    let xr := fvInt x.1
    let xi := fvInt x.2.1
    (fenc f32 (fvAdd (fvMul w.1 xr) (fvNeg (fvMul w.2.1 xi))), fenc f32 (fvAdd (fvMul w.1 xi) (fvMul w.2.1 xr)))

/-- The binary tree over the 4,096 leaves: every leaf from n on is +0, and so is every subtree of them (R192). -/
def treeSum (n : Nat) (leaf : Nat → Nat × Nat) : Nat → Nat → Nat × Nat
  | 0, i => if i < n then leaf i else (0, 0)
  | k + 1, i =>
    if i ≥ n then (0, 0)
    else
      let l := treeSum n leaf k i
      let r := treeSum n leaf k (i + 2 ^ k)
      (fadd f32 l.1 r.1, fadd f32 l.2 r.2)

/-- What the engine reads for a channel-course: the weights of a beam, and the samples of a spectrum. -/
def weightAt (m : Mem) (base ch beams np beam i : Nat) : Nat := m.rdN (base + 4096 + ((ch * beams + beam) * np + i) * 4) 4

/-- A value that is zero is held and sent as +0 (R196). -/
def plusZero (x : Nat) : Nat := if x = 0x80000000 then 0 else x

/-- Sum and difference of exact products, rounded once. -/
def fsum (xs : List FV) : Nat := plusZero (fenc f32 (xs.foldl fvAdd (.fin false 0 0)))

/-- Detected products of one spectrum from the beam values (Table 6.2). -/
def detProducts (kind : Nat) (vs : List (Nat × Nat)) : List Nat :=
  let v := fun i => let x := vs.getD i (0, 0); (fdec f32 x.1, fdec f32 x.2)
  let sq := fun (a : FV) => fvMul a a
  let pairs := List.range (vs.length / 2)
  let two : FV := .fin false 2 0
  match kind with
  | 1 => pairs.map fun p =>
      let x := v (2 * p); let y := v (2 * p + 1)
      fsum [sq x.1, sq x.2, sq y.1, sq y.2]
  | 2 => pairs.flatMap fun p =>
      let x := v (2 * p); let y := v (2 * p + 1)
      [fsum [sq x.1, sq x.2, sq y.1, sq y.2], fsum [sq x.1, sq x.2, fvNeg (sq y.1), fvNeg (sq y.2)],
       fsum [fvMul two (fvMul x.1 y.1), fvMul two (fvMul x.2 y.2)],
       fsum [fvNeg (fvMul two (fvMul x.2 y.1)), fvMul two (fvMul x.1 y.2)]]
  | _ => (List.range vs.length).map fun b => let x := v b; fsum [sq x.1, sq x.2]

/-- One part requantised (R195): the value saturated to ±127, and whether it saturated. -/
def requant (v g : Nat) : Int × Bool :=
  match fdec f32 g with
  | .fin a b c =>
    let q := (fvToInt (fvMul (fdec f32 v) (.fin a b c)) 0).getD 0
    (clampI (-127) 127 q, decide (q > 127 ∨ q < -127))
  | _ => (0, false)

/-! Packets (R197 to R202). -/

/-- The route entry that carries a voltage beam set or a channel's detected values (R202). -/
def Dev.beamRoute (d : Dev) (type set ch : Nat) : Option BRoute :=
  d.beam.route.find? fun r => r.type == type && (type == 2 || decide (r.setFirst ≤ set ∧ set ≤ r.setLast)) && decide (r.chFirst ≤ ch ∧ ch ≤ r.chLast)

/-- A planned ABP packet put in the output ring; the first packet of a batch takes the space of the batch two before (R201). -/
def Dev.pushAbp (d : Dev) (batch stream ch : Nat) (mk : Nat → List Nat) : Dev :=
  let d0 :=
    if batch > d.beam.ringBatch then
      let e := { d with beam := { d.beam with ringBatch := batch } }
      (e.abandonPkts (fun p => e.streamIs p.stream 2 && decide (p.batch + 2 ≤ batch)) 1 e.standby).1
    else d
  let q := d0.takeSeq stream 1
  q.2.push { stream := stream, seq := q.1, at' := d.now, body := mk q.1, batch := batch, chFirst := ch, chLast := ch }

/-- The DET packets of a channel's integration (R197, R199). -/
def Dev.pushDet (d : Dev) (batch ch : Nat) (x : Det) (nspec : Nat) : Dev :=
  match d.beamRoute 2 0 ch with
  | none => d
  | some r =>
    let kind := d.detKind
    let vals := detValues kind d.beams
    let ofmt := d.f BM_CTRL BM_CTRL_OFMT
    let psn := bit x.flags 1
    let one := fun i =>
      let h := if psn then NAN_POISON else plusZero (tget (fun _ => 0) x.hi i)
      let l := if psn then 0 else plusZero (tget (fun _ => 0) x.lo i)
      if ofmt = 1 then leBytes 4 h ++ leBytes 4 l else leBytes 4 h
    (List.range (ceilDiv vals 1024)).foldl
      (fun (e : Dev) k =>
        let n := min 1024 (vals - 1024 * k)
        let data := leBytes 4 x.used ++ leBytes 4 0 ++ (List.range n).flatMap fun i => one (1024 * k + i)
        e.pushAbp batch r.stream ch fun seq =>
          abpHeader 2 x.flags r.stream seq (x.id % 2 ^ 32) x.first nspec (e.run.par.chBase + ch) (1024 * k) kind 0 n data.length
            e.run.par.n e.srcDev e.beams ofmt ++ data) d

/-- One course of voltage data for a beam; its packet leaves when it holds NCRS courses (R199). -/
def Dev.addVolt (d : Dev) (x : BCourse) (beam flags : Nat) (bytes : List Nat) : Dev :=
  let p := d.run.par
  let key := x.ch * 1024 + beam
  let old := tget (fun _ => (0, [])) d.beam.volt key
  let now : Nat × List Nat := (old.1 ||| flags, old.2 ++ bytes)
  let n := d.ncrs
  if (x.q % p.courses + 1) % n ≠ 0 then
    { d with beam := { d.beam with volt := tset (fun _ => (0, [])) d.beam.volt key now } }
  else
    let d1 := { d with beam := { d.beam with volt := tset (fun _ => (0, [])) d.beam.volt key (0, []) } }
    match d.beamRoute 1 (beam / 32) x.ch with
    | none => d1
    | some r =>
      let first := d.courseSpn x - 256 * (n - 1)
      d1.pushAbp x.batch r.stream x.ch fun seq =>
        abpHeader 1 now.1 r.stream seq 0 first (256 * n) (p.chBase + x.ch) beam 0 n 0 now.2.length p.n d.srcDev d.beams 0 ++ now.2

/-- A run of one course added into the detected pairs (R197): hi + lo + run summed exactly and split again. -/
def detPromote (x : Det) (runs : List Nat) : Det :=
  runs.zipIdx.foldl
    (fun (x : Det) (r, i) =>
      let v := fvAdd (fvAdd (fdec f32 (tget (fun _ => 0) x.hi i)) (fdec f32 (tget (fun _ => 0) x.lo i))) (fdec f32 r)
      let h := fenc f32 v
      { x with hi := tset (fun _ => 0) x.hi i (plusZero h),
               lo := tset (fun _ => 0) x.lo i (plusZero (fenc f32 (fvAdd v (fvNeg (fdec f32 h))))) }) x

/-- The detected integration of a channel takes one course, and ends at its boundary or with the run (R197). -/
def Dev.addDet (d : Dev) (x : BCourse) (flags used : Nat) (runs : List Nat) : Dev :=
  if !d.on BM_CTRL BM_CTRL_DET_EN then d
  else
    let p := d.run.par
    let m := d.detM
    let cg := x.batch * p.courses + x.q % p.courses
    let old := tget (fun _ => ({} : Det)) d.beam.det x.ch
    let o1 : Det := if old.courses = 0 then { id := cg / m, first := d.courseSpn x } else old
    let done := d.rdN BM_DONE_SPN
    let swapped := !d.beam.swapAt.isSome && d.f BM_WCTRL BM_WCTRL_RESULT == 2 && decide (o1.first < done ∧ done ≤ d.courseSpn x)
    let o2 : Det := { (detPromote o1 runs) with
      courses := o1.courses + 1, used := o1.used + used,
      flags := o1.flags ||| flags ||| (if swapped then 64 else 0) }
    let ends := (cg + 1) % m == 0
    let runEnds := x.q % p.courses + 1 == p.courses && d.run.stopAt == some (x.batch + 1)
    if ends || runEnds then
      let d1 := { d with beam := { d.beam with det := tset (fun _ => {}) d.beam.det x.ch {} } }
      d1.pushDet x.batch x.ch o2 (if ends then 256 * m else 256 * o2.courses)
    else { d with beam := { d.beam with det := tset (fun _ => {}) d.beam.det x.ch o2 } }

/-- A channel-course that was cut off: blank voltage data and no run (R197, R199). -/
def Dev.beamCut (d : Dev) (x : BCourse) : Dev :=
  let body := leBytes 4 0 ++ leBytes 4 0 ++ List.replicate 32 0xFF ++ (List.range 256).flatMap fun _ => [0x80, 0x80]
  let fl := 1 + (if d.beam.staleFrom.any (fun w => decide (w ≤ d.courseSpn x)) then 4 else 0)
  let d1 := (List.range d.beams).foldl (fun (e : Dev) b => if e.vset (b / 32) then e.addVolt x b fl body else e) d
  (d1.addDet x 1 0 []).cnt BM_CRS_CUT 1

/-- The arithmetic of one channel-course: 256 spectra of samples, the weights of every beam, the beam values, and the
spectra poisoned. -/
structure CourseData where
  samples : List (List (Int × Int × Bool × Bool))
  weights : List (List (FV × FV × Bool))
  values : List (List (Nat × Nat))
  poisoned : List Bool

/-- Samples of the 256 spectra of a channel-course. -/
def Dev.courseSamples (d : Dev) (x : BCourse) (off : Nat) : List (List (Int × Int × Bool × Bool)) :=
  (List.range 256).map fun s => (List.range d.run.par.n).map fun i => d.sampleOf (off + s) x.ch i

/-- The value of a beam on one spectrum (R192). -/
def beamValue (n : Nat) (xs : List (Int × Int × Bool × Bool)) (w : List (FV × FV × Bool)) : Nat × Nat :=
  treeSum n (fun i => leafOf (w.getD i (.nan, .nan, true)) (xs.getD i (0, 0, false, false))) 12 0

/-- The data of a channel-course (R185, R192). -/
def Dev.courseData (d : Dev) (m : Mem) (x : BCourse) (off base : Nat) : CourseData :=
  let n := d.run.par.n
  let spec := d.courseSamples x off
  let ws : List (List (FV × FV × Bool)) :=
    (List.range d.beams).map fun b => (List.range n).map fun i => weightOf (weightAt m base x.ch d.beams (128 * groups n) b i)
  { samples := spec, weights := ws, values := spec.map fun xs => ws.map fun w => beamValue n xs w,
    poisoned := spec.map fun xs => xs.any fun v => v.2.2.2 }

/-- Valid samples of a channel-course. -/
def CourseData.valid (c : CourseData) : Nat := (c.samples.map fun xs => xs.countP fun v => v.2.2.1).sum

/-- Some sample was missing. -/
def CourseData.subst (c : CourseData) : Bool := c.samples.any fun xs => xs.any fun v => !v.2.2.1

/-- The bitmap of spectra with a missing or poisoned sample: 32 bytes (R199). -/
def CourseData.bitmap (c : CourseData) : List Nat :=
  let part : List Bool := c.samples.map fun xs => xs.any fun v => !v.2.2.1 || v.2.2.2
  (List.range 32).map fun k => ((List.range 8).map fun b => b2n (part.getD (8 * k + b) false) * 2 ^ b).sum

/-- Weights used on a valid sample that are no finite number (R188, R204). -/
def CourseData.wnan (c : CourseData) : Nat :=
  (c.weights.map fun w => (c.samples.map fun xs => (xs.zip w).countP fun v => v.1.2.2.1 && v.2.2.2).sum).sum

/-- One voltage sample of a beam: its two bytes and how many parts saturated (R195). -/
def voltSample (g : Nat) (y : Nat × Nat) (psn : Bool) : List Nat × Nat :=
  if psn then ([0x80, 0x80], 0)
  else
    let r := requant y.1 g
    let i := requant y.2 g
    ([wrapN 8 r.1, wrapN 8 i.1], b2n r.2 + b2n i.2)

/-- The voltage data of one beam of a channel-course (R195, R199). -/
def Dev.beamVolt (d : Dev) (m : Mem) (x : BCourse) (c : CourseData) (base fl0 b : Nat) : Dev :=
  if !d.vset (b / 32) then d
  else
    let g := m.rdN (base + 4 * b) 4
    let gbad : Bool := match fdec f32 g with | .fin .. => false | _ => true
    let wb : Bool := (c.weights.getD b []).any fun q => q.2.2
    let qs : List (List Nat × Nat) := (c.values.zip c.poisoned).map fun v => voltSample g (v.1.getD b (0, 0)) v.2
    let sat := (qs.map fun q => q.2).sum
    let fl := fl0 + (if sat > 0 then 16 else 0) + (if gbad || wb then 32 else 0)
    let body := leBytes 4 c.valid ++ leBytes 4 0 ++ c.bitmap ++ qs.flatMap fun q => q.1
    let e1 := if sat = 0 then d else d.cnt BM_VSAT sat
    (if gbad then e1.cnt BM_WNAN 1 else e1).addVolt x b fl body

/-- The detected run of a channel-course: binary32 sums over the spectra that are not poisoned (R196, R197). -/
def CourseData.runs (c : CourseData) (kind beams : Nat) : List Nat :=
  (c.values.zip c.poisoned).foldl
    (fun (acc : List Nat) v => if v.2 then acc else (acc.zip (detProducts kind v.1)).map fun a => plusZero (fadd f32 a.1 a.2))
    (List.replicate (detValues kind beams) 0)

/-- A channel-course processed (R185, R192 to R199). -/
def Dev.beamCourse (d : Dev) (m : Mem) (x : BCourse) : Dev :=
  let spn := d.courseSpn x
  let old : Bool := d.beam.oldUntil.any fun w => decide (spn < w)
  let base := d.wbase (d.bufAct != old)
  let stale : Bool := d.beam.staleFrom.any fun w => decide (w ≤ spn)
  let c := d.courseData m x (spn - d.run.par.s0) base
  let npsn := c.poisoned.countP id
  let fl0 := (if npsn > 0 then 2 else 0) + (if stale then 4 else 0) + (if c.subst then 8 else 0)
  let d1 := (d.cnt BM_CRS_DONE 1).cnt BM_POISONED (npsn * d.beams)
  let d2 := if c.wnan = 0 then d1 else d1.cnt BM_WNAN c.wnan
  let d3 := (List.range d.beams).foldl (fun (e : Dev) b => e.beamVolt m x c base fl0 b) d2
  d3.addDet x (fl0 + (if c.wnan > 0 then 32 else 0)) (256 - npsn) (c.runs d.detKind d.beams)

/-- BEAM_CHANNEL_COURSE (R185): the channel-course at the head of the engine's queue, once its course has been captured. -/
def beamStep (s : State) : State :=
  let d := s.dev
  match d.beam.queue with
  | [] => s
  | x :: rest =>
    if !x.cut && d.run.inSlot == some x.q && x.batch + 1 == d.run.closed then s
    else
      let d1 := ({ d with beam := { d.beam with queue := rest } } : Dev).swapDecide (d.courseSpn x)
      let d2 := if x.cut then d1.beamCut x else d1.beamCourse s.mem x
      { s with dev := d2.oldDone x }

/-- Meaning of BEAM_CHANNEL_COURSE. -/
def execBeamChannelCourse (s : State) : Host.Outcome State Fault Refusal := .next (beamStep s)

/-! Commands (R204 to R206). -/

/-- Bytes of the beam output ring (R201). -/
def ringBytes (nch t beams vsets ncrs : Nat) (detEn : Bool) (vals ofmt m : Nat) : Nat :=
  let volt := 32 * vsets * nch * (t / 256 / ncrs) * (64 + 552 * ncrs)
  let per := (List.range (ceilDiv vals 1024)).foldl (fun a k => a + 64 + 8 + min 1024 (vals - 1024 * k) * (4 + 4 * ofmt)) 0
  2 * (volt + (if detEn then nch * ceilDiv t (256 * m) * per else 0)) + 0 * beams

/-- First address of HBM, and where firmware's reservation begins (R224). -/
def HBM_BASE : Nat := 0x100000000000

/-- BEAM_CONFIG (R205). -/
def beamConfigDef : CmdDef where
  op := 0x0601
  mode := 1
  masks := fun c => if bit (c.p 0) 0 then [0x7FFF, 0xFFFFFFFF, 0xFFF, 0x1FFFFF, 0x1FFFF] else []
  bad := fun c _ => bit (c.p 0) 0 && (c.b 0 8 7 == 3 || c.b 0 12 10 > 4 || c.b 3 12 0 < 2 || c.b 3 12 0 > 4096 ||
    c.b 4 16 0 < 1 || c.b 4 16 0 > 65536 || (c.b 3 20 13 + 1) % 2 ^ c.b 0 12 10 != 0)
  run := fun c s =>
    let d := s.dev
    if d.run.active ∨ (d.role ≠ 2 ∧ d.role ≠ 3) then noR .badState s
    else if !bit (c.p 0) 0 then
      let d1 := (d.setF BM_CTRL BM_CTRL_EN 0)
      okR [] { s with dev := { d1 with beam := { d1.beam with configured := false, queue := [], det := [], volt := [], swapAt := none } } }
    else
      let n := c.b 3 12 0
      let t := (c.b 3 20 13 + 1) * 256
      let nch := c.b 4 16 0
      let beams := 32 * (c.b 0 5 1 + 1)
      let bytes := wbufBytes n nch beams
      let mib := ceilDiv bytes (2 ^ 20)
      let vs := (List.range (c.b 0 5 1 + 1)).countP fun k => bit (c.p 1) k
      let ring := ringBytes nch t beams vs (2 ^ c.b 0 12 10) (bit (c.p 0) 6) (detValues (c.b 0 8 7) beams) (c.b 0 9 9) (c.b 2 11 0 + 1)
      if 2 * mib + ceilDiv ring (2 ^ 20) + d.front.hbm / 2 ^ 20 > d.hbmMib then noR .noResource s
      else
        let a := HBM_BASE
        let b := HBM_BASE + mib * 2 ^ 20
        let d1 := (((((d.wrN BM_CTRL (c.p 0 % 2 ^ 13)).wrN BM_VMASK (c.p 1)).wrN BM_DET (c.b 2 11 0)).wrN BM_WBASE_A a).wrN
          BM_WBASE_B b).wrN BM_WCTRL (c.b 0 14 13 * 2 ^ 8)
        let d2 := d1.wrN BM_DONE_SPN 0
        let w := { d2.beam with configured := true, n := n, t := t, nch := nch, swapAt := none, oldUntil := none,
                                staleFrom := none, queue := [], det := [], volt := [] }
        okR (lohi a ++ lohi b ++ lohi bytes ++ [beams * 128 * groups n * 4 * 10 ^ 6 / 256 / 1000] ++ lohi ring)
          { s with dev := { d2 with beam := w }, mem := (s.mem.zero a bytes).zero b bytes }

/-- A BEAM_ROUTE entry and whether its reserved bits and ranges hold (Table 6.8). -/
def beamEntry (bs : List Nat) (i : Nat) : BRoute × Bool :=
  let o := 16 * i
  let r : BRoute := { type := at' bs o 1 % 4, setFirst := at' bs (o + 1) 1, setLast := at' bs (o + 2) 1, chFirst := at' bs (o + 4) 2,
                      chLast := at' bs (o + 6) 2, stream := at' bs (o + 8) 2, rate := at' bs (o + 12) 4 }
  (r, at' bs o 1 < 4 && (r.type == 1 || r.type == 2) && r.setFirst < 32 && r.setLast < 32 && at' bs (o + 3) 1 == 0 &&
    at' bs (o + 10) 2 == 0 && decide (r.chFirst ≤ r.chLast ∧ r.setFirst ≤ r.setLast) &&
    (r.type == 1 || (r.setFirst == 0 && r.setLast == 0)))

/-- Every planned beam output is covered exactly once (R202). -/
def Dev.beamCover (d : Dev) (es : List BRoute) : Bool :=
  let nch := d.beam.nch
  let of := fun (xs : List BRoute) => coverOnce (xs.map fun r => (r.chFirst, r.chLast, 0, 0)) nch
  ((List.range 32).all fun k => !d.vset k || of (es.filter fun r => r.type == 1 && decide (r.setFirst ≤ k ∧ k ≤ r.setLast))) &&
    (!d.on BM_CTRL BM_CTRL_DET_EN || of (es.filter fun r => r.type == 2))

/-- Bytes of the largest packet of a type. -/
def Dev.abpLargest (d : Dev) (type : Nat) : Nat :=
  if type = 1 then 64 + 552 * d.ncrs
  else 64 + 8 + min 1024 (detValues d.detKind d.beams) * (4 + 4 * d.f BM_CTRL BM_CTRL_OFMT)

/-- An entry of the beam route names a stream of class 2 that holds the largest packet of its kind. -/
def Dev.beamEntryOk (d : Dev) (r : BRoute) : Bool :=
  match d.stream r.stream with | some st => st.cls == 2 && st.fits (d.abpLargest r.type) | none => false

/-- BEAM_ROUTE (R202, R206). -/
def beamRouteDef : CmdDef where
  op := 0x0602
  mode := 1
  masks := fun _ => [0x3F, 0xFFFFFFFF, 0xFFFF]
  bad := fun c _ => c.b 0 5 0 < 1 || c.b 0 5 0 > 32 || c.q 1 % 16 != 0
  run := onDev fun c s =>
    let d := s.dev
    if d.run.active ∨ !d.beam.configured then noR .badState d
    else match readTable d s.mem (c.q 1) (16 * c.b 0 5 0) with
    | .error k => noR k d
    | .ok bs =>
      let xs := (List.range (c.b 0 5 0)).map (beamEntry bs)
      let es := xs.map (·.1)
      if xs.any (fun x => !x.2) || !es.all d.beamEntryOk || !d.beamCover es then noR .badParam d
      else okR [] { d with beam := { d.beam with route := es } }

/-- BEAM_WLOAD: words 0 and 1 the source, word 2 the bytes (log entry 8); the buffer is the one inactive when the job starts. -/
def beamWloadDef : CmdDef where
  op := 0x0603
  mode := 1
  masks := fun _ => [0xFFFFFFFF, 0xFFFF]
  bad := fun c s => c.q 0 % 4 != 0 || c.p 2 == 0 || c.p 2 > wbufBytes s.dev.beam.n s.dev.beam.nch s.dev.beams
  run := onDev fun c s =>
    let d := s.dev
    if !d.beam.configured then noR .badState d
    else if d.beam.load.isSome then noR .busy d
    else asJob c d 0x0603 false fun i e => { e with beam := { e.beam with load := some (i, !e.bufAct, 0) } }

/-- The work of a BEAM_WLOAD job: the buffer is written and READY set. -/
def beamLoadWork (s : State) (i : Nat) : State × Option (Code × Nat) :=
  let d := s.dev
  match d.beam.load with
  | none => (s, some (.badState, 0))
  | some (_, b, _) =>
    let ps := (d.job i).params
    let n := ps.getD 2 0
    let r := memRead d s.mem (ps.getD 0 0 + ps.getD 1 0 * 2 ^ 32) n
    let off := { d with beam := { d.beam with load := none } }
    if r.kind ≠ .ok then ({ s with dev := off }, some (.hwFault, 0))
    else if r.poison then ({ s with dev := off }, some (.poisoned, 0))
    else
      let w := memWrite d s.mem (d.wbase b) r.data false
      ({ s with dev := off.setF BM_WCTRL BM_WCTRL_READY 1, mem := w.2 }, some (.ok, n))

/-- BEAM_WSWAP: words 0 and 1 are S_w (R190). -/
def beamWswapDef : CmdDef where
  op := 0x0604
  mode := 1
  run := onDev fun c s =>
    let d := s.dev
    if !d.beam.configured then noR .badState d
    else
      let d1 := (d.wrN BM_WSPN (c.q 0)).swapRequest
      let r := d1.f BM_WCTRL BM_WCTRL_RESULT
      ({ code := if r = 3 then .badState else if r = 6 then .busy else .ok, res := [r] }, d1)

/-- The counters of Table 6.5. -/
def beamCounters : List Nat :=
  [BM_CRS_DONE, BM_CRS_CUT, BM_BEAM_HOLD, BM_VSAT, BM_WNAN, BM_SWAPS, BM_SWAP_MISSED, BM_POISONED, BM_PKTS]

/-- BEAM_STATUS: the BM registers and counters; CLEAR clears the counters. -/
def beamStatusDef : CmdDef where
  op := 0x0605
  mode := 1
  run := onDev fun c s =>
    let d := s.dev
    okR (([BM_CTRL, BM_VMASK, BM_DET, BM_WBASE_A, BM_WBASE_B, BM_WCTRL, BM_WSPN, BM_DONE_SPN] ++ beamCounters).flatMap fun a => lohi (d.rdN a))
      (if c.clear then d.clearRegs beamCounters else d)

/-- Meanings of the beam commands. -/
def execBeamConfig (slot : Nat) (s : State) : Host.Outcome State Fault Refusal := .next (serve beamConfigDef slot 0 0 s)
def execBeamRoute (slot : Nat) (s : State) : Host.Outcome State Fault Refusal := .next (serve beamRouteDef slot 0 0 s)
def execBeamWload (slot : Nat) (s : State) : Host.Outcome State Fault Refusal := .next (serve beamWloadDef slot 0 0 s)
def execBeamWswap (slot : Nat) (s : State) : Host.Outcome State Fault Refusal := .next (serve beamWswapDef slot 0 0 s)
def execBeamStatus (slot : Nat) (s : State) : Host.Outcome State Fault Refusal := .next (serve beamStatusDef slot 0 0 s)

end Sys2Proof.Machine
end

