-- ==== Sys2Proof/Machine/FrontIn.lean ====
section
/-!
DEFINITION. The front's ingest: sample numbers, placement and flags of input samples, deadlines and the time-domain
detectors (03_front R89 to R92, R110 to R112).
-/
namespace Sys2Proof.Machine
open Sys2Proof (Config.eventRing Config.nanDelay)

/-- Input i of the front configuration. -/
def Dev.frInput (d : Dev) (i : Nat) : Option FInput := d.front.inputs[i]?

/-- MARGIN in samples; smaller values act as 1,024 (FR_TIME). -/
def Dev.frMargin (d : Dev) : Nat := clampN 1024 1048576 (d.f FR_TIME FR_TIME_MARGIN)

/-- PRE in samples (R110). -/
def Dev.frPre (d : Dev) : Nat := min 65536 (d.f FR_TIME FR_TIME_PRE)

/-- Stored sample bits of a WIDTH code (R92). -/
def widthBits (w : Nat) : Nat := match w with | 0 => 4 | 1 => 8 | _ => 16

/-- Depth D of a delay line (R92). -/
def lineDepth (tauMax margin pre : Nat) : Nat := ceilDiv (tauMax + margin + pre + 16) 4096 * 4096

/-- Depth of the delay lines of the configuration in force. -/
def Dev.frDepth (d : Dev) : Nat := lineDepth d.front.tauMax d.frMargin d.frPre

/-- Key of a sample, group or output of an input. -/
def frKey (n i : Nat) : Nat := n * 2048 + i

/-- Flags of a group of 16 input samples. -/
def Front.groupAt (f : Front) (g i : Nat) : Nat := tget (fun _ => 0) f.groups (frKey g i)

/-- A flag bit of a group set. -/
def Front.markGroup (f : Front) (g i b : Nat) : Front :=
  { f with groups := tset (fun _ => 0) f.groups (frKey g i) (f.groupAt g i ||| 2 ^ b) }

/-- A stored sample, zero when none was received. -/
def Front.sampleAt (f : Front) (s i : Nat) : Nat := tget (fun _ => 0) f.samples (frKey s i)

/-- Parts of a stored sample; a missing sample is zero (R90). -/
def smpParts (v : Nat) : Int × Int := if v = 0 then (0, 0) else (sext 16 (v - 1), sext 16 ((v - 1) / 2 ^ 16))

/-- The converter flagged over-range (R71). -/
def smpOver (v : Nat) : Bool := v != 0 && bit (v - 1) 32

/-- |v|² of a stored sample: squared magnitude of a complex one. -/
def smpPower (v : Nat) : Nat := let p := smpParts v; (p.1 * p.1 + p.2 * p.2).toNat

/-- A group holds a missing sample once its deadline has passed (R90). -/
def Front.groupMissing (f : Front) (g i : Nat) : Bool :=
  bit (f.groupAt g i) 1 || (List.range 16).any fun k => f.sampleAt (16 * g + k) i == 0

/-- The sample counter of an input's generator (R91, R296). -/
def Dev.frCount (d : Dev) (x : FInput) : Nat := d.sngCount x.sng

/-- A sample's deadline has passed: the counter has reached s + PRE + MARGIN (R91). -/
def Dev.pastDeadline (d : Dev) (x : FInput) (s : Nat) : Bool := decide (s + d.frPre + d.frMargin ≤ d.frCount x)

/-- One input sample placed in the delay line (R89 to R92, R118): late ones are discarded and counted, and one taken while its
source clock is faulted is missing. `re` and `im` are the values v; `over` is the converter's flag. -/
def Dev.placeSample (d : Dev) (i : Nat) (x : FInput) (s : Nat) (re im : Int) (ovf : Bool) : Dev :=
  if d.pastDeadline x s then d.cnt (FR_SMP_LATE i) 1
  else if bit d.front.clkFault x.sng then { d with front := d.front.markGroup (s / 16) i 1 }
  else if d.front.sampleAt s i ≠ 0 then d
  else
    let k := 16 - min 16 x.bits
    let v := 1 + wrapN 16 (re * 2 ^ k) + 2 ^ 16 * wrapN 16 (im * 2 ^ k) + (if ovf then 2 ^ 32 else 0)
    let f := d.front
    let depth := d.frDepth
    let old := if s ≥ depth then frKey (s - depth) i else frKey s i
    let smp := tset (fun _ => 0) (if s ≥ depth then tset (fun _ => 0) f.samples old 0 else f.samples) (frKey s i) v
    let f1 := { f with samples := smp }
    let f2 := if ovf && d.on FR_DET FR_DET_OVR_BLANK then f1.markGroup (s / 16) i 2 else f1
    { d with front := f2 }

/-- Samples known to be missing: their groups become MISSING (R60, R71, R74, R90). -/
def Dev.missSample (d : Dev) (i s : Nat) : Dev := { d with front := d.front.markGroup (s / 16) i 1 }

/-- The inputs whose source passes a test, with their indices. -/
def Dev.frSources (d : Dev) (p : FInput → Bool) : List (Nat × FInput) :=
  (d.front.inputs.zipIdx.filter fun x => p x.1).map fun x => (x.2, x.1)

/-- A value read from a list of bytes as a little-endian bit string: w bits from bit `o`. -/
def bitField (bs : List Nat) (o w : Nat) : Nat := at' bs (o / 8) ((o % 8 + w + 7) / 8) / 2 ^ (o % 8) % 2 ^ w

/-- Bits of one part, and whether it is complex, of a RAW format (Table 2.3). -/
def rawFmt (fmt : Nat) : Option (Nat × Bool) :=
  match fmt with
  | 4 => some (4, false) | 5 => some (8, false) | 6 => some (16, false)
  | 8 => some (4, true) | 9 => some (8, true) | 10 => some (16, true)
  | _ => none

/-- One sample of a RAW payload: its parts. A complex 4+4 sample has its parts where a C4 sample has them, a wider one the
real part first (Table 0.3). -/
def rawSample (fmt : Nat) (bs : List Nat) (k : Nat) : Int × Int :=
  match rawFmt fmt with
  | some (b, false) => (sext b (bitField bs (k * b) b), 0)
  | some (4, true) => let v := bitField bs (8 * k) 8; (sext 4 (v / 16), sext 4 v)
  | some (b, true) => (sext b (bitField bs (2 * k * b) b), sext b (bitField bs (2 * k * b + b) b))
  | none => (0, 0)

/-- A RAW frame handed to the front (R59, R60, R89 to R91): 2^logNs samples of 2^logNi inputs, ordered sample, then input. -/
def Dev.placeRaw (d : Dev) (missing : Bool) (link num i0 logNi logNs fmt : Nat) (bs : List Nat) : Dev :=
  if !d.front.conf then d
  else
    let ni := 2 ^ logNi
    (List.range ni).foldl
      (fun (e : Dev) a =>
        (e.frSources fun x => x.kind == 0 && x.srcId == i0 + a && x.link == link).foldl
          (fun (e : Dev) (i, x) =>
            let base := extend48 (e.frCount x) num
            (List.range (2 ^ logNs)).foldl
              (fun (e : Dev) t =>
                if missing then e.missSample i ((base + t) % 2 ^ 64)
                else
                  let v := rawSample fmt bs (t * ni + a)
                  e.placeSample i x ((base + t) % 2 ^ 64) v.1 v.2 false) e) e) d

/-! Detectors in the time domain (R110 to R112). -/

/-- Floor of the square root of a number of at most 2k bits, from the highest bit of the root down. -/
def isqrtBits (x : Nat) : Nat → Nat → Nat
  | 0, r => r
  | k + 1, r => isqrtBits x k (if (r + 2 ^ k) * (r + 2 ^ k) ≤ x then r + 2 ^ k else r)

/-- Floor of the square root of a number below 2^128. -/
def isqrt (x : Nat) : Nat := isqrtBits x 64 0

/-- The next envelope e from the last one, both unsigned Q16.16, for a sample of squared magnitude p (R110). The quotient
(|v| − e) / 2^A is rounded half to even; |v| of a complex sample is its modulus. -/
def envNext (a e p : Nat) : Nat :=
  let x := p * 2 ^ 34
  let r := isqrt x
  let exact := r * r == x
  let n : Int := (r : Int) - 2 * (e : Int)
  let m : Int := 2 ^ (a + 1)
  let q := n / m
  let rem := n % m
  let half : Int := 2 ^ a
  let up := decide (rem > half) || (rem == half && (!exact || q % 2 != 0))
  ((e : Int) + q + (if up then 1 else 0)).toNat

/-- Peak and RMS interval exponent K (FR_DET). -/
def Dev.frK (d : Dev) : Nat := clampN 10 30 (d.f FR_DET FR_DET_K)

/-- One sample through the peak, RMS and envelope detectors (R110, R112). -/
def Dev.detectSample (d : Dev) (i s : Nat) : Dev :=
  let f := d.front
  let v := f.sampleAt s i
  let missing := f.groupMissing (s / 16) i
  let p := if missing then 0 else smpPower v
  let key := frKey (s / 2 ^ d.frK) i
  let o := tget (fun _ => (0, 0, 0, 0)) f.stat key
  let stat := if missing then f.stat
    else tset (fun _ => (0, 0, 0, 0)) f.stat key (max o.1 p, o.2.1 + b2n (smpOver v), o.2.2.1 + p, o.2.2.2 + 1)
  let e := envNext (d.f FR_DET FR_DET_A) (tget (fun _ => 0) f.env i) p
  let above := decide (e > f.eTh)
  let ev := tget (fun _ => none) f.evt i
  let ev1 := if !above then ev else match ev with | some (a, _) => some (a, s) | none => some (s, s)
  { d with front := { f with stat := stat, env := tset (fun _ => 0) f.env i e, evt := tset (fun _ => none) f.evt i ev1,
                             detAt := tset (fun _ => 0) f.detAt i (s + 1) } }

/-- The groups of an input that reach their deadline up to `g`: those since the last one taken. -/
def Front.groupsDue (f : Front) (g i : Nat) : List Nat :=
  let a := tget (fun _ => 0) f.detAt i
  if a = 0 then [g] else (List.range (g + 1 - a / 16)).map (· + a / 16)

/-- SAMPLE_DEADLINE (R91): the counter has reached the deadline of a group; a sample not received leaves it MISSING, and the
time-domain detectors take its samples in order. -/
def Dev.sampleDeadline (d : Dev) (i g : Nat) : Dev :=
  match d.frInput i with
  | none => d
  | some x =>
    if !d.front.conf || !d.pastDeadline x (16 * g + 15) || decide (16 * g < tget (fun _ => 0) d.front.detAt i) then d
    else
      (d.front.groupsDue g i).foldl
        (fun (e : Dev) h =>
          let f := if e.front.groupMissing h i then e.front.markGroup h i 1 else e.front
          (List.range 16).foldl (fun (e : Dev) k => e.detectSample i (16 * h + k)) { e with front := f.markGroup h i 0 }) d

/-- Meaning of SAMPLE_DEADLINE. -/
def execSampleDeadline (input group : Nat) (s : State) : Host.Outcome State Fault Refusal :=
  .next { s with dev := s.dev.sampleDeadline input group }

/-- An entry put in a result ring, which holds 1,024 intervals of each kind, input and channel. -/
def Front.pushResult (f : Front) (kind input ch start : Nat) (vals : List Nat) : Front :=
  let same := fun (r : Nat × Nat × Nat × Nat × List Nat) => r.1 == kind && r.2.1 == input && r.2.2.1 == ch
  let full := decide (f.results.countP same ≥ 1024)
  let last := (f.results.filter same).getLast?
  { f with results := (kind, input, ch, start, vals) :: (if full then f.results.filter fun r => some r != last else f.results) }

/-- DETECTOR_INTERVAL_END: kind 0 writes the peak and RMS results of an interval of an input, kind 1 the channel power of an
interval of a channel; the interval has been taken whole. -/
def Dev.intervalEnd (d : Dev) (kind i ch n : Nat) : Dev :=
  let f := d.front
  match kind with
  | 0 =>
    let key := frKey n i
    let o := tget (fun _ => (0, 0, 0, 0)) f.stat key
    if decide (tget (fun _ => 0) f.detAt i < (n + 1) * 2 ^ d.frK) || (d.frInput i).isNone then d
    else
      { d with front := { f.pushResult 0 i 0 (n * 2 ^ d.frK) [isqrt o.1, o.2.1, o.2.2.1, o.2.2.2] with
                          stat := tset (fun _ => (0, 0, 0, 0)) f.stat key (0, 0, 0, 0) } }
  | 1 =>
    let key := frKey (n * 16384 + ch) i
    let o := tget (fun _ => (0, 0)) f.power key
    if decide (f.spn < (n + 1) * f.mP) || (d.frInput i).isNone then d
    else
      { d with front := { f.pushResult 1 i ch (n * f.mP) [o.1, o.2] with power := tset (fun _ => (0, 0)) f.power key (0, 0) } }
  | _ => d

/-- Meaning of DETECTOR_INTERVAL_END. -/
def execDetectorIntervalEnd (kind input channel interval : Nat) (s : State) : Host.Outcome State Fault Refusal :=
  .next { s with dev := s.dev.intervalEnd kind input channel interval }

/-! Delay models (R93, R94, R97). -/

/-- The delay of a segment at knot offset u in binary64, each operation rounded, in units of 2^-40 samples and held between 0
and τ_max, with whether it had to be held (R93, R94). -/
def segKnot (tauMax : Nat) (g : Seg) (u : Nat) : Nat × Bool :=
  let x := fofInt f64 u
  let c := fun k => g.c.getD k 0
  let t := fadd f64 (fmul f64 (fadd f64 (fmul f64 (fadd f64 (fmul f64 (c 3) x) (c 2)) x) (c 1)) x) (c 0)
  let v : Int := match fdec f64 t with
    | .nan => ((Config.nanDelay (g.s0 + u) % 2 ^ 64 : Nat) : Int)
    | .inf neg => if neg then -1 else 2 ^ 64
    | w => (fvToInt w 40).getD 0
  let top : Int := (tauMax * 2 ^ 40 : Nat)
  ((clampI 0 top v).toNat, decide (v < 0 ∨ v > top))

/-- The delay at output j of 256 between two knots, in units of 2^-48 samples (R94). -/
def tauBetween (a b : Nat × Bool) (j : Nat) : Int := (a.1 : Int) * 256 + ((b.1 : Int) - (a.1 : Int)) * j

/-- Input position of an output sample: index and phase (R97). -/
def readPos (q n : Nat) (tau : Int) : Int × Nat :=
  let x : Int := (q * n * 4 : Nat) - tau
  let ph := rneDiv (x % 2 ^ 48).toNat (2 ^ 38)
  if ph = 1024 then (x / 2 ^ 48 + 1, 0) else (x / 2 ^ 48, ph)

/-- A segment covers an output SN. -/
def Seg.covers (g : Seg) (n : Nat) : Bool := decide (g.s0 ≤ n ∧ n < g.s0 + g.len)

/-- The delay of an input at an output SN by the segment it holds for it, zero without one. -/
def Dev.tauOf (d : Dev) (i n : Nat) : Int :=
  let f := d.front
  let cand := (tget (fun _ => none) f.act i).toList ++ (tget (fun _ => none) f.pend i).toList ++ tget (fun _ => []) f.past i
  match cand.find? fun g => g.covers n with
  | some g =>
    let u := (n - g.s0) / 256 * 256
    tauBetween (segKnot f.tauMax g u) (segKnot f.tauMax g (u + 256)) (n - g.s0 - u)
  | none => 0

/-- An estimate of the output that reads input sample s first, refined k times. -/
def Dev.outEstimate (d : Dev) (i q s : Nat) : Nat → Nat → Nat
  | 0, n => n
  | k + 1, n => d.outEstimate i q s k ((((s : Int) - 8) * 2 ^ 48 + d.tauOf i n) / (4 * (q : Int))).toNat

/-- The first output SN that reads input sample s (R97). -/
def Dev.firstReader (d : Dev) (i : Nat) (x : FInput) (s : Nat) : Nat :=
  let q := max x.q 1
  let n := d.outEstimate i q s 4 ((s - 8) * 2 ^ 46 / q)
  ((List.range 64).map (· + (n - 32))).find? (fun k => decide ((readPos q k (d.tauOf i k)).1 + 8 ≥ (s : Int))) |>.getD n

/-- The first spectrum whose window holds an output sample that reads input sample s (Table 7.5, kind 3). -/
def Dev.spnOfSample (d : Dev) (i : Nat) (x : FInput) (s : Nat) : Nat :=
  ceilDiv (d.firstReader i x s + 1 - d.frP * d.frTaps / 2) (max d.frHop 1)

/-- ENVELOPE_EVENT (R110, R111): the event of an input ends once EVT_HOLD samples after its last one above the threshold have
been taken: its groups are blanked, and it is a trigger or is only logged. -/
def Dev.envelopeEvent (d : Dev) (i : Nat) : Dev :=
  match d.frInput i, tget (fun _ => none) d.front.evt i with
  | some x, some (a, b) =>
    if tget (fun _ => 0) d.front.detAt i < b + 1 + d.front.evtHold then d
    else
      let f := { d.front with evt := tset (fun _ => none) d.front.evt i none }
      let lo := (a - d.frPre) / 16
      let hi := (b + min 65536 (d.f FR_DET FR_DET_POST)) / 16
      let f1 := if d.on FR_DET FR_DET_BLANK_EN then (List.range (hi + 1 - lo)).foldl (fun (f : Front) k => f.markGroup (lo + k) i 2) f else f
      let full := decide (f1.events.length > Config.eventRing)
      let d1 : Dev := { d with front := { f1 with events := (i, a, b) :: (if full then f1.events.dropLast else f1.events) } }
      let d2 := if full then d1.setF FR_DET FR_DET_EVT_LOST 1 else d1
      if d2.on FR_DET FR_DET_EVT_TRIG then (d2.trigger 3 0 (d2.spnOfSample i x a) i 0xFFFFFFFF 0 []).1 else d2
  | _, _ => d

/-- Meaning of ENVELOPE_EVENT. -/
def execEnvelopeEvent (input : Nat) (s : State) : Host.Outcome State Fault Refusal :=
  .next { s with dev := s.dev.envelopeEvent input }

end Sys2Proof.Machine
end

