-- ==== Sys2Proof/Machine/FrontDsp.lean ====
section
/-!
DEFINITION. The front's stages from the interpolator to the output routes: knots, filterbank, FFT, fringe rotation, gain,
requantiser, kurtosis hold and frames (03_front R93 to R118).
-/
namespace Sys2Proof.Machine

/-! Sines and cosines in fixed point. -/

/-- π in units of 2^-64, rounded down. -/
def PI64 : Nat := 57952155664616982739

/-- k terms of the alternating series whose term number n is t, with x² in units of 2^-64. -/
def altSeries (x2 : Int) : Nat → Nat → Int → Int
  | 0, _, _ => 0
  | k + 1, n, t => t - altSeries x2 k (n + 2) (t * x2 / 2 ^ 64 / ((n + 1) * (n + 2)))

/-- Cosine and sine of a / 65,536 of a turn in units of 2^-64, for a up to an eighth of a turn. -/
def octant (a : Nat) : Int × Int :=
  let x : Int := (a * PI64 / 32768 : Nat)
  let x2 := x * x / 2 ^ 64
  (altSeries x2 14 0 (2 ^ 64), altSeries x2 14 1 x)

/-- A value in units of 2^-64 as Q1.16, rounded half to even. -/
def toQ16 (x : Int) : Int := roundDiv x (2 ^ 48)

/-- Cosine and sine of a / 65,536 of a turn as Q1.16, exact at 0 and ±2^16 (R102, R107). -/
def cosSin (a : Nat) : Int × Int :=
  let q := a % 65536 / 16384
  let r := a % 16384
  let p : Int × Int := if r ≤ 8192 then octant r else let o := octant (16384 - r); (o.2, o.1)
  let c := toQ16 p.1
  let s := toQ16 p.2
  match q with | 0 => (c, s) | 1 => (-s, c) | 2 => (-c, -s) | _ => (s, -c)

/-- A value held to ±(2^n − 1), and whether it had to be. -/
def satN (n : Nat) (v : Int) : Int × Nat := (clampI (-(2 ^ n - 1)) (2 ^ n - 1) v, b2n (decide (v < -(2 ^ n - 1) ∨ v > 2 ^ n - 1)))

/-! Knots and the interpolator (R93 to R99). -/

/-- One interpolated part of an output sample (R97): the value and its saturations. -/
def Front.interpPart (f : Front) (i ph : Nat) (s0 : Nat) (im : Bool) : Int × Nat :=
  let sum := (List.range 16).foldl
    (fun (a : Int) m =>
      let p := smpParts (f.sampleAt (s0 + m) i)
      a + tget (fun _ => 0) f.bank (16 * ph + m) * (if im then p.2 else p.1)) 0
  satN 17 (roundDiv sum (2 ^ 16))

/-- One output sample of an input from its delay (R97, R99): real part, imaginary part, flags, saturations. -/
def Front.output (f : Front) (cplx : Bool) (i q n : Nat) (tau : Int) (held : Bool) : (Int × Int × Nat) × Nat :=
  let pos := readPos q n tau
  if held ∨ pos.1 < 7 then ((0, 0, 1), 0)
  else
    let s0 := (pos.1 - 7).toNat
    let g0 := s0 / 16
    let g1 := (s0 + 15) / 16
    if f.groupMissing g0 i || f.groupMissing g1 i then ((0, 0, 1), 0)
    else
      let re := f.interpPart i pos.2 s0 false
      let im := if cplx then f.interpPart i pos.2 s0 true else (0, 0)
      ((re.1, im.1, if bit (f.groupAt g0 i) 2 || bit (f.groupAt g1 i) 2 then 2 else 0), re.2 + im.2)

/-- The counter has passed every sample that the outputs up to n of an input read (R91). -/
def Dev.readable (d : Dev) (i : Nat) (x : FInput) (n : Nat) : Bool :=
  decide ((readPos (max x.q 1) n (d.tauOf i n)).1 + 8 + d.frPre + d.frMargin < (d.frCount x : Int))

/-- The knot of one input: its segment ends, starts or goes on, and the 256 outputs that follow it are taken (R93 to R96). -/
def Dev.knotInput (d : Dev) (i : Nat) (x : FInput) (k : Nat) : Dev :=
  let f := d.front
  let act := tget (fun _ => none) f.act i
  let pend := tget (fun _ => none) f.pend i
  let takes : Bool := pend.any fun g => g.s0 == k
  let ended : Bool := act.any fun g => takes || decide (g.s0 + g.len ≤ k)
  let d0 := if ended && (tget (fun _ => none) f.tau i).any (·.2) then d.cntF (FR_DELAY_CLAMP i) LO32 1 else d
  let now := if takes then pend else if ended then none else act
  let past := tget (fun _ => []) f.past i
  let f1 := { d0.front with
    act := tset (fun _ => none) f.act i now,
    pend := if takes then tset (fun _ => none) f.pend i none else f.pend,
    past := if ended then tset (fun _ => []) f.past i (act.toList ++ past.filter fun (h : Seg) => decide (f.spn * d.frHop < h.s0 + h.len)) else f.past }
  match now with
  | none =>
    let d1 : Dev := { d0 with front := { f1 with tau := tset (fun _ => none) f.tau i none } }
    if (tget (fun _ => []) f1.past i).isEmpty then d1 else d1.cntF (FR_DELAY_CLAMP i) HI32 1
  | some g =>
    let a := segKnot f.tauMax g (k - g.s0)
    let b := segKnot f.tauMax g (k - g.s0 + 256)
    let cplx := d.on FR_CTRL FR_CTRL_CPLX
    let r := (List.range 256).foldl
      (fun (acc : Tbl (Int × Int × Nat) × Nat) j =>
        let o := f1.output cplx i (max x.q 1) (k + j) (tauBetween a b j) (a.2 || b.2)
        (tset (fun _ => (0, 0, 1)) acc.1 (frKey (k + j) i) o.1, acc.2 + o.2)) (f1.y, 0)
    let d1 : Dev := { d0 with front := { f1 with tau := tset (fun _ => none) f.tau i (some b), y := r.1 } }
    let d2 := if a.2 then d1.cntF (FR_DELAY_CLAMP i) LO32 1 else d1
    if r.2 = 0 then d2 else d2.cntF (FR_INTERP_SAT i) LO32 r.2

/-- DELAY_KNOT (R94): the next knot of every input, once the counter has passed the samples that its outputs read. -/
def Dev.delayKnot (d : Dev) : Dev :=
  let k := d.front.knotAt
  if !d.front.running || !(d.front.inputs.zipIdx.all fun x => d.readable x.2 x.1 (k + 255)) || d.front.stopAt.any (fun n => decide (n ≤ k)) then d
  else
    let d1 := d.front.inputs.zipIdx.foldl (fun (e : Dev) x => e.knotInput x.2 x.1 k) d
    { d1 with front := { d1.front with knotAt := k + 256 } }

/-- Meaning of DELAY_KNOT. -/
def execDelayKnot (s : State) : Host.Outcome State Fault Refusal := .next { s with dev := s.dev.delayKnot }

/-! Filterbank and FFT (R100 to R103). -/

/-- One output of the FIR: the sum over the taps at a folded index (R101). -/
def Front.firAt (f : Front) (p taps i lo k : Nat) : Int × Int :=
  let r := (List.range taps).foldl
    (fun (a : Int × Int) t =>
      let h := tget (fun _ => 0) f.window (t * p + k)
      let y := tget (fun _ => (0, 0, 1)) f.y (frKey (lo + t * p + k) i)
      (a.1 + h * y.1, a.2 + h * y.2.1)) (0, 0)
  (roundDiv r.1 (2 ^ 16), roundDiv r.2 (2 ^ 16))

/-- Entries of a list at even and at odd places. -/
def evenOdd {α : Type} : List α → List α × List α
  | [] => ([], [])
  | a :: r => let x := evenOdd r; (a :: x.2, x.1)

/-- A 24-bit result of a stage: divided by 2 when the stage scales, and saturated; with the saturations so far. -/
def stageOut (scale : Bool) (v : Int) : Int × Nat := satN 23 (if scale then roundDiv v 2 else v)

/-- A complex product with a Q1.16 factor, each part rounded to 24 bits (R102, R107). -/
def mulQ16 (x : Int × Int) (c s : Int) : (Int × Int) × Nat :=
  let re := satN 23 (roundDiv (x.1 * c - x.2 * s) (2 ^ 16))
  let im := satN 23 (roundDiv (x.1 * s + x.2 * c) (2 ^ 16))
  ((re.1, im.1), re.2 + im.2)

/-- A butterfly: sum and difference of a value and a rotated one, with the saturations (R102). -/
def butterfly (scale : Bool) (turn : Nat) (e o : Int × Int) : (Int × Int) × (Int × Int) × Nat :=
  let w := cosSin turn
  let t := mulQ16 o w.1 (-w.2)
  let ar := stageOut scale (e.1 + t.1.1)
  let ai := stageOut scale (e.2 + t.1.2)
  let br := stageOut scale (e.1 - t.1.1)
  let bi := stageOut scale (e.2 - t.1.2)
  ((ar.1, ai.1), (br.1, bi.1), t.2 + ar.2 + ai.2 + br.2 + bi.2)

/-- The radix-2 transform of 2^k points, decimation in time, with the saturations of every stage; stage s of the mask joins
transforms of 2^s points (R102). -/
def fft (mask : Nat) : Nat → List (Int × Int) → List (Int × Int) × Nat
  | 0, xs => (xs, 0)
  | k + 1, xs =>
    let h := evenOdd xs
    let e := fft mask k h.1
    let o := fft mask k h.2
    let bs := (e.1.zip o.1).zipIdx.map fun x => butterfly (bit mask k) (x.2 * 65536 / 2 ^ (k + 1)) x.1.1 x.1.2
    (bs.map (fun b => b.1) ++ bs.map (fun b => b.2.1), e.2 + o.2 + (bs.map fun b => b.2.2).sum)

/-- log2 of P. -/
def Dev.frLog2P (d : Dev) : Nat := let l := d.f FR_CTRL FR_CTRL_LOG2P; if 8 ≤ l ∧ l ≤ 14 then l else 8

/-- Channels that the filterbank gives (R100). -/
def frChannels (p : Nat) (cplx : Bool) : Nat := if cplx then p else p / 2

/-- Bin of a channel (R100). -/
def frBin (p : Nat) (cplx : Bool) (c : Nat) : Nat := if cplx then (c + p / 2) % p else c

/-- First and last output channel. -/
def Dev.chLo (d : Dev) : Nat := d.f FR_SHAPE FR_SHAPE_CH_LO
def Dev.chHi (d : Dev) : Nat := d.f FR_SHAPE FR_SHAPE_CH_HI

/-- Output channels. -/
def Dev.frOut (d : Dev) : List Nat := (List.range (d.chHi + 1 - d.chLo)).map (· + d.chLo)

/-! Fringe, gain, requantiser (R94, R107 to R109, R115). -/

/-- The fringe phase of a channel in units of 2^-16 turn (R94, R107). -/
def fringePhase (g : Seg) (n c : Nat) : Nat :=
  let u := n - g.s0
  let p := fun k => g.p.getD k 0
  rneDiv ((p 0 + p 1 * u + p 2 * u ^ 2 + p 3 * u ^ 3 + c * g.psi) % 2 ^ 64) (2 ^ 48) % 65536

/-- The segment that covers an output SN of an input. -/
def Front.segOf (f : Front) (i n : Nat) : Option Seg :=
  ((tget (fun _ => none) f.act i).toList ++ tget (fun _ => []) f.past i).find? fun g => g.covers n

/-- Gain entries of an input. -/
def gainEntries (chans log2g : Nat) : Nat := ceilDiv chans (2 ^ log2g)

/-- The active gain of an input and channel (R108, R109). -/
def Dev.gainOf (d : Dev) (i c : Nat) : Int × Int :=
  let key := i * 16384 + (c - d.chLo) / 2 ^ min 8 (d.f FR_SHAPE FR_SHAPE_LOG2G)
  tget (fun _ => (0, 0)) (if d.on FR_CTRL FR_CTRL_GAIN_BUF then d.front.gainB else d.front.gainA) key

/-- The gain table swaps at its named spectrum, for every input at once (R109). -/
def Dev.gainSwap (d : Dev) (m : Nat) : Dev :=
  match d.front.gainSwap with
  | none => d
  | some w =>
    if m < w then d
    else ((({ d with front := { d.front with gainSwap := none } } : Dev).setF FR_CTRL FR_CTRL_GAIN_BUF
      (b2n (!d.on FR_CTRL FR_CTRL_GAIN_BUF))).setF FR_CTRL FR_CTRL_GAIN_PEND 0)

/-- A complex product with a Q5.12 gain (stage 9). -/
def mulGain (x g : Int × Int) : Int × Int :=
  ((satN 23 (roundDiv (x.1 * g.1 - x.2 * g.2) (2 ^ 12))).1, (satN 23 (roundDiv (x.1 * g.2 + x.2 * g.1) (2 ^ 12))).1)

/-- The native blank code (R13). -/
def blankCode (c8 : Bool) : Nat := if c8 then 0x8080 else 0x88

/-- A sample code from its parts (Table 0.3). -/
def codeOf (c8 : Bool) (re im : Int) : Nat := if c8 then wrapN 8 re + 256 * wrapN 8 im else 16 * wrapN 4 re + wrapN 4 im

/-- A value requantised: its code and the parts saturated (R115). -/
def requantise (c8 : Bool) (shift : Nat) (x : Int × Int) : Nat × Nat :=
  let top : Int := if c8 then 127 else 7
  let q := fun v => roundDiv v (2 ^ shift)
  let sat := fun v => b2n (decide (v > top ∨ v < -top))
  (codeOf c8 (clampI (-top) top (q x.1)) (clampI (-top) top (q x.2)), sat (q x.1) + sat (q x.2))

/-! One spectrum of an input (R104 to R115). -/

/-- Flags of a window of output samples: MISSING, BLANKED (R104). -/
def Front.windowFlags (f : Front) (i lo n : Nat) : Bool × Bool :=
  let fl := (List.range n).map fun k => (tget (fun _ => (0, 0, 1)) f.y (frKey (lo + k) i)).2.2
  (fl.any fun x => bit x 0, fl.any fun x => bit x 1)

/-- A squared magnitude. -/
def pow2 (x : Int × Int) : Nat := (x.1 * x.1 + x.2 * x.2).toNat

/-- Channel detectors of one value (R112, R113). -/
def Front.chanDetect (f : Front) (i c m : Nat) (blanked : Bool) (x : Int × Int) : Front :=
  let p := pow2 x
  let kp := frKey (m / f.mP * 16384 + c) i
  let o := tget (fun _ => (0, 0)) f.power kp
  let f1 := { f with power := tset (fun _ => (0, 0)) f.power kp (o.1 + p, o.2 + 1) }
  if blanked then f1
  else
    let ks := frKey (m / f.mK * 16384 + c) i
    let q := tget (fun _ => (0, 0, 0)) f.sk ks
    let v := fofInt f64 p
    { f1 with sk := tset (fun _ => (0, 0, 0)) f.sk ks (fadd f64 q.1 v, fadd f64 q.2.1 (fmul f64 v v), q.2.2 + 1) }

/-- The value of a channel after the fringe rotation (R103, R107). -/
def Dev.chanValue (d : Dev) (seg : Option Seg) (n c : Nat) (v : Int × Int) : Int × Int :=
  let x : Int × Int := if d.frTaps % 2 = 1 ∧ c % 2 = 1 then (-v.1, -v.2) else v
  match d.on FR_CTRL FR_CTRL_FRINGE_EN, seg with
  | true, some g => let w := cosSin (fringePhase g n c); (mulQ16 x w.1 (-w.2)).1
  | _, _ => x

/-- One channel of one input of a spectrum: detectors, gain, requantiser, and the code put into the hold. -/
def Dev.frChannel (d : Dev) (i : Nat) (x : FInput) (m c : Nat) (seg : Option Seg) (blanked : Bool) (v : Int × Int) : Dev :=
  let c8 := d.on FR_CTRL FR_CTRL_FMT
  let r := d.chanValue seg (m * d.frHop) c v
  let f := d.front.chanDetect i c m blanked r
  let q := if blanked then (blankCode c8, 0) else requantise c8 x.rqShift (mulGain r (d.gainOf i c))
  let d1 : Dev := { d with front := { f with held := tset (fun _ => 0) f.held (frKey (m * 16384 + c) i) (q.1 + 1) } }
  if q.2 = 0 then d1 else d1.cnt (FR_REQ_SAT i) q.2

/-- One input of a spectrum (R104). -/
def Dev.frSpectrumInput (d : Dev) (i : Nat) (x : FInput) (m : Nat) : Dev :=
  let p := d.frP
  let taps := d.frTaps
  let lo := m * d.frHop - p * taps / 2
  let c8 := d.on FR_CTRL FR_CTRL_FMT
  let fl := d.front.windowFlags i lo (p * taps)
  let d1 := d.cnt (FR_SPEC_OUT i) 1
  if fl.1 then
    let held := d.frOut.foldl (fun (h : Tbl Nat) c => tset (fun _ => 0) h (frKey (m * 16384 + c) i) (blankCode c8 + 1)) d1.front.held
    ({ d1 with front := { d1.front with held := held } } : Dev).cnt (FR_SPEC_MISS i) 1
  else
    let d2 := if fl.2 then d1.cnt (FR_SPEC_BLANK i) 1 else d1
    let y := fft (d.f FR_FFT FR_FFT_FFT_SCALE) d.frLog2P ((List.range p).map fun k => d.front.firAt p taps i lo k)
    let d3 := if y.2 = 0 then d2 else d2.cntF (FR_INTERP_SAT i) HI32 y.2
    let seg := d.front.segOf i (m * d.frHop)
    let cplx := d.on FR_CTRL FR_CTRL_CPLX
    d.frOut.foldl (fun (e : Dev) c => e.frChannel i x m c seg fl.2 (y.1.getD (frBin p cplx c) (0, 0))) d3

/-! Output (R116, R117). -/

/-- The code of an output slot, the blank code where none was made. -/
def Dev.frCode (d : Dev) (m c i : Nat) : Nat :=
  let v := tget (fun _ => 0) d.front.held (frKey (m * 16384 + c) i)
  if v = 0 then blankCode (d.on FR_CTRL FR_CTRL_FMT) else v - 1

/-- Tracks of a route: first input and first channel of each frame shape it holds. -/
def FRoute.tracks (r : FRoute) : List (Nat × Nat) :=
  (List.range ((r.cHi + 1 - r.cLo) / 2 ^ r.logNc)).flatMap fun b =>
    (List.range ((r.iHi + 1 - r.iLo) / 2 ^ r.logNi)).map fun a => (r.iLo + a * 2 ^ r.logNi, r.cLo + b * 2 ^ r.logNc)

/-- The payload of a SPECTRA frame: spectrum, then channel, then input (Table 2.4). -/
def Dev.framePayload (d : Dev) (r : FRoute) (first i0 c0 : Nat) : List Nat :=
  let w := fmtW (d.on FR_CTRL FR_CTRL_FMT)
  (List.range (2 ^ r.logNs)).flatMap fun t => (List.range (2 ^ r.logNc)).flatMap fun c =>
    (List.range (2 ^ r.logNi)).flatMap fun i => leBytes w (d.frCode (first + t) (c0 + c) (i0 + i))

/-- A transmit lane can send the frames of a route: it is an ASL lane with its transmitter on and not failed or idle. -/
def Dev.laneTxGood (d : Dev) (n : Nat) : Bool :=
  let moved := d.lgroups.any fun g => g.tx && g.moved.any fun p => g.data.getD p 80 == n
  moved || (d.laneFunc n == 1 && d.on (LN_CTRL n) LN_CTRL_TX_EN && !(d.lane n).txFailed && !(d.lane n).txIdle)

/-- Spectra of an ACP stream that wait (R117, R258). -/
def Dev.acpBacklog (d : Dev) (stream : Nat) : Nat := ((d.waiting stream).map (·.spectra)).sum

/-- The spectra of a route are dropped now: its link has lost a lane, or its stream is backed up (R117). -/
def Dev.routeBlocked (d : Dev) (r : FRoute) : Bool :=
  match r.kind with
  | 0 => !r.lanes.all d.laneTxGood
  | 1 => decide (d.acpBacklog r.stream > 256)
  | _ => false

/-- One frame of a track sent on a route: an ASL frame queued on a lane of the link, or an ACP packet (R116). -/
def Dev.sendTrack (d : Dev) (r : FRoute) (first i0 c0 k count : Nat) (missing : Bool) : Dev :=
  let c8 := d.on FR_CTRL FR_CTRL_FMT
  let fmt := if c8 then 2 else 1
  let w := fmtW c8
  let body := if missing then List.replicate (2 ^ (r.logNi + r.logNc + r.logNs) * w) 0 else d.framePayload r first i0 c0
  if r.kind = 0 then
    let n := r.lanes.getD (k % max r.lanes.length 1) 0
    let l := d.lane n
    d.setLane n { l with txq := l.txq ++ [{ type := 1, num := first, link := r.link, i0 := i0, logNi := r.logNi, c0 := c0, logNc := r.logNc,
                                            logNs := r.logNs, fmt := fmt, missing := missing, payload := body }] }
  else
    let t := d.takeSeq r.stream 1
    t.2.push { stream := r.stream, seq := t.1, at' := d.now, spectra := if k + 1 = count then 2 ^ r.logNs else 0, chFirst := c0,
               chLast := c0 + 2 ^ r.logNc - 1,
               body := acpHeader 1 (b2n missing + 4 * b2n d.inHoldover) r.stream t.1 d.srcDev r.link fmt first i0 c0 r.logNi r.logNc r.logNs 0 0
                 body ++ body }

/-- A route takes a spectrum: it is dropped and counted while the route is blocked, and otherwise completes frames (R116,
R117). -/
def Dev.routeSpectrum (d : Dev) (k m : Nat) : Dev :=
  match d.front.route[k]? with
  | none => d
  | some r =>
    let put := fun (e : Dev) (x : FRoute) => { e with front := { e.front with route := e.front.route.set k x } }
    if r.kind = 2 then d
    else if d.routeBlocked r then put d { r with drops := satAdd 64 r.drops 1, lost := true, miss := r.tracks }
    else if (m + 1) % 2 ^ r.logNs ≠ 0 then d
    else
      let first := m + 1 - 2 ^ r.logNs
      let ts := r.tracks
      let d1 := ts.zipIdx.foldl (fun (e : Dev) x => e.sendTrack r first x.1.1 x.1.2 x.2 ts.length (r.miss.contains x.1)) d
      put d1 { r with lost := false, miss := [] }

/-- A spectrum of the front handed to local alignment in the combined role (R116, R106). -/
def Dev.alignLocal (d : Dev) (m : Nat) : Dev :=
  if !d.run.active || !(d.front.route.any fun r => r.kind == 2) then d
  else
    let r := d.frOut.foldl
      (fun (x : Run × AlignRes) c =>
        (List.range d.front.inputs.length).foldl (fun (x : Run × AlignRes) i => placeOne d.compat m c i (d.frCode m c i) x) x)
      (d.run, {})
    { d with run := r.1, cap := { d.cap with newest := max d.cap.newest r.2.top } }

/-- The front's own capture of a spectrum in the front role, its segment completed by its last one (R39, R228). -/
def capFrontSpectrum (m : Nat) (s : State) : State :=
  let d := s.dev
  if !d.capFront then s
  else
    let s1 := capSpectrum m (fun c i => if d.chLo ≤ c ∧ c ≤ d.chHi ∧ i < d.front.inputs.length then some (d.frCode m c i) else none) s
    (s1.dev.capHeld.filter fun j => decide ((j + 1) * s1.dev.segSpec ≤ m + 1)).foldl capComplete s1

/-- Held spectra that no frame needs any more are dropped. -/
def Front.dropHeld (f : Front) (m : Nat) : Front :=
  let l := f.route.foldl (fun a r => max a r.logNs) 0
  let keep := (m + 1) / 2 ^ l * 2 ^ l
  { f with held := f.held.filter fun p => decide (keep ≤ p.1 / 2048 / 16384) }

/-- A spectrum leaves the front (stage 12). -/
def frRelease (s : State) (m : Nat) : State :=
  let d1 := s.dev.alignLocal m
  let d2 := (List.range d1.front.route.length).foldl (fun (e : Dev) k => e.routeSpectrum k m) d1
  let s1 := capFrontSpectrum m { s with dev := d2 }
  { s1 with dev := { s1.dev with front := { s1.dev.front.dropHeld m with released := m + 1 } } }

/-- FRONT_SPECTRUM (R104): the next spectrum, once every output sample of its window has been taken. -/
def frontSpectrum (s : State) : State :=
  let d := s.dev
  let f := d.front
  let m := f.spn
  let half := d.frP * d.frTaps / 2
  if !f.running || decide (f.knotAt < m * d.frHop + half) then s
  else
    let d1 := d.gainSwap m
    let d2 := d1.front.inputs.zipIdx.foldl (fun (e : Dev) x => e.frSpectrumInput x.2 x.1 m) d1
    let lo := (m + 1) * d.frHop - half
    let d3 : Dev := { d2 with front := { d2.front with spn := m + 1, y := d2.front.y.filter fun p => decide (lo ≤ p.1 / 2048) } }
    if d3.on FR_CTRL FR_CTRL_SK_EN then { s with dev := d3 } else frRelease { s with dev := d3 } m

/-- Meaning of FRONT_SPECTRUM. -/
def execFrontSpectrum (s : State) : Host.Outcome State Fault Refusal := .next (frontSpectrum s)

/-! Kurtosis (R113, R114). -/

/-- SK of a block in binary64 from S1, S2 and M (R113). -/
def skOf (s1 s2 m : Nat) : Nat :=
  let n := fofInt f64 m
  let one := fofInt f64 1
  let x := fsub f64 (fdiv f64 (fmul f64 n s2) (fmul f64 s1 s1)) one
  fmul f64 (fdiv f64 (fadd f64 n one) (fsub f64 n one)) x

/-- The verdict on a channel of an input over a block: blanked or not (R113). -/
def Front.skBad (f : Front) (q : Nat × Nat × Nat) : Bool :=
  if q.2.2 < f.mK / 2 ∨ q.1 = 0 then false
  else
    let v := skOf q.1 q.2.1 q.2.2
    flt f64 v (fcvt f32 f64 f.skLo) || flt f64 (fcvt f32 f64 f.skHi) v

/-- One channel of one input of a block judged and blanked. -/
def Dev.skChannel (d : Dev) (b i c : Nat) : Dev :=
  let f := d.front
  let key := frKey (b * 16384 + c) i
  let q := tget (fun _ => (0, 0, 0)) f.sk key
  let f1 := { f with sk := tset (fun _ => (0, 0, 0)) f.sk key (0, 0, 0) }
  if !d.on FR_CTRL FR_CTRL_SK_EN || !f.skBad q then { d with front := f1 }
  else
    let c8 := d.on FR_CTRL FR_CTRL_FMT
    let r := (List.range f.mK).foldl
      (fun (acc : Tbl Nat × Nat) t =>
        let k := frKey ((b * f.mK + t) * 16384 + c) i
        let v := tget (fun _ => 0) acc.1 k
        if v = 0 ∨ isBlank c8 (v - 1) then acc else (tset (fun _ => 0) acc.1 k (blankCode c8 + 1), acc.2 + 1)) (f1.held, 0)
    let d1 : Dev := { d with front := { f1 with held := r.1 } }
    if r.2 = 0 then d1 else d1.cnt (FR_CHAN_SK_BLANK i) r.2

/-- KURTOSIS_BLOCK (R113): the oldest block of M_K spectra not yet judged has been computed whole. -/
def kurtosisBlock (s : State) : State :=
  let d := s.dev
  let f := d.front
  let b := f.released / f.mK
  if !f.running || !d.on FR_CTRL FR_CTRL_SK_EN || f.mK = 0 || decide (f.spn < (b + 1) * f.mK) then s
  else
    let d1 := (List.range f.inputs.length).foldl (fun (e : Dev) i => d.frOut.foldl (fun (e : Dev) c => e.skChannel b i c) e) d
    ((List.range ((b + 1) * f.mK - f.released)).map (· + f.released)).foldl frRelease { s with dev := d1 }

/-- Meaning of KURTOSIS_BLOCK. -/
def execKurtosisBlock (s : State) : Host.Outcome State Fault Refusal := .next (kurtosisBlock s)

end Sys2Proof.Machine
end

