-- ==== Sys2Proof/Machine/FrontCmd.lean ====
section
/-!
DEFINITION. The front commands, their jobs and the start and stop of the front (03_front R88, R95, R108, R109, R116, R119 to
R122).
-/
namespace Sys2Proof.Machine

/-! Rates (R88). -/

/-- A sum of fractions. -/
def fracSum (xs : List (Nat × Nat)) : Nat × Nat := xs.foldl (fun a x => (a.1 * x.2 + x.1 * a.2, a.2 * x.2)) (0, 1)

/-- A fraction is at most a number. -/
def fracLe (x : Nat × Nat) (n : Nat) : Bool := decide (x.1 ≤ n * x.2)

/-- Input rate of a front input as a fraction (R122, R296). -/
def Dev.inRate (d : Dev) (x : FInput) : Nat × Nat := (d.rdN (TIM_SNG_NUM x.sng), max (d.f (TIM_SNG_DEN x.sng) TIM_SNG_DEN_DEN) 1)

/-- A rate multiplied by a ratio. -/
def fracMul (x : Nat × Nat) (a b : Nat) : Nat × Nat := (x.1 * a, x.2 * b)

/-- Hop of a mode (Table 3.2). -/
def hopOf (mode p : Nat) : Nat := match mode with | 1 => 3 * p / 4 | 2 => p / 2 | _ => p

/-- A rate lies in the range of R88. -/
def rateRange (cplx : Bool) (x : Nat × Nat) : Bool :=
  decide (10 ^ 6 * x.2 ≤ x.1) && fracLe x (if cplx then 4096000000 else 8192000000)

/-- The rate limits of R88 over a configuration's inputs. -/
def Dev.frRatesOk (d : Dev) (cplx : Bool) (mode p : Nat) (xs : List FInput) : Bool :=
  let w := if cplx then 2 else 1
  let ins := xs.map d.inRate
  let outs := xs.map d.frRate
  ins.all (rateRange cplx) && outs.all (rateRange cplx) &&
    fracLe (fracSum (ins.map fun r => fracMul r w 1)) (11 * 10 ^ 11) &&
    fracLe (fracSum (outs.map fun r => fracMul r (w * p) (hopOf mode p))) (11 * 10 ^ 11)

/-- Smallest gain granularity, as its exponent (R108). -/
def log2G (inputs chans : Nat) : Option Nat := (List.range 9).find? fun g => decide (inputs * gainEntries chans g ≤ 1048576)

/-- Output bytes per second of inputs and channels (R116). -/
def Dev.outBytes (d : Dev) (xs : List FInput) (chans hop w : Nat) : Nat × Nat :=
  fracSum (xs.map fun x => fracMul (d.frRate x) (chans * w) hop)

/-- R48 traffic of the front in bytes per second (R92, R113). -/
def Dev.frTraffic (d : Dev) (cplx sk : Bool) (width hop chans w : Nat) (xs : List FInput) : Nat :=
  let line := fracSum (xs.map fun x => fracMul (d.inRate x) (2 * (if cplx then 2 else 1) * widthBits width) 8)
  let out := d.outBytes xs chans hop w
  line.1 / line.2 + (if sk then 2 * out.1 / out.2 else 0)

/-- HBM bytes of the front's regions: delay lines, their flag maps, and the kurtosis buffer (R92, R113). -/
def frRegions (cplx sk : Bool) (width depth inputs chans w mK : Nat) : List Nat :=
  [inputs * depth * widthBits width * (if cplx then 2 else 1) / 8, inputs * depth / 64, if sk then mK * inputs * chans * w else 0]

/-! FRONT_CONFIG (R122). -/

/-- An input entry and whether its fields hold (Table 3.8). -/
def frEntry (bs : List Nat) (k : Nat) : FInput × Bool :=
  let o := 16 * k
  let b6 := at' bs (o + 6) 1
  let b7 := at' bs (o + 7) 1
  let x : FInput := { q := at' bs o 6, sng := b6 % 8, rqShift := b6 / 8, kind := b7 % 4, srcId := at' bs (o + 8) 2,
                      link := at' bs (o + 10) 1, bits := at' bs (o + 11) 1 % 16 + 16 * (at' bs (o + 11) 1 / 16) }
  (x, decide (2 ^ 45 ≤ x.q ∧ x.q ≤ 2 ^ 47) && decide (x.rqShift ≤ 23) && b7 < 2 && (x.kind == 0 || x.link == 0) &&
    decide (4 ≤ x.bits ∧ x.bits ≤ 16) && at' bs (o + 12) 4 == 0)

/-- Two entries name the same source sample. -/
def sameSource (xs : List FInput) : Bool :=
  xs.zipIdx.any fun x => (xs.drop (x.2 + 1)).any fun y => y.kind == x.1.kind && y.srcId == x.1.srcId && y.link == x.1.link

/-- FRONT_CONFIG. -/
def frontConfigDef : CmdDef where
  op := 0x0401
  mode := 1
  masks := fun _ => [0x1FFFF, 0xFFF, 0xFFFFFFFF, 0xFFFFFF, 0x1FFFFF, 0x1FFFF, 0xFFFFFFFF, 0xFFFF]
  bad := fun c _ =>
    let l := c.b 0 5 2
    let chans := frChannels (2 ^ l) (bit (c.p 0) 11)
    c.b 0 1 0 == 3 || l < 8 || l > 14 || (c.b 0 1 0 != 2 && (c.b 0 10 6 < 4 || c.b 0 10 6 > 16)) || c.b 0 13 12 == 3 ||
      c.b 2 15 0 > c.b 2 31 16 || decide (chans ≤ c.b 2 31 16) || c.b 4 20 0 < 1024 || c.b 4 20 0 > 1048576 || c.b 5 16 0 > 65536 ||
      c.q 6 % 16 != 0
  run := onDev fun c s =>
    let d := s.dev
    let n := c.b 1 11 0 + 1
    if (d.role ≠ 1 ∧ d.role ≠ 3) ∨ d.front.running then noR .badState d
    else if (d.role = 1 ∧ (n < 256 ∨ n > 2048)) ∨ (d.role = 3 ∧ (n < 2 ∨ n > 256)) then noR .badParam d
    else match readTable d s.mem (c.q 6) (16 * n) with
    | .error k => noR k d
    | .ok bs =>
      let es := (List.range n).map (frEntry bs)
      let xs := es.map fun x => x.1
      let mode := c.b 0 1 0
      let cplx := bit (c.p 0) 11
      let sk := bit (c.p 0) 16
      let width := c.b 0 13 12
      let p := 2 ^ c.b 0 5 2
      let hop := hopOf mode p
      let w := fmtW (bit (c.p 0) 14)
      let chans := c.b 2 31 16 + 1 - c.b 2 15 0
      let depth := lineDepth (c.p 3) (c.p 4) (c.p 5)
      let regs := frRegions cplx sk width depth n chans w d.front.mK
      let traffic := d.frTraffic cplx sk width hop chans w xs
      if es.any (fun x => !x.2) || sameSource xs then noR .badParam d
      else match log2G n chans with
      | none => noR .noResource d
      | some g =>
        if !d.frRatesOk cplx mode p xs || decide (regionMib regs > d.hbmMib) || !d.demandOk traffic then noR .noResource d
        else
          let d1 := d.wrN FR_CTRL (2 * mode + 8 * c.b 0 5 2 + 128 * c.b 0 10 6 + 4096 * b2n cplx + 8192 * width + 32768 * c.b 0 14 14 +
            65536 * c.b 0 15 15 + 131072 * b2n sk + (d.rdN FR_CTRL / 2 ^ 18 % 2) * 2 ^ 18)
          let d2 := ((d1.wrN FR_SHAPE (c.b 1 11 0 + c.b 2 15 0 * 2 ^ 16 + c.b 2 31 16 * 2 ^ 32 + g * 2 ^ 48)).setF FR_TIME FR_TIME_MARGIN
            (c.p 4)).setF FR_TIME FR_TIME_PRE (c.p 5)
          let f := { d2.front with
            conf := true, inputs := xs, tauMax := c.p 3, startAt := none, stopAt := none, act := [], pend := [], past := [], samples := [],
            groups := [], tau := [], y := [], gainSwap := none, env := [], evt := [], detAt := [], stat := [], power := [], sk := [],
            held := [], demand := traffic, hbm := regionMib regs * 2 ^ 20 }
          okR [g, regionMib regs, traffic / 10 ^ 9] (({ d2 with front := f } : Dev).setF FR_CTRL FR_CTRL_GAIN_PEND 0)

/-! Delay models (R95, R121). -/

/-- A segment entry of 22 words, and whether it holds (Table 3.6). -/
def segEntry (ws : Nat → Nat) (count : Nat) : Seg × Bool :=
  let q := fun k => ws k + ws (k + 1) * 2 ^ 32
  let g : Seg := { input := ws 0 % 4096, s0 := q 1, len := ws 3 + 1, c := [q 4, q 6, q 8, q 10], p := [q 12, q 14, q 16, q 18], psi := q 20 }
  (g, ws 0 < 4096 && g.len % 256 == 0 && g.s0 % 256 == 0 && decide (g.input < count))

/-- The output SN that is being processed: the next knot while the front runs, the named start before it (R95). -/
def Dev.outSn (d : Dev) : Option Nat := if d.front.running then some d.front.knotAt else d.front.startAt

/-- A segment loaded (R95): 0 loaded, 1 loaded in place of a pending one, 2 missed. -/
def Dev.loadSeg (d : Dev) (g : Seg) : Dev × Nat :=
  let late : Bool := match d.outSn with
    | some n => earlier g.s0 ((n + 65536) % 2 ^ 64) 64
    | none => false
  if late then (d, 2)
  else
    let old := (tget (fun _ => none) d.front.pend g.input).isSome
    ({ d with front := { d.front with pend := tset (fun _ => none) d.front.pend g.input (some g) } }, b2n old)

/-- DELAY_MODEL (R121). -/
def delayModelDef : CmdDef where
  op := 0x0402
  mode := 1
  masks := fun _ => [3]
  bad := fun c s =>
    let n := c.b 0 1 0
    n == 0 || n == 3 || (List.range n).any fun e => !(segEntry (fun k => c.p (1 + 22 * e + k)) s.dev.front.inputs.length).2
  run := onDev fun c s =>
    let d := s.dev
    if !d.front.conf then noR .badState d
    else
      let gs := (List.range (c.b 0 1 0)).map fun e => (segEntry (fun k => c.p (1 + 22 * e + k)) d.front.inputs.length).1
      let dry := gs.map fun g => (d.loadSeg g).2
      if dry.any (· == 2) then ({ code := .badState, res := dry.map fun x => if x = 2 then 2 else 0 }, d)
      else
        let r := gs.foldl (fun (acc : Dev × List Nat) g => let x := acc.1.loadSeg g; (x.1, acc.2 ++ [x.2])) (d, [])
        okR r.2 r.1

/-- MODEL_TABLE: words 0 and 1 the address, word 2 the entries of 88 bytes (log entry 8). -/
def modelTableDef : CmdDef where
  op := 0x0403
  mode := 1
  masks := fun _ => [0xFFFFFFFF, 0xFFFF, 0xFFFF]
  bad := fun c _ => c.p 2 == 0 || c.q 0 % 4 != 0
  run := onDev fun c s => if !s.dev.front.conf then noR .badState s.dev else asJob c s.dev 0x0403 true

/-- Bytes put into a job's result area. -/
def areaWrite (s : State) (i : Nat) (bs : List Nat) : State :=
  match (s.dev.job i).area with
  | some k => { s with mem := s.mem.wr (s.dev.areaAddr k) bs }
  | none => s

/-- A job's source: its address in words 0 and 1. -/
def Dev.jobQ (d : Dev) (i k : Nat) : Nat := (d.job i).params.getD k 0 + (d.job i).params.getD (k + 1) 0 * 2 ^ 32

/-- The work of a MODEL_TABLE job: segments loaded in order; the inputs missed are its result. -/
def modelTableWork (s : State) (i : Nat) : State × Option (Code × Nat) :=
  let d := s.dev
  let n := (d.job i).params.getD 2 0
  match readTable d s.mem (d.jobQ i 0) (88 * n) with
  | .error k => (s, some (k, 0))
  | .ok bs =>
    let es := (List.range n).map fun e => segEntry (fun k => at' bs (88 * e + 4 * k) 4) d.front.inputs.length
    if es.any fun x => !x.2 then (s, some (.badParam, 0))
    else
      let r := es.foldl
        (fun (acc : Dev × List Nat) e => let x := acc.1.loadSeg e.1; (x.1, if x.2 = 2 then acc.2 ++ [e.1.input] else acc.2)) (d, [])
      let s1 := areaWrite { s with dev := r.1 } i (wordsToBytes r.2)
      (s1, some (if r.2.isEmpty then .ok else .partialDone, 4 * r.2.length))

/-- COEF_LOAD: words 0 and 1 the address, word 2 [0] 0 the interpolator bank, 1 the window (log entry 8). -/
def coefLoadDef : CmdDef where
  op := 0x0404
  mode := 1
  masks := fun _ => [0xFFFFFFFF, 0xFFFF, 1]
  bad := fun c _ => c.q 0 % 4 != 0
  run := onDev fun c s => if s.dev.front.running then noR .badState s.dev else asJob c s.dev 0x0404 false

/-- Words of a table in memory as 18-bit signed coefficients. -/
def coefs (bs : List Nat) (n : Nat) : Tbl Int :=
  (List.range n).foldl (fun t k => tset (fun _ => 0) t k (sext 18 (at' bs (4 * k) 4))) []

/-- The work of a COEF_LOAD job. -/
def coefLoadWork (s : State) (i : Nat) : State × Option (Code × Nat) :=
  let d := s.dev
  let win := bit ((d.job i).params.getD 2 0) 0
  let n := if win then d.frP * d.frTaps else 16384
  if d.front.running then (s, some (.badState, 0))
  else match readTable d s.mem (d.jobQ i 0) (4 * n) with
  | .error k => (s, some (k, 0))
  | .ok bs =>
    let f := if win then { d.front with window := coefs bs n } else { d.front with bank := coefs bs n }
    ({ s with dev := { d with front := f } }, some (.ok, 4 * n))

/-- GAIN_LOAD: words 0 and 1 the address, words 2 and 3 the swap SPN (log entry 8). -/
def gainLoadDef : CmdDef where
  op := 0x0405
  mode := 1
  masks := fun _ => [0xFFFFFFFF, 0xFFFF]
  bad := fun c _ => c.q 0 % 8 != 0
  run := onDev fun c s => if !s.dev.front.conf then noR .badState s.dev else asJob c s.dev 0x0405 false

/-- The work of a GAIN_LOAD job: the inactive buffer is filled and its swap named, or it is missed (R109). -/
def gainLoadWork (s : State) (i : Nat) : State × Option (Code × Nat) :=
  let d := s.dev
  let sw := d.jobQ i 2
  let per := gainEntries (d.chHi + 1 - d.chLo) (min 8 (d.f FR_SHAPE FR_SHAPE_LOG2G))
  let ni := d.front.inputs.length
  match readTable d s.mem (d.jobQ i 0) (8 * ni * per) with
  | .error k => (s, some (k, 0))
  | .ok bs =>
    let t : Tbl (Int × Int) := (List.range ni).foldl
      (fun t a => (List.range per).foldl
        (fun t e =>
          let o := 8 * (a * per + e)
          tset (fun _ => (0, 0)) t (a * 16384 + e) (sext 18 (at' bs o 4), sext 18 (at' bs (o + 4) 4))) t) []
    let f := if d.on FR_CTRL FR_CTRL_GAIN_BUF then { d.front with gainA := t } else { d.front with gainB := t }
    if d.front.running && earlier sw ((d.front.spn + 256) % 2 ^ 64) 64 then
      (({ s with dev := ({ d with front := { f with gainSwap := none } } : Dev).setF FR_CTRL FR_CTRL_GAIN_PEND 0 }), some (.badState, 0))
    else
      ({ s with dev := ({ d with front := { f with gainSwap := some sw } } : Dev).setF FR_CTRL FR_CTRL_GAIN_PEND 1 },
        some (.ok, 8 * ni * per))

/-! Detectors. -/

/-- DETECT_SET: word 0 [4:0] K, [8:5] A, [9] BLANK_EN, [10] OVR_BLANK, [11] EVT_TRIG; 1 POST; 2 E_TH; 3 EVT_HOLD; 4 M_P; 5 M_K; 6 SK_LO;
7 SK_HI (log entry 8). -/
def detectSetDef : CmdDef where
  op := 0x0406
  mode := 1
  masks := fun _ => [0xFFF, 0x1FFFF, 0xFFFFFFFF, 0xFFFFFFFF, 0x1FFFF, 0x7FF, 0xFFFFFFFF, 0xFFFFFFFF]
  bad := fun c _ =>
    c.b 0 4 0 < 10 || c.b 0 4 0 > 30 || c.p 1 > 65536 || c.p 4 < 256 || c.p 4 > 65536 || c.p 4 % 256 != 0 ||
      !([16, 32, 64, 128, 256, 512, 1024].contains (c.p 5))
  run := onDev fun c s =>
    let d := s.dev
    let d1 := (((((d.setF FR_DET FR_DET_K (c.b 0 4 0)).setF FR_DET FR_DET_A (c.b 0 8 5)).setF FR_DET FR_DET_BLANK_EN (c.b 0 9 9)).setF
      FR_DET FR_DET_OVR_BLANK (c.b 0 10 10)).setF FR_DET FR_DET_EVT_TRIG (c.b 0 11 11)).setF FR_DET FR_DET_POST (c.p 1)
    okR [] { d1 with front := { d1.front with eTh := c.p 2, evtHold := c.p 3, mP := c.p 4, mK := c.p 5, skLo := c.p 6, skHi := c.p 7,
                                              power := [], sk := [], stat := [] } }

/-- DETECT_READ: word 0 [1:0] 0 peak and RMS, 1 channel power, 2 events; 1 [11:0] input, [31:16] channel; 2 and 3 the address
(log entry 8). -/
def detectReadDef : CmdDef where
  op := 0x0407
  mode := 1
  masks := fun _ => [3, 0xFFFF0FFF, 0xFFFFFFFF, 0xFFFF]
  bad := fun c s => c.b 0 1 0 == 3 || c.q 2 % 8 != 0 || decide (s.dev.front.inputs.length ≤ c.b 1 11 0)
  run := onDev fun c s => if !s.dev.front.conf then noR .badState s.dev else asJob c s.dev 0x0407 false

/-- Entries of a ring as bytes, oldest first: 64-bit values. -/
def Front.ringBytes (f : Front) (kind input ch : Nat) : List Nat :=
  if kind = 2 then f.events.reverse.flatMap fun e => leBytes 8 e.1 ++ leBytes 8 e.2.1 ++ leBytes 8 e.2.2
  else
    (f.results.reverse.filter fun r => r.1 == kind && r.2.1 == input && (kind == 0 || r.2.2.1 == ch)).flatMap fun r =>
      leBytes 8 r.2.2.2.1 ++ r.2.2.2.2.flatMap (leBytes 8)

/-- The work of a DETECT_READ job. -/
def detectReadWork (s : State) (i : Nat) : State × Option (Code × Nat) :=
  let ps := (s.dev.job i).params
  let bs := s.dev.front.ringBytes (ps.getD 0 0 % 4) (ps.getD 1 0 % 4096) (ps.getD 1 0 / 2 ^ 16)
  let w := memWrite s.dev s.mem (s.dev.jobQ i 2) bs false
  ({ s with mem := w.2 }, some (if w.1 then .ok else .hwFault, if w.1 then bs.length else 0))

/-! Routes (R116). -/

/-- A route entry of 32 bytes: 0 I_LO, 2 I_HI, 4 C_LO, 6 C_HI, 8 kind, 9 link, 10 stream, 12 LOG_NI, 13 LOG_NC, 14 LOG_NS, 16 lane mask
(log entry 8); and whether it holds. -/
def frRoute (bs : List Nat) (k inputs lo hi w : Nat) : FRoute × Bool :=
  let o := 32 * k
  let mask := at' bs (o + 16) 10
  let r : FRoute := { iLo := at' bs o 2, iHi := at' bs (o + 2) 2, cLo := at' bs (o + 4) 2, cHi := at' bs (o + 6) 2, kind := at' bs (o + 8) 1,
                      lanes := (List.range 80).filter fun n => bit mask n, link := at' bs (o + 9) 1, stream := at' bs (o + 10) 2,
                      logNi := at' bs (o + 12) 1, logNc := at' bs (o + 13) 1, logNs := at' bs (o + 14) 1 }
  let range := decide (r.iLo ≤ r.iHi ∧ r.iHi < inputs ∧ lo ≤ r.cLo ∧ r.cLo ≤ r.cHi ∧ r.cHi ≤ hi)
  let shape := (r.iHi + 1 - r.iLo) % 2 ^ r.logNi == 0 && (r.cHi + 1 - r.cLo) % 2 ^ r.logNc == 0
  let size := 2 ^ (r.logNi + r.logNc + r.logNs) * w
  let fits : Bool := match r.kind with
    | 0 => r.logNi ≥ 3 && size == 4096 && !r.lanes.isEmpty
    | 1 => decide (r.logNi ≤ 12 ∧ r.logNc ≤ 12 ∧ r.logNs ≤ 8)
    | _ => r.kind == 2
  (r, range && (r.kind == 2 || (r.logNi < 16 && r.logNc < 16 && r.logNs < 16 && shape)) && fits && mask < 2 ^ 80 && at' bs (o + 15) 1 == 0 &&
    at' bs (o + 26) 6 == 0)

/-- Load of a route in bytes per second: of its inputs and channels (R116). -/
def Dev.routeLoad (d : Dev) (r : FRoute) : Nat × Nat :=
  d.outBytes ((d.front.inputs.drop r.iLo).take (r.iHi + 1 - r.iLo)) (r.cHi + 1 - r.cLo) d.frHop (fmtW (d.on FR_CTRL FR_CTRL_FMT))

/-- Payload of an ASL link's data lanes in bytes per second: lanes that are the parity lane of a group carry none. -/
def Dev.linkBudget (d : Dev) (lanes : List Nat) : Nat :=
  ((lanes.filter fun n => d.laneFunc n == 1 && !(d.lgroups.any fun g => g.tx && g.parity == n)).map fun n =>
    aslPayload (d.f (LN_CTRL n) LN_CTRL_RATE) * 10 ^ 7 / 8).sum

/-- Every ASL link carries the routes that share its lanes (R116). -/
def Dev.routesFit (d : Dev) (rs : List FRoute) : Bool :=
  rs.all fun r => r.kind != 0 ||
    fracLe (fracSum ((rs.filter fun x => x.kind == 0 && x.lanes == r.lanes).map d.routeLoad)) (d.linkBudget r.lanes)

/-- A route to a stream names one of class 3 whose packets hold the route's blocks. -/
def Dev.routeFits (d : Dev) (w : Nat) (r : FRoute) : Bool :=
  r.kind != 1 || (match d.stream r.stream with | some st => st.cls == 3 && st.fits (64 + 2 ^ (r.logNi + r.logNc + r.logNs) * w) | none => false)

/-- ROUTE_SET: word 0 [6:0] the entries, words 1 and 2 the address (log entry 8). -/
def routeSetDef : CmdDef where
  op := 0x0408
  mode := 1
  masks := fun _ => [0x7F, 0xFFFFFFFF, 0xFFFF]
  bad := fun c _ => c.p 0 > 64 || c.q 1 % 32 != 0
  run := onDev fun c s =>
    let d := s.dev
    if (d.role ≠ 1 ∧ d.role ≠ 3) ∨ d.front.running ∨ !d.front.conf then noR .badState d
    else match readTable d s.mem (c.q 1) (32 * c.p 0) with
    | .error k => noR k d
    | .ok bs =>
      let w := fmtW (d.on FR_CTRL FR_CTRL_FMT)
      let es := (List.range (c.p 0)).map fun k => frRoute bs k d.front.inputs.length d.chLo d.chHi w
      let rs := es.map fun x => x.1
      let local' := (rs.drop 1).any (fun r => r.kind == 2) || ((rs.head?.any fun r => r.kind == 2) && d.role != 3)
      if es.any (fun x => !x.2) || !rs.all (d.routeFits w) || local' then noR .badParam d
      else if !d.routesFit rs then noR .noResource d
      else okR [] { d with front := { d.front with route := rs } }

/-! Start, stop and status. -/

/-- The output SN that the sample counter of the first input has reached (R91, R97). -/
def Dev.outNow (d : Dev) : Nat :=
  match d.front.inputs.head? with
  | some x => d.frCount x * 2 ^ 46 / max x.q 1
  | none => 0

/-- FRONT_START: word 0 [0] 1 stops, words 1 and 2 the output SN (log entry 8). While the front runs it completes with BAD_STATE, as
R120 has it, so a stop is named before the start is reached (log entry 13). -/
def frontStartDef : CmdDef where
  op := 0x0409
  mode := 1
  masks := fun _ => [1]
  bad := fun c _ => c.q 1 % 256 != 0
  run := onDev fun c s =>
    let d := s.dev
    let sn := c.q 1
    if !d.front.conf ∨ d.front.running ∨ earlier sn d.outNow 64 then noR .badState d
    else if bit (c.p 0) 0 then okR [] { d with front := { d.front with stopAt := some sn } }
    else okR [] { d with front := { d.front with startAt := some sn } }

/-- FRONT_START_REACHED (R120): the named output SN is reached and the front starts at it, or every knot below the named stop
has been taken and it stops. The first spectrum is the first whose window begins at or after the start. -/
def Dev.frontReached (d : Dev) : Dev :=
  let f := d.front
  if f.running then
    match f.stopAt with
    | some n =>
      if f.knotAt < n then d
      else (({ d with front := { f with running := false, stopAt := none } } : Dev).setF FR_CTRL FR_CTRL_EN 0) |> fun e => if e.capFront then e.capStop else e
    | none => d
  else
    match f.startAt with
    | some n =>
      if d.outNow < n then d
      else
        let m := ceilDiv (n + d.frP * d.frTaps / 2) (max d.frHop 1)
        ({ d with front := { f with running := true, startAt := none, knotAt := n, spn := m, released := m, y := [], held := [] } } : Dev).setF
          FR_CTRL FR_CTRL_EN 1
    | none => d

/-- Meaning of FRONT_START_REACHED. -/
def execFrontStartReached (s : State) : Host.Outcome State Fault Refusal := .next { s with dev := s.dev.frontReached }

/-- Counters of an input (Table 3.4). -/
def frCounters (i : Nat) : List Nat :=
  [FR_SPEC_OUT i, FR_SPEC_MISS i, FR_SPEC_BLANK i, FR_CHAN_SK_BLANK i, FR_SMP_LATE i, FR_INTERP_SAT i, FR_REQ_SAT i, FR_DELAY_CLAMP i]

/-- FRONT_STATUS: word 0 [11:0] the input (log entry 8); the flag CLEAR clears the counters of every input (R119). -/
def frontStatusDef : CmdDef where
  op := 0x040A
  mode := 1
  masks := fun _ => [0xFFF]
  bad := fun c _ => c.p 0 > 2047
  run := onDev fun c s =>
    let d := s.dev
    let f := d.front
    let d1 := if c.clear then d.clearRegs ((List.range 2048).flatMap frCounters) else d
    okR ([d.rdN FR_CTRL] ++ lohi f.knotAt ++ lohi f.spn ++ lohi (f.gainSwap.getD 0) ++
        [b2n (tget (fun _ => none) f.pend (c.p 0)).isSome, b2n f.startAt.isSome + 2 * b2n f.stopAt.isSome] ++
        (frCounters (c.p 0)).flatMap (fun a => lohi (d.rdN a)) ++ f.route.flatMap fun r => lohi r.drops)
      (if c.clear then { d1 with front := { d1.front with route := d1.front.route.map fun r => { r with drops := 0 } } } else d1)

/-- Meanings of the front commands. -/
def execFrontConfig (slot : Nat) (s : State) : Host.Outcome State Fault Refusal := .next (serve frontConfigDef slot 0 0 s)
def execDelayModel (slot : Nat) (s : State) : Host.Outcome State Fault Refusal := .next (serve delayModelDef slot 0 0 s)
def execModelTable (slot : Nat) (s : State) : Host.Outcome State Fault Refusal := .next (serve modelTableDef slot 0 0 s)
def execCoefLoad (slot : Nat) (s : State) : Host.Outcome State Fault Refusal := .next (serve coefLoadDef slot 0 0 s)
def execGainLoad (slot : Nat) (s : State) : Host.Outcome State Fault Refusal := .next (serve gainLoadDef slot 0 0 s)
def execDetectSet (slot : Nat) (s : State) : Host.Outcome State Fault Refusal := .next (serve detectSetDef slot 0 0 s)
def execDetectRead (slot : Nat) (s : State) : Host.Outcome State Fault Refusal := .next (serve detectReadDef slot 0 0 s)
def execRouteSet (slot : Nat) (s : State) : Host.Outcome State Fault Refusal := .next (serve routeSetDef slot 0 0 s)
def execFrontStart (slot : Nat) (s : State) : Host.Outcome State Fault Refusal := .next (serve frontStartDef slot 0 0 s)
def execFrontStatus (slot : Nat) (s : State) : Host.Outcome State Fault Refusal := .next (serve frontStatusDef slot 0 0 s)

end Sys2Proof.Machine
end

