-- ==== Sys2Proof/Machine/Lanes.lean ====
section
/-!
DEFINITION. Lane training, ASL frames received and sent, N+1 groups, the bulk class, JESD204C links, eye scans and patterns
(02_lanes_and_links R53 to R82; 14_heat_wear_and_twins R412).
-/
namespace Sys2Proof.Machine

/-! Receiver states (R53, R54). -/

/-- JESD204C link k. -/
def Dev.jlink (d : Dev) (k : Nat) : Option Jesd := tget (fun _ => none) d.jesd k

/-- The device with a JESD204C link replaced. -/
def Dev.setJlink (d : Dev) (k : Nat) (j : Option Jesd) : Dev := { d with jesd := tset (fun _ => none) d.jesd k j }

/-- Links that a lane belongs to. -/
def Dev.jlinksOf (d : Dev) (n : Nat) : List (Nat × Jesd) :=
  d.jesd.filterMap fun p => match p.2 with | some j => if j.lanes.contains n then some (p.1, j) else none | none => none

/-- A link loses its data: its inputs are missing until it realigns (R74). -/
def Dev.jesdFault (d : Dev) (k : Nat) : Dev :=
  match d.jlink k with
  | some j => if j.aligned then d.setJlink k (some { j with fault := true }) else d
  | none => d

/-- Subclass 0 links realign by themselves once their lanes are in UP (R74). -/
def Dev.jesdReturn (d : Dev) (n : Nat) : Dev :=
  (d.jlinksOf n).foldl
    (fun (e : Dev) (k, j) => if j.subclass = 0 ∧ j.lanes.all (fun m => e.laneSt m == LST_UP) then e.setJlink k (some { j with fault := false }) else e) d

/-- The job that waits for a lane to leave LOWPOWER ends once every lane it names is in UP (R83). -/
def Dev.exitDone (d : Dev) (n : Nat) : Dev :=
  let l := d.lane n
  let d1 := d.setLane n { l with exitAt := none, exitJob := none }
  match l.exitJob with
  | none => d1
  | some j => if (List.range 80).any fun m => (d1.lane m).exitJob == some j then d1 else d1.endJob j .ok 0

/-- A receiver enters a state. Leaving UP faults the lane's links and discards its eye-scan point; reaching UP ends an exit
from LOWPOWER and realigns subclass 0 links (R53, R74, R76). -/
def Dev.laneMove (d : Dev) (n st : Nat) : Dev :=
  let was := d.laneSt n
  let d1 := (d.setF (LN_STAT n) LN_STAT_STATE st).setLane n { d.lane n with entered := d.now }
  if was = LST_UP ∧ st ≠ LST_UP then
    let d2 := (d1.jlinksOf n).foldl (fun (e : Dev) x => e.jesdFault x.1) d1
    (d2.setLane n { d2.lane n with lostAt := some d2.now }).setF (LN_EYE n) LN_EYE_EN 0
  else if was ≠ LST_UP ∧ st = LST_UP then
    (d1.setLane n { d1.lane n with lostAt := none }).jesdReturn n |>.exitDone n
  else d1

/-- A step of training from one state to the next. -/
def Dev.trainStep (d : Dev) (n from' to' : Nat) : Dev := if d.laneSt n = from' then d.laneMove n to' else d

/-- Meanings of the training events (R53). -/
def execSignalDetect (lane : Nat) (s : State) : Host.Outcome State Fault Refusal :=
  .next { s with dev := (s.dev.setLane lane { s.dev.lane lane with signal := true }).trainStep lane LST_DETECT LST_CDR }
def execCdrLock (lane : Nat) (s : State) : Host.Outcome State Fault Refusal :=
  .next { s with dev := s.dev.trainStep lane LST_CDR LST_ADAPT }
def execAdaptationSettled (lane : Nat) (s : State) : Host.Outcome State Fault Refusal := nextDev s ( if s.dev.laneSt lane = LST_ADAPT then
    (s.dev.setLane lane { s.dev.lane lane with adapted := true }).laneMove lane LST_FEC else s.dev)
def execFecLock (lane : Nat) (s : State) : Host.Outcome State Fault Refusal :=
  .next { s with dev := s.dev.trainStep lane LST_FEC LST_FRAME }

/-- FRAME_LOCK: four inverted patterns set RX_INV and POL_DET (R55). -/
def execFrameLock (lane : Nat) (inverted : Bool) (s : State) : Host.Outcome State Fault Refusal := nextDev s (
    if s.dev.laneSt lane = LST_FRAME then
      (if inverted then (s.dev.setF (LN_CTRL lane) LN_CTRL_RX_INV 1).setF (LN_STAT lane) LN_STAT_POL_DET 1 else s.dev).laneMove lane LST_IDENT
    else s.dev)

/-- The identity an ASL lane expects; other functions carry none (R63, R72). -/
def Dev.identOk (d : Dev) (n srcDev link : Nat) : Bool :=
  d.laneFunc n != 1 || (d.f (LN_ACC n) LN_ACC_EXP_DEV == srcDev && d.f (LN_ACC n) LN_ACC_EXP_LINK == link)

/-- IDENTIFY: a match leads to UP, a mismatch to MISWIRED (R53, R63). -/
def execIdentify (lane srcDev link : Nat) (s : State) : Host.Outcome State Fault Refusal := nextDev s (
    let d := s.dev
    if d.laneSt lane = LST_IDENT ∨ d.laneSt lane = LST_MISWIRED then
      (if d.identOk lane srcDev link then d.laneMove lane LST_UP
       else if d.laneSt lane = LST_MISWIRED then d else d.laneMove lane LST_MISWIRED)
    else d)

/-- A lane declared failed: reported as LANE_FAILED and marked in the spare map (R412). -/
def Dev.laneFailed (d : Dev) (n : Nat) : Dev :=
  let sp := d.ret.spare
  let d1 := { d with ret := { d.ret with spare := { sp with lanes := if sp.lanes.contains n then sp.lanes else sp.lanes ++ [n] } } }
  (d1.raise 0x0A08 n 0 0).wantCommit .spare none

/-- A receive lane declared failed is not used again until a LANE_SET names it (R412). -/
def Dev.rxFail (d : Dev) (n : Nat) : Dev :=
  if (d.lane n).rxFailed then d else (d.setLane n { d.lane n with rxFailed := true }).laneFailed n

/-- 60 s in nanoseconds. -/
def SIXTY_S : Nat := 60 * 10 ^ 9

/-- LANE_STATE_TIMEOUT (R53): back to CDR, counted in RETRAIN; eight within 60 s fail a lane that a run uses (R412). -/
def Dev.laneTimeout (d : Dev) (n : Nat) : Dev :=
  let st := d.laneSt n
  if st < LST_CDR ∨ st > LST_IDENT then d
  else
    let rs := (d.now :: (d.lane n).retrains).filter fun t => decide (d.now ≤ t + SIXTY_S)
    let d1 := ((d.laneMove n LST_CDR).cnt (LN_RETRAIN n) 1)
    let d2 := d1.setLane n { d1.lane n with retrains := rs.take 8 }
    if decide (rs.length ≥ 8) && d2.laneRxUsed n then d2.rxFail n else d2

/-- Meaning of LANE_STATE_TIMEOUT. -/
def execLaneStateTimeout (lane : Nat) (s : State) : Host.Outcome State Fault Refusal := .next { s with dev := s.dev.laneTimeout lane }

/-- LOSS_OF_LANE_LOCK (R54): kind 0 to CDR, 1 to FEC_LOCK, 2 to FRAME_LOCK. -/
def execLossOfLaneLock (lane kind : Nat) (s : State) : Host.Outcome State Fault Refusal :=
  .next { s with dev := s.dev.trainStep lane LST_UP (match kind with | 0 => LST_CDR | 1 => LST_FEC | _ => LST_FRAME) }

/-- LANE_FAIL_TIMEOUT (R412): out of UP for 10 s while the signal detector shows a signal. -/
def execLaneFailTimeout (lane : Nat) (s : State) : Host.Outcome State Fault Refusal := nextDev s (
    if s.dev.laneRxUsed lane && s.dev.laneSt lane != LST_UP && (s.dev.lane lane).signal then s.dev.rxFail lane else s.dev)

/-! Deep low power (R80, R81). -/

/-- The jobs that scan a lane. -/
def Dev.scanOf (d : Dev) (n : Nat) : Option Nat := (d.jobsOf 0x0304).find? fun i => (d.job i).params.getD 0 0 % 256 == n

/-- The scan of a lane ends PARTIAL with the points completed (R76). -/
def Dev.scanPartial (d : Dev) (n : Nat) : Dev :=
  match d.scanOf n with
  | some i => (d.setF (LN_EYE n) LN_EYE_EN 0).endJob i .partialDone (d.job i).tally
  | none => d

/-- The lane PLLs of a group turn off once every lane of the group is in LOWPOWER or OFF (R80). -/
def Dev.groupPlls (d : Dev) (g : Nat) : Dev :=
  if (List.range 8).all fun k => d.laneSt (8 * g + k) == LST_OFF || d.laneSt (8 * g + k) == LST_LOWPOWER then (d.setPll g 0 0).setPll g 1 0 else d

/-- A lane PLL set to a base rate that serves its lanes (R49). -/
def Dev.loadPll (d : Dev) (g sel : Nat) : Dev :=
  match pllFor (d.pllBase g sel) (d.pllLoad g sel []) with
  | some b => d.setPll g sel b
  | none => d

/-- A lane enters LOWPOWER: its receiver stops, its transmitter goes idle, and its scan ends (R76, R80). -/
def Dev.enterLow (d : Dev) (n : Nat) : Dev :=
  if d.laneSt n = LST_OFF ∨ d.laneSt n = LST_LOWPOWER then d
  else
    let d1 := (d.laneMove n LST_LOWPOWER).scanPartial n
    (d1.setLane n { d1.lane n with txIdle := true }).groupPlls (n / 8)

/-- LOWPOWER_ENTER: LN_CTRL.LP reads 1. -/
def execLowpowerEnter (lane : Nat) (s : State) : Host.Outcome State Fault Refusal :=
  .next { s with dev := if s.dev.on (LN_CTRL lane) LN_CTRL_LP then s.dev.enterLow lane else s.dev }

/-- A lane leaves LOWPOWER for DETECT, its adapted values restored and the PLLs of its group relocked (R81). -/
def Dev.exitLow (d : Dev) (n : Nat) (job : Option Nat) : Dev :=
  if d.laneSt n ≠ LST_LOWPOWER then d
  else
    let d1 := ((d.loadPll (n / 8) 0).loadPll (n / 8) 1).laneMove n LST_DETECT
    d1.setLane n { d1.lane n with txIdle := false, exitAt := some d1.now, exitJob := job }

/-- LOWPOWER_EXIT: LN_CTRL.LP reads 0. -/
def execLowpowerExit (lane : Nat) (s : State) : Host.Outcome State Fault Refusal :=
  .next { s with dev := if s.dev.on (LN_CTRL lane) LN_CTRL_LP then s.dev else s.dev.exitLow lane none }

/-- LP_EXIT_LATE (R81): the lane has not reached UP within 20 ms of its exit request and carries on under R53. -/
def execLpExitLate (lane : Nat) (s : State) : Host.Outcome State Fault Refusal := nextDev s (
    let l := s.dev.lane lane
    if l.exitAt.isSome ∧ s.dev.laneSt lane ≠ LST_UP then (s.dev.setLane lane { l with exitAt := none }).raise 0x0301 lane 0 0 else s.dev)

/-! ASL frame headers (Table 2.3). -/

/-- The frame sync word. -/
def ASL_SYNC : Nat := 0xB38E

/-- HCRC over bits [479:0] of a header. -/
def hcrcOf (h : Nat) : Nat := crc32c (leBytes 60 h)

/-- A header with its HCRC in place of bits [511:480]. -/
def sealHeader (h : Nat) : Nat := h % 2 ^ 480 + hcrcOf (h % 2 ^ 480) * 2 ^ 480

/-- The frame kinds of check 4 (Table 2.4). -/
def aslTypes : List Nat := [0, 1, 2, 3, 5]

/-- Bits of one sample of a RAW format, both parts counted. -/
def rawBits (fmt : Nat) : Nat := match rawFmt fmt with | some (b, true) => 2 * b | some (b, false) => b | none => 0

/-- R59 and the format comparisons of check 4 for SPECTRA and RAW frames. -/
def aslFormatOk (h : Nat) : Bool :=
  let fmt := bits h 147 144
  let ni := bits h 119 116
  let ns := bits h 143 140
  if bits h 19 16 = 1 then (fmt == 1 || fmt == 2) && ni ≥ 3 && 2 ^ (ni + bits h 139 136 + ns) * fmtW (fmt == 2) == 4096
  else (rawFmt fmt).isSome && ni ≥ 3 && 2 ^ (ni + ns) * rawBits fmt == 32768

/-- The track a frame belongs to looked up among tracks, most recently seen first: what its NUM counts (1 SPN_GAP, 2 SPN_REV,
0 nothing) and the tracks after it, at most 64 (R62). -/
def continuity (ts : List Track) (i0 ni c0 nc ns num : Nat) : Nat × List Track :=
  let same := fun (t : Track) => t.i0 == i0 && t.logNi == ni && t.c0 == c0 && t.logNc == nc
  let t : Track := { i0 := i0, logNi := ni, c0 := c0, logNc := nc, num := num }
  let k := match ts.find? same with
    | some o => let q := serialDiff num ((o.num + 2 ^ ns) % 2 ^ 48) 48; if q > 0 then 1 else if q < 0 then 2 else 0
    | none => 0
  (k, (t :: ts.filter fun o => !same o).take 64)

/-- A range of inputs and channels lies in the window of a lane (check 6). -/
def Dev.inWindow (d : Dev) (n i0 ni c0 nc : Nat) : Bool :=
  decide (d.f (LN_WIN n) LN_WIN_IN_LO ≤ i0 ∧ i0 + 2 ^ ni - 1 ≤ d.f (LN_WIN n) LN_WIN_IN_HI ∧
    d.f (LN_WIN n) LN_WIN_CH_LO ≤ c0 ∧ c0 + 2 ^ nc - 1 ≤ d.f (LN_WIN n) LN_WIN_CH_HI)

/-! The bulk class (R64 to R66). -/

/-- The bulk state of a link. -/
def Dev.bulkOf (d : Dev) (k : Nat) : Bulk := tget (fun _ => {}) d.bulk k

/-- The device with the bulk state of a link replaced. -/
def Dev.setBulk (d : Dev) (k : Nat) (b : Bulk) : Dev := { d with bulk := tset (fun _ => {}) d.bulk k b }

/-- The link of a lane. -/
def Dev.linkOf (d : Dev) (n : Nat) : Nat := d.f (LN_ACC n) LN_ACC_EXP_LINK

/-- A frame past check 3 on a link: a bulk frame is counted, the far end's grant is taken, and at the first one after an audit
point lost credits are restored and counted (R65, R66). -/
def Dev.bulkSeen (d : Dev) (n h : Nat) : Dev :=
  if d.on (LN_CTRL n) LN_CTRL_SPLIT then d
  else
    let k := d.linkOf n
    let b := d.bulkOf k
    let b1 := { b with rx := (b.rx + (if bits h 19 16 = 3 then 1 else 0)) % 2 ^ 32, credit := bits h 191 160 }
    if !b1.audit then d.setBulk k b1
    else
      let sent := bits h 223 192
      let diff := (sent + 2 ^ 32 - b1.rx) % 2 ^ 32
      let d1 := d.setBulk k { b1 with rx := sent, grant := (b1.grant + diff) % 2 ^ 32, audit := false }
      if diff = 0 then d1 else (d1.cnt (LN_BULK_LOST n) diff).raise 0x0303 n 0 diff

/-- A bulk frame past its checks is handed to its consumer, and its buffer is granted again (R65). -/
def Dev.bulkTaken (d : Dev) (n h : Nat) (payload : List Nat) : Dev :=
  let k := d.linkOf n
  let b := d.bulkOf k
  (d.setBulk k { b with grant := (b.grant + 1) % 2 ^ 32 }).emit .bulk k (bits h 239 224 :: payload)

/-- An audit point is set on every link that serves ASL lanes (R66). -/
def Dev.bulkAudit (d : Dev) : Dev :=
  (List.range 80).foldl
    (fun (e : Dev) n => if e.laneFunc n = 1 then e.setBulk (e.linkOf n) { e.bulkOf (e.linkOf n) with audit := true } else e) d

/-- BULK_AUDIT_POINT (R66). -/
def execBulkAuditPoint (s : State) : Host.Outcome State Fault Refusal := nextDev s s.dev.bulkAudit

/-- Lanes that send for a link. -/
def Dev.txLanes (d : Dev) (link : Nat) : List Nat :=
  (List.range 80).filter fun n => d.laneTxGood n && d.linkOf n == link && !d.on (LN_CTRL n) LN_CTRL_SPLIT

/-- Bulk frames of a link that wait in its lanes. -/
def Dev.bulkWaiting (d : Dev) (link : Nat) : Nat :=
  ((List.range 80).map fun n => ((d.lane n).txq.countP fun f => f.type == 3 && f.link == link)).sum

/-- BULK_FRAME_SEND (R65): a bulk frame of a channel joins those that wait; the oldest is sent while credit is left. -/
def Dev.bulkSend (d : Dev) (link ch : Nat) (payload : List Nat) : Dev :=
  let b := d.bulkOf link
  let q := b.queue ++ [(ch, padTo 4096 payload)]
  let free := serialDiff b.credit ((b.sent + d.bulkWaiting link) % 2 ^ 32) 32
  match decide (free > 0), d.txLanes link, q with
  | true, n :: _, (c, p) :: rest =>
    let l := d.lane n
    (d.setBulk link { b with queue := rest }).setLane n { l with txq := l.txq ++ [{ type := 3, link := link, bulkCh := c, payload := p }] }
  | _, _, _ => d.setBulk link { b with queue := q }

/-- Meaning of BULK_FRAME_SEND. -/
def execBulkFrameSend (link ch : Nat) (payload : List Nat) (s : State) : Host.Outcome State Fault Refusal :=
  .next { s with dev := s.dev.bulkSend link ch payload }

/-! Frames received (R61 to R63). -/

/-- Alignment's counters for a frame (Table 2.10). -/
def Dev.alignCounts (d : Dev) (n : Nat) (r : AlignRes) : Dev :=
  let d1 := if r.dup then d.cnt (LN_DUP n) 1 else d
  let d2 := if r.late then d1.cnt (LN_LATE n) 1 else d1
  if r.early then d2.cnt (LN_EARLY n) 1 else d2

/-- A SPECTRA or RAW frame that passed check 5: range, continuity, ORDER and delivery (checks 6 and 7, R63). -/
def Dev.sampleFrame (d : Dev) (n h : Nat) (payload : List Nat) : Dev :=
  let num := bits h 71 24
  let i0 := bits h 115 104
  let ni := bits h 119 116
  let c0 := bits h 135 120
  let nc := bits h 139 136
  let ns := bits h 143 140
  if !d.inWindow n i0 ni c0 nc then d.cnt (LN_ID_RANGE n) 1
  else
    let l := d.lane n
    let t := continuity l.tracks i0 ni c0 nc ns num
    let d1 := (d.setLane n { l with tracks := t.2 }).cnt (LN_FRAMES_OK n) 1
    let d2 := match t.1 with | 1 => d1.cnt (LN_SPN_GAP n) 1 | 2 => d1.cnt (LN_SPN_REV n) 1 | _ => d1
    if bits h 19 16 = 2 then d2.placeRaw (bit h 148) (bits h 103 96) num i0 ni ns (bits h 147 144) payload
    else
      let r := d2.align (bit h 148) num i0 ni c0 nc (payloadCodes (bits h 147 144 == 2) payload)
      r.1.alignCounts n r.2

/-- A frame that passed check 3 goes through checks 4 to 7 (Table 2.5). -/
def Dev.frameBody (d : Dev) (n h : Nat) (payload : List Nat) : Dev :=
  let ty := bits h 19 16
  if ty = 0xE then d
  else
    let d0 := ((d.setF (LN_STAT n) LN_STAT_SRC_LANE (bits h 95 88)).setF (LN_STAT n) LN_STAT_LINK (bits h 103 96)).bulkSeen n h
    let sample := ty == 1 || ty == 2
    if !aslTypes.contains ty || bits h 23 20 != 1 || (sample && (!aslFormatOk h || bits h 147 144 != d.f (LN_ACC n) LN_ACC_EXP_FMT)) then
      d0.cnt (LN_FMT_ERR n) 1
    else if !d.identOk n (bits h 87 72) (bits h 103 96) then d0.cnt (LN_SRC_ERR n) 1
    else
      let d1 := if sample then d0.sampleFrame n h payload
        else if ty = 3 then d0.bulkTaken n h payload
        else if ty = 5 then d0.trigReceived 4 (payload.take 64)
        else d0
      let refused := sample && !d.inWindow n (bits h 115 104) (bits h 119 116) (bits h 135 120) (bits h 139 136)
      if bits h 95 88 ≠ d.f (LN_ACC n) LN_ACC_EXP_SRC_LANE ∧ !refused then d1.setF (LN_STAT n) LN_STAT_ORDER 1 else d1

/-- The check of 1 to 3 that a frame fails, 0 when it passes. The payload check of a PARITY frame uses the XOR of the data
frames' PCRCs, which is the CRC of the XOR of their payloads up to the CRC of zeros when their number is even (Table 2.6). -/
def frameCheck (fecUncorr h : Nat) (payload : List Nat) : Nat :=
  if fecUncorr > 0 then 1
  else if bits h 15 0 ≠ ASL_SYNC ∨ h / 2 ^ 480 % 2 ^ 32 ≠ hcrcOf h then 2
  else if bits h 19 16 = 0xE then
    let z := if bits h 39 36 % 2 = 0 then crc32c (List.replicate 4096 0) else 0
    if bits h 311 280 ≠ (crc32c payload ^^^ z) then 3 else 0
  else if bits h 287 256 ≠ crc32c payload then 3
  else 0

/-- A frame dropped at check 2 or 3 is counted; uncorrectable codewords were counted when they arrived. -/
def Dev.dropFrame (d : Dev) (n check : Nat) : Dev :=
  match check with | 2 => d.cnt (LN_HDR_ERR n) 1 | 3 => d.cnt (LN_PCRC_ERR n) 1 | _ => d

/-- The receive group of a lane. -/
def Dev.rxGroup (d : Dev) (n : Nat) : Option LGroup := d.lgroups.find? fun g => !g.tx && (g.data.contains n || g.parity == n)

/-- The device with a receive group replaced. -/
def Dev.setRxGroup (d : Dev) (g : LGroup) : Dev :=
  { d with lgroups := d.lgroups.map fun x => if !x.tx && x.id == g.id then g else x }

/-- XOR of a list of numbers, and of lists of bytes. -/
def xorAll (xs : List Nat) : Nat := xs.foldl (· ^^^ ·) 0
def xorBytes (xs : List (List Nat)) : List Nat :=
  xs.foldl (fun a b => if a.isEmpty then b else (a.zip b).map fun x => x.1 ^^^ x.2) []

/-- The frame rebuilt from the other frames of its slot and the parity frame (R68). -/
def rebuilt (parity : SlotFrame) (others : List SlotFrame) : Nat × List Nat :=
  let body := xorAll (bits parity.header 311 40 :: others.map fun f => bits f.header 287 16)
  let hc := xorAll (bits parity.header 343 312 :: others.map fun f => bits f.header 511 480)
  (ASL_SYNC + body * 2 ^ 16 + hc * 2 ^ 480, xorBytes (parity.payload :: others.map fun f => f.payload))

/-- The lanes of a group. -/
def LGroup.lanes (g : LGroup) : List Nat := g.data ++ [g.parity]

/-- A slot of a group is settled: every lane that is in UP has delivered its frame. A single failed or lost data frame is
rebuilt and goes through checks 2 to 7; two or more are dropped and counted (R61, R68). -/
def Dev.settleSlot (d : Dev) (g : LGroup) (slot : Nat) : Dev :=
  let fs := g.slots.filter fun f => f.slot == slot
  let got := fun n => fs.any fun f => f.lane == n
  if !(g.lanes.all fun n => got n || d.laneSt n != LST_UP) then d
  else
    let bad := fs.filter fun f => f.check ≠ 0
    let lost := g.lanes.filter fun n => !got n
    let d1 := (d.setRxGroup { g with slots := g.slots.filter fun f => f.slot != slot })
    let d2 := g.lanes.foldl (fun (e : Dev) n => e.setF (LN_STAT n) LN_STAT_REBUILDING 1) d1
    let par := fs.find? fun f => f.check == 0 && bits f.header 19 16 == 0xE
    let good := fs.filter fun f => f.check == 0 && bits f.header 19 16 != 0xE
    match bad.map (·.lane) ++ lost, par with
    | [n], some p =>
      if n = g.parity then d2
      else
        let r := rebuilt p good
        match frameCheck 0 r.1 r.2 with
        | 0 => (d2.cnt (LN_REBUILT n) 1).frameBody n r.1 r.2
        | k => d2.dropFrame n k
    | _, _ => bad.foldl (fun (e : Dev) f => e.dropFrame f.lane f.check) d2

/-- A group whose lanes have drifted apart by more than 3 frame periods stops rebuilding (R68). -/
def Dev.skewed (d : Dev) (g : LGroup) : Dev :=
  let d1 := (g.slots.filter fun f => f.check ≠ 0).foldl (fun (e : Dev) f => e.dropFrame f.lane f.check) d
  let d2 := d1.setRxGroup { g with slots := [], skew := true }
  g.lanes.foldl (fun (e : Dev) n => e.setF (LN_STAT n) LN_STAT_REBUILDING 0) d2

/-- ASL_FRAME_RECEIVED (R61): a frame in its slot on a lane in UP, with the FEC symbols corrected and the uncorrectable codewords
that overlap it. -/
def Dev.aslReceived (d : Dev) (n slot fecCorr fecUncorr h : Nat) (payload : List Nat) : Dev :=
  if d.laneSt n ≠ LST_UP ∨ d.laneFunc n ≠ 1 ∨ (d.lane n).rxFailed then d
  else
    let d1 := (if fecCorr = 0 then d else d.cnt (LN_FEC_CORR n) fecCorr)
    let d2 := if fecUncorr = 0 then d1 else d1.cnt (LN_FEC_UNCORR n) fecUncorr
    let k := frameCheck fecUncorr h payload
    let d3 := if k = 0 then d2.frameBody n h payload else d2
    match d3.rxGroup n with
    | none => d3.dropFrame n k
    | some g =>
      if g.skew then d3.dropFrame n k
      else
        let f : SlotFrame := { slot := slot, pos := bits h 155 152, lane := n, check := k, header := h, payload := payload }
        let g1 := { g with slots := g.slots ++ [f], newest := max g.newest slot }
        let d4 := d3.setRxGroup g1
        if g1.slots.any fun x => decide (x.slot + 3 < g1.newest) then d4.skewed g1 else d4.settleSlot g1 slot

/-- Meaning of ASL_FRAME_RECEIVED. -/
def execAslFrameReceived (lane slot fecCorr fecUncorr header : Nat) (payload : List Nat) (s : State) : Host.Outcome State Fault Refusal :=
  .next { s with dev := s.dev.aslReceived lane slot fecCorr fecUncorr header payload }

/-! Frames sent (R57, R58, R64, R67, R69). -/

/-- The header of a frame that a lane sends (Table 2.3). -/
def Dev.aslHeader (d : Dev) (n gpos : Nat) (f : TxFrame) (link : Nat) : Nat :=
  let split := d.on (LN_CTRL n) LN_CTRL_SPLIT
  let b := d.bulkOf link
  sealHeader (ASL_SYNC + f.type * 2 ^ 16 + 2 ^ 20 + f.num % 2 ^ 48 * 2 ^ 24 + d.srcDev % 2 ^ 16 * 2 ^ 72 + n * 2 ^ 88 + link * 2 ^ 96 +
    f.i0 * 2 ^ 104 + f.logNi * 2 ^ 116 + f.c0 * 2 ^ 120 + f.logNc * 2 ^ 136 + f.logNs * 2 ^ 140 + f.fmt * 2 ^ 144 + b2n f.missing * 2 ^ 148 +
    gpos * 2 ^ 152 + (if split then 0 else b.grant) * 2 ^ 160 + b.sent * 2 ^ 192 + f.bulkCh * 2 ^ 224 + crc32c f.payload * 2 ^ 256)

/-- The next frame of a lane: the oldest that waits, or IDLE; a twin that may not send puts IDLE in the place of what
waits (R417, R423). -/
def Dev.nextFrame (d : Dev) (n : Nat) : TxFrame × Dev :=
  match (d.lane n).txq with
  | f :: rest =>
    (if d.aslGated then { type := 0, link := d.linkOf n, payload := List.replicate 4096 0 } else f,
     d.setLane n { d.lane n with txq := rest })
  | [] => ({ type := 0, link := d.linkOf n, payload := List.replicate 4096 0 }, d)

/-- A frame of a lane put on a transmitter, with the error forms armed there (R79): its header and payload, and the device. The
frame is given out as header, payload and the FEC symbols in error. -/
def Dev.putFrame (d : Dev) (n gpos : Nat) (f : TxFrame) : (Nat × List Nat) × Dev :=
  let link := if f.type = 0 then d.linkOf n else f.link
  let b := d.bulkOf link
  let d0 := if f.type = 3 then d.setBulk link { b with sent := (b.sent + 1) % 2 ^ 32 } else d
  let h := d0.aslHeader n gpos f link
  let l := d0.lane n
  let h1 := match l.inj with
    | 3 => h ^^^ 2 ^ 480
    | 4 => sealHeader (h ^^^ 2 ^ 256)
    | _ => h
  let syms := if l.inj = 2 then l.injSyms else 0
  let d1 := if l.inj ≥ 2 then d0.setLane n { l with inj := 0, injSyms := 0 } else d0
  ((h1, f.payload), d1.emit .frame n (leBytes 64 h1 ++ f.payload ++ [syms]))

/-- A transmitter runs frames: an ASL lane on, not idle, its pattern generator off. -/
def Dev.sends (d : Dev) (n : Nat) : Bool :=
  d.laneFunc n == 1 && d.on (LN_CTRL n) LN_CTRL_TX_EN && !(d.lane n).txIdle && !(d.lane n).txFailed && !d.on (LN_PRBS n) LN_PRBS_GEN_EN

/-- The PARITY frame of a slot (Table 2.6). -/
def parityFrame (id : Nat) (fs : List (Nat × List Nat)) : Nat × List Nat :=
  (sealHeader (ASL_SYNC + 0xE * 2 ^ 16 + 2 ^ 20 + id % 2 ^ 12 * 2 ^ 24 + fs.length * 2 ^ 36 + xorAll (fs.map fun f => bits f.1 287 16) * 2 ^ 40 +
    xorAll (fs.map fun f => bits f.1 511 480) * 2 ^ 312), xorBytes (fs.map fun f => f.2))

/-- A frame slot of a protected group: its data lanes and the parity lane start at the same instant; once a lane has moved, the
parity lane carries that lane's frames (R67, R69). -/
def Dev.groupSlot (d : Dev) (g : LGroup) : Dev :=
  let r := g.data.zipIdx.foldl
    (fun (acc : List (Nat × List Nat) × Dev) x =>
      let q := acc.2.nextFrame x.1
      let lane := if g.moved = some x.2 then g.parity else x.1
      if !acc.2.sends lane then acc
      else
        let p := q.2.putFrame lane x.2 q.1
        (acc.1 ++ [p.1], p.2)) ([], d)
  if g.moved.isSome || !r.2.sends g.parity || r.1.length ≠ g.data.length then r.2
  else
    let p := parityFrame g.id r.1
    r.2.emit .frame g.parity (leBytes 64 p.1 ++ p.2 ++ [0])

/-- ASL_FRAME_SLOT (R57): a frame slot of a transmit lane, or of its whole group. -/
def Dev.frameSlot (d : Dev) (n : Nat) : Dev :=
  let d0 := { d with aslSlots := d.aslSlots + 1 }
  match d0.lgroups.find? fun g => g.tx && g.lanes.contains n with
  | some g => d0.groupSlot g
  | none => if !d0.sends n then d0 else let q := d0.nextFrame n; (q.2.putFrame n 0xF q.1).2

/-- Meaning of ASL_FRAME_SLOT. -/
def execAslFrameSlot (lane : Nat) (s : State) : Host.Outcome State Fault Refusal := .next { s with dev := s.dev.frameSlot lane }

/-- The device with a transmit group replaced. -/
def Dev.setTxGroup (d : Dev) (g : LGroup) : Dev :=
  { d with lgroups := d.lgroups.map fun x => if x.tx && x.id == g.id then g else x }

/-- A data lane's traffic moves to the parity lane: the failed transmitter goes to electrical idle (R69, R413). -/
def Dev.tuckLane (d : Dev) (g : LGroup) (pos : Nat) : Dev :=
  let n := g.data.getD pos 80
  let d1 := d.setTxGroup { g with tuck := none, moved := some pos }
  let sp := d1.ret.spare
  let d2 := { d1 with ret := { d1.ret with spare := { sp with lanes := if sp.lanes.contains n then sp.lanes else sp.lanes ++ [n] } } }
  let low := !(d2.lgroups.any fun x => x.tx && x.moved.isNone)
  (d2.setLane n { d2.lane n with txIdle := true }).tuckpointed n low

/-- LANE_TUCKPOINT (R69): the first frame whose NUM is at or after the SPN named. -/
def execLaneTuckpoint (group num : Nat) (s : State) : Host.Outcome State Fault Refusal := nextDev s (
    match s.dev.lgroups.find? fun g => g.tx && g.id == group with
    | some g =>
      match g.tuck with
      | some (pos, spn) => if earlier num spn 48 then s.dev else s.dev.tuckLane g pos
      | none => s.dev
    | none => s.dev)

/-- TX_MONITOR_FAIL (R412): the lane is tuckpointed in a protected group, and otherwise reported failed. -/
def execTxMonitorFail (lane : Nat) (s : State) : Host.Outcome State Fault Refusal := nextDev s (
    let d := s.dev.setLane lane { s.dev.lane lane with txFailed := true }
    match d.lgroups.find? fun g => g.tx && g.moved.isNone && g.data.contains lane with
    | some g => d.tuckLane g (g.data.idxOf lane)
    | none => d.laneFailed lane)

/-! JESD204C (R70 to R74). -/

/-- Inputs of the front that a converter of a link feeds. -/
def Dev.jesdInputs (d : Dev) (link conv : Nat) : List (Nat × FInput) :=
  d.frSources fun x => x.kind == 1 && x.srcId == link + 256 * conv

/-- A sample of a multiblock placed on the inputs of its converter: a failed CRC, a faulted link or a missing partner of a complex pair
makes it missing (R71, R74). -/
def Dev.jesdPlace (d : Dev) (k : Nat) (j : Jesd) (crcOk cplx : Bool) (xs : List (Nat × Nat × Nat × Nat)) (x : Nat × Nat × Nat × Nat) : Dev :=
  (d.jesdInputs k x.1).foldl
    (fun (e : Dev) (i, f) =>
      let q := xs.find? fun y => y.1 == x.1 + 1 && y.2.1 == x.2.1
      if !crcOk || j.fault || (cplx && q.isNone) then e.missSample i x.2.1
      else
        let ovf := fun (y : Nat × Nat × Nat × Nat) => decide (j.cs ≥ 1) && bit y.2.2.2 (j.cs - 1)
        let im := if cplx then sext j.n ((q.map fun y => y.2.2.1).getD 0) else 0
        e.placeSample i f x.2.1 (sext j.n x.2.2.1) im (ovf x || (cplx && q.any ovf))) d

/-- JESD_MULTIBLOCK_RECEIVED (R71): samples as converter, SN, N-bit value and control bits. A failed CRC is counted and its samples
are missing; an unaligned link of subclass 1 delivers nothing; a faulted link's samples are missing. -/
def Dev.multiblock (d : Dev) (k n : Nat) (crcOk : Bool) (xs : List (Nat × Nat × Nat × Nat)) : Dev :=
  match d.jlink k with
  | none => d
  | some j =>
    if !j.lanes.contains n || d.laneSt n != LST_UP then d
    else
      let d0 := if crcOk then d else d.cnt (LN_JESD_CRC n) 1
      let j1 := if j.subclass = 0 ∧ crcOk then { j with aligned := true } else j
      let d1 := d0.setJlink k (some j1)
      if !j1.aligned then d1 else xs.foldl (fun (e : Dev) x => e.jesdPlace k j1 crcOk (d.on FR_CTRL FR_CTRL_CPLX) xs x) d1

/-- Meaning of JESD_MULTIBLOCK_RECEIVED. -/
def execJesdMultiblockReceived (link lane : Nat) (crcOk : Bool) (samples : List (Nat × Nat × Nat × Nat)) (s : State) :
    Host.Outcome State Fault Refusal := .next { s with dev := s.dev.multiblock link lane crcOk samples }

/-- The period of an extended multiblock in unit intervals: E multiblocks of 32 blocks of 66 bits (R70). -/
def Jesd.period (j : Jesd) : Nat := 66 * 32 * max j.e 1

/-- A SYSREF edge at a link (R73): one too short, or less than one extended-multiblock period after the last accepted edge, is ignored
and counted; the first accepted after arming aligns the link; a later one is compared, and realigns in continuous mode. -/
def Dev.sysrefEdge (d : Dev) (k cycles since : Nat) : Dev :=
  match d.jlink k with
  | none => d
  | some j =>
    let ph := (j.phase + since) % j.period
    if j.subclass = 0 then d
    else if cycles < 2 ∨ (j.lastEdge.isSome ∧ since < j.period) then j.lanes.foldl (fun (e : Dev) n => e.cnt (LN_SYSREF_IGN n) 1) d
    else if j.armed.isSome then
      let d1 := d.setJlink k (some { j with armed := none, armJob := none, lastEdge := some d.now, aligned := true, phase := 0,
                                            misalign := false, fault := false })
      match j.armJob with | some i => d1.endJob i .ok 0 | none => d1
    else if !j.aligned then d
    else if j.fault then d.setJlink k (some { j with lastEdge := some d.now, phase := 0, fault := false })
    else if ph = 0 ∨ j.cont then d.setJlink k (some { j with lastEdge := some d.now, phase := 0 })
    else d.setJlink k (some { j with lastEdge := some d.now, phase := ph, misalign := true })

/-- SYSREF_EDGE (R73): the width of the pulse in device-clock cycles, and the unit intervals of the link since its last accepted
edge. -/
def execSysrefEdge (link cycles since : Nat) (s : State) : Host.Outcome State Fault Refusal :=
  .next { s with dev := s.dev.sysrefEdge link cycles since }

/-- SYSREF_TIMEOUT (R73): the link stays unaligned, and its job ends TIMEOUT. -/
def execSysrefTimeout (link : Nat) (s : State) : Host.Outcome State Fault Refusal := nextDev s (
    match s.dev.jlink link with
    | some j =>
      if j.armed.isNone then s.dev
      else
        let d := (s.dev.setJlink link (some { j with armed := none, armJob := none })).raise 0x0302 (j.lanes.headD 0xFF) 0 link
        match j.armJob with | some i => d.endJob i .timeout 0 | none => d
    | none => s.dev)

/-- JESD_LINK_FAULT (R74): a device-clock failure or an elastic buffer fault. -/
def execJesdLinkFault (link : Nat) (s : State) : Host.Outcome State Fault Refusal := .next { s with dev := s.dev.jesdFault link }

/-! Eye scan (R75, R76, R84, R85). -/

/-- The points of a scan in order: vertical ascending, within each horizontal ascending (R85). -/
def scanPoints (ps : List Nat) : List (Int × Int) :=
  let w1 := ps.getD 1 0
  let w2 := ps.getD 2 0
  let axis := fun (lo hi : Int) (st : Nat) => (List.range (((hi - lo) / (st : Int)).toNat + 1)).map fun k => lo + (k * st : Nat)
  let hs := axis (sext 8 w1) (sext 8 (w1 / 256)) (bits w1 23 16)
  let vs := axis (sext 8 w2) (sext 8 (w2 / 256)) (bits w2 23 16)
  vs.flatMap fun v => hs.map fun h => (h, v)

/-- EYE_POINT_START (R75): the next point of the lane's scan is programmed, or the point that LN_EYE holds starts. -/
def Dev.eyeStart (d : Dev) (n : Nat) : Dev :=
  if d.laneSt n ≠ LST_UP then d
  else
    let run := fun (e : Dev) => ((e.setF (LN_EYE n) LN_EYE_DONE 0).wrN (LN_EYE_ERR n) 0).wrN (LN_EYE_UI n) 0
    match d.scanOf n with
    | some i =>
      let ps := (d.job i).params
      match (scanPoints ps)[(d.job i).tally]? with
      | some (h, v) =>
        run (((((d.setF (LN_EYE n) LN_EYE_EN 1).setF (LN_EYE n) LN_EYE_EYE (bits (ps.getD 0 0) 9 8)).setF (LN_EYE n) LN_EYE_H_OFF (wrapN 7 h)).setF
          (LN_EYE n) LN_EYE_V_OFF (wrapN 8 v)).setF (LN_EYE n) LN_EYE_DWELL (bits (ps.getD 0 0) 19 16))
      | none => d
    | none => if d.on (LN_EYE n) LN_EYE_EN then run d else d

/-- Meaning of EYE_POINT_START. -/
def execEyePointStart (lane : Nat) (s : State) : Host.Outcome State Fault Refusal := .next { s with dev := s.dev.eyeStart lane }

/-- EYE_POINT_DONE (R85): a point's counts are written, and the scan moves on or ends; COUNT is in points (example of chapter 12). -/
def eyeDone (n errs ui : Nat) (s : State) : State :=
  let d := s.dev
  if !d.on (LN_EYE n) LN_EYE_EN || d.laneSt n != LST_UP then s
  else
    let d1 := (((d.wrN (LN_EYE_ERR n) errs).wrN (LN_EYE_UI n) ui).setF (LN_EYE n) LN_EYE_DONE 1).setF (LN_EYE n) LN_EYE_EN 0
    match d1.scanOf n with
    | none => { s with dev := d1 }
    | some i =>
      let j := d1.job i
      let k := j.tally
      let mem := match j.area with
        | some a => s.mem.wr (d1.areaAddr a + 16 * k) (leBytes 8 errs ++ leBytes 8 ui)
        | none => s.mem
      let d2 := d1.setJob i { j with tally := k + 1, bytes := 16 * (k + 1) }
      { s with mem := mem,
               dev := if k + 1 ≥ (scanPoints j.params).length then d2.endJob i .ok (k + 1)
                 else d2.jobProgress i (k + 1) ((k + 1) * 1000 / (scanPoints j.params).length) }

/-- Meaning of EYE_POINT_DONE. -/
def execEyePointDone (lane errs ui : Nat) (s : State) : Host.Outcome State Fault Refusal := .next (eyeDone lane errs ui s)

/-- EYE_SCAN_WAIT_TIMEOUT (R76): the lane is not back in UP within 1 s. -/
def execEyeScanWaitTimeout (lane : Nat) (s : State) : Host.Outcome State Fault Refusal :=
  .next { s with dev := if s.dev.laneSt lane = LST_UP then s.dev else s.dev.scanPartial lane }

/-! Patterns and error injection (R77 to R79, R82). -/

/-- CHECKER_LOCK (R77): an unlocked checker locks; a locked one counts compared bits and errors, and unlocks after 64 errors within
1,024 bits. -/
def execCheckerLock (lane bits errs : Nat) (s : State) : Host.Outcome State Fault Refusal := nextDev s (
    let d := s.dev
    if !d.on (LN_PRBS lane) LN_PRBS_CHK_EN then d
    else if !d.on (LN_PRBS lane) LN_PRBS_CHK_LOCK then d.setF (LN_PRBS lane) LN_PRBS_CHK_LOCK 1
    else
      let d1 := (d.cnt (LN_PRBS_BITS lane) bits).cnt (LN_PRBS_ERR lane) errs
      if errs ≥ 64 ∧ bits ≤ 1024 then d1.setF (LN_PRBS lane) LN_PRBS_CHK_LOCK 0 else d1)

/-- A wrong bit of the pattern that a lane sends. -/
def Dev.bitError (d : Dev) (n : Nat) : Dev := d.emit .frame n []

/-- INJ_GO (R79): injection starts; once sends one wrong bit, periodic goes on with PERIODIC_INJECTION. -/
def Dev.injGo (d : Dev) (n : Nat) : Dev :=
  let d1 := d.setF (LN_PRBS n) LN_PRBS_INJ_GO 0
  match d.f (LN_PRBS n) LN_PRBS_INJ_MODE with
  | 1 => if d.on (LN_PRBS n) LN_PRBS_GEN_EN then d1.bitError n else d1
  | 2 => d1.setLane n { d1.lane n with inj := 1 }
  | _ => d1

/-- Meaning of INJ_GO. -/
def execInjGo (lane : Nat) (s : State) : Host.Outcome State Fault Refusal := .next { s with dev := s.dev.injGo lane }

/-- PERIODIC_INJECTION (R79). -/
def execPeriodicInjection (lane : Nat) (s : State) : Host.Outcome State Fault Refusal := nextDev s (
    if (s.dev.lane lane).inj = 1 ∧ s.dev.f (LN_PRBS lane) LN_PRBS_INJ_MODE = 2 ∧ s.dev.on (LN_PRBS lane) LN_PRBS_GEN_EN then s.dev.bitError lane else s.dev)

/-- Counters of a lane (Table 2.10). -/
def laneCounters (n : Nat) : List Nat :=
  [LN_FRAMES_OK n, LN_FEC_CORR n, LN_FEC_UNCORR n, LN_HDR_ERR n, LN_PCRC_ERR n, LN_FMT_ERR n, LN_SRC_ERR n, LN_ID_RANGE n, LN_SPN_GAP n,
   LN_SPN_REV n, LN_DUP n, LN_LATE n, LN_EARLY n, LN_REBUILT n, LN_BULK_LOST n, LN_RETRAIN n, LN_JESD_CRC n, LN_SYSREF_IGN n]

/-- CNT_CLR (R82): every counter of the lane is cleared. -/
def execCntClr (lane : Nat) (s : State) : Host.Outcome State Fault Refusal := .next { s with dev := s.dev.clearRegs (laneCounters lane) }

end Sys2Proof.Machine
end

