-- ==== Sys2Proof/Machine/Batch.lean ====
section
/-!
DEFINITION. The close of a batch and the start of a run (01_sample_path R28 to R37, R48; 04_tiles R137 to R150;
05_accumulation R157, R158, R170 to R181; 06_beams R186, R202, R205; 07_memories R213, R224).
-/
namespace Sys2Proof.Machine

/-! BATCH_CLOSE. -/

/-- Peeks whose barrier lies in the batch that begins staging note the counters of cut courses and held cycles, whose
growth their results report (R173). -/
def Dev.peekBase (d : Dev) (b : Nat) : Dev :=
  { d with run := { d.run with peeks := d.run.peeks.map fun k =>
      if (d.run.peekPlace k).1 = b then { k with stall0 := d.rdN XC_MQ_STALL, cut0 := d.rdN XC_COURSES_CUT } else k } }

/-- The run ends at the batch boundary it was told to (R158, R171): capture freezes and the firmware state goes back. -/
def Dev.endRun (d : Dev) (b : Nat) : Dev :=
  let d1 := ((({ d with run := { d.run with active := false } } : Dev).missBeyond b).setF XC_CTRL XC_CTRL_EN 0).capStop
  if d1.fwState = FW_RUN then d1.setFw (if d1.pwr.degraded then FW_DEGRADED else FW_READY) else d1.syncLease

/-- Batch b closes and its staging starts (R29, R34, R37): its integration is opened and marked HOLDOVER (Table 5.6), the
audit of the batch before ends, a requested bond-table swap takes place, and the audit of this batch is chosen. -/
def Dev.openBatch (d : Dev) (b : Nat) (selftest : Bool) : Dev :=
  let r := d.run.openInteg b
  let ho := d.inHoldover
  let r1 := { r with integs := r.integs.map fun i => if i.start ≤ b ∧ b < i.stop then { i with holdover := i.holdover || ho } else i }
  let d1 := ((((({ d with run := r1 } : Dev).peekBase b).auditEnd).btSwapApply).auditSelect b selftest).bulkAudit
  let r2 := { d1.run with layout := tset (fun _ => []) d1.run.layout b d1.layoutNow, closed := b + 1, staged := 0,
                          dispatched := 0, lateNoted := false }
  ({ d1 with run := r2 } : Dev).setF XC_POS XC_POS_BATCH b

/-- BATCH_CLOSE (R29, R35): once E(t) has reached the end of the arrival window, the batch before is cut off, and either the
run ends at this boundary or the next batch closes. -/
def batchClose (selftest : Bool) (s : State) : State :=
  let d := s.dev
  let p := d.run.par
  let b := d.run.closed
  if !d.run.active || d.run.inSlot.isSome || decide (d.expSpn < p.s0 + (b + 1) * p.t + p.w) then s
  else if d.run.stopAt == some b then
    { s with dev := d.cutOff.endRun b }
  else capBatch b { s with dev := d.cutOff.openBatch b selftest }

/-- Meaning of BATCH_CLOSE; `selftest` is the result of the self-test of R149 where a repeat audit needs one. -/
def execBatchClose (selftest : Bool) (s : State) : Host.Outcome State Fault Refusal := .next (batchClose selftest s)

/-! RUN_START (Table 5.11). -/

/-- The parameters a command gives, with k and c still to be planned. -/
def runPar (c : Cmd) : RunPar :=
  { n := c.b 0 12 0, c8 := bit (c.p 0) 13, nch := c.b 1 16 0, chBase := c.b 2 15 0, t := (c.b 3 7 0 + 1) * 256,
    w := (c.b 3 15 8 + 1) * 256, dfmt := c.b 3 17 16, pktLog2 := c.b 3 21 18, s0 := c.q 4, period := c.q 6 % 2 ^ 48,
    epochS := c.q 8 % 2 ^ 48, epochNs := c.p 10 }

/-- A field of RUN_START outside its range (R28, R29, R157, Table 5.11). -/
def runBad (c : Cmd) : Bool :=
  let p := runPar c
  p.n < 2 || p.n > 4096 || c.b 0 24 16 > 256 || p.nch < 1 || p.nch > 65536 || p.chBase + p.nch > 65536 || p.w > p.t ||
    p.dfmt == 3 || p.pktLog2 < 5 || p.pktLog2 > 9 || p.s0 % 256 != 0 || p.period == 0 || p.epochNs ≥ 10 ^ 9 ||
    c.p 11 == 0 || c.p 11 > nintMax p.t

/-- Lane payload that a run can count on, in units of 10 Mb/s (R180): ASL receive lanes configured with RX_EN, less the
parity lane of every receive group. -/
def Dev.lanePayload (d : Dev) : Nat :=
  (((List.range 80).filter fun n => d.laneFunc n == 1 && d.on (LN_CTRL n) LN_CTRL_RX_EN &&
    !d.lgroups.any fun g => !g.tx && g.parity == n).map fun n => aslPayload (d.f (LN_CTRL n) LN_CTRL_RATE)).sum

/-- Both sides of the beam check in cycles per course (R186). -/
def Dev.beamCheck (d : Dev) (p : RunPar) (avail : Nat) : Nat × Nat :=
  let s := d.f BM_CTRL BM_CTRL_S_M1 + 1
  let m := fmtW p.c8
  let one := fun k c => max (256 * m * c) (16 * k * groups p.n * s)
  ((p.passes - 1) * one p.k p.c + one (p.nch - (p.passes - 1) * p.k) p.cLast, 256 * avail)

/-- Bytes of the output ring of R201 for the beam configuration in force. -/
def Dev.beamRing (d : Dev) : Nat :=
  if d.on BM_CTRL BM_CTRL_EN then
    ringBytes d.beam.nch d.beam.t d.beams ((List.range (d.f BM_CTRL BM_CTRL_S_M1 + 1)).countP fun k => d.vset k) d.ncrs
      (d.on BM_CTRL BM_CTRL_DET_EN) (detValues d.detKind d.beams) (d.f BM_CTRL BM_CTRL_OFMT) d.detM
  else 0

/-- The HBM regions placed before a run's own: weight buffers, output ring, and the front's delay lines and rings (R224). -/
def Dev.heldRegions (d : Dev) : List (Nat × Nat) :=
  (if d.on BM_CTRL BM_CTRL_EN then
    let w := wbufBytes d.beam.n d.beam.nch d.beams
    [(6, w), (7, w), (8, d.beamRing)] else []) ++ (if d.front.hbm = 0 then [] else [(9, d.front.hbm)])

/-- Regions placed one after another on 1 MiB boundaries from the start of HBM (R224, log entry 5): kind, address, size.
Kinds 0 to 5 are those of `runRegions` in order, 6 and 7 the weight buffers, 8 the beam output ring, 9 the front. -/
def placeRegions : Nat → List (Nat × Nat) → List (Nat × Nat × Nat)
  | _, [] => []
  | a, (k, n) :: r => (k, a, n) :: placeRegions (a + ceilDiv n (2 ^ 20) * 2 ^ 20) r

/-- The DUMP_ROUTE table serves a run: every channel once, on AVP streams that take its largest packet (R181). -/
def Dev.dumpCover (d : Dev) (p : RunPar) : Bool :=
  coverOnce d.run.route p.nch && d.run.route.all fun (_, _, st, _) =>
    match d.stream st with | some x => x.cls == 1 && x.fits (avpLargest p.dfmt p.pktLog2) | none => false

/-- The staging port's target in ns (Table 7.2). -/
def stgTarget (p : RunPar) (depth mhz : Nat) : Nat :=
  clampN 1000 64000 ((depth - 1) * 256 * fmtW p.c8 * p.c * 1000 / max mhz 1)

/-- The delay-line port's target in ns (Table 7.2): half the time of MARGIN − 1,024 samples at the fastest input rate. -/
def Dev.fdlTarget (d : Dev) : Nat :=
  let rate := d.front.inputs.foldl (fun m x => let r := d.frRate x; max m (r.1 / r.2)) 0
  let margin := clampN 1024 1048576 (d.f FR_TIME FR_TIME_MARGIN)
  if rate = 0 then 4000 else clampN 4000 64000 ((margin - 1024) * 10 ^ 9 / (2 * rate))

/-- Firmware sets the latency targets at run start (R213, Table 7.2). -/
def Dev.runTargets (d : Dev) (p : RunPar) (depth : Nat) : Dev :=
  let ts := [8000, stgTarget p depth (d.f TIM_CLK TIM_CLK_TCLK_MHZ), 12000, d.fdlTarget, 40000, 40000, 100000, 1000000, 1000000]
  ts.zipIdx.foldl (fun (e : Dev) (t, k) => e.setF (MC_QOS k) MC_QOS_TARGET_NS t) d

/-- Contexts and chunks of a run that has ended and are still on their way are promoted before a new run begins, and what
its dumps have not sent is abandoned with REASON 2 (Table 5.7). -/
def drainRun : Nat → State → State
  | 0, s => s
  | n + 1, s => drainRun n (servePeeks { s with dev := ({ s.dev with run := s.dev.run.mortarRelease } : Dev).chunkPromote })

/-- Every dump that stands is abandoned. -/
def Dev.abandonDumps (d : Dev) : Dev :=
  d.run.dumps.foldl
    (fun (e : Dev) u =>
      let x := e.abandon u 2
      { x.1 with run := { x.1.run with dumps := x.1.run.dumps.map fun w => if w = u then x.2 else w } }) d

/-- The default bond table goes into the inactive copy and the copies are exchanged; while a swap is pending, the table
already written there is kept where it serves the plan (R137, R139). -/
def Dev.runBond (d : Dev) (p : RunPar) : Dev :=
  let ina := 1 - d.btCopy
  let keep := d.on XC_CTRL XC_CTRL_BT_PEND && (bondCheck d p (fun t s => d.btEntry ina t s)).isNone
  ((if keep then d else d.defaultBond p ina).btSwapReq).btSwapApply

/-- The registers of a run's shape (chapter 4 and chapter 5). -/
def Dev.runRegs (d : Dev) (c : Cmd) (p : RunPar) : Dev :=
  let g := groups p.n
  let e := (((d.setF XC_CTRL XC_CTRL_EN 1).setF XC_CTRL XC_CTRL_FMT (b2n p.c8)).setF XC_CTRL XC_CTRL_AUDIT_EN (c.b 0 14 14))
  let e1 := e.wrN XC_SHAPE (g - 1 + blocksOf p.n * 2 ^ 8 + p.k * 2 ^ 20 + p.c * 2 ^ 32 + p.cLast * 2 ^ 36 + (p.nch - 1) * 2 ^ 40)
  let e2 := (e1.wrN XC_BATCH (c.b 3 7 0 + c.b 3 15 8 * 2 ^ 8 + p.passes * 2 ^ 32)).wrN XC_POS 0
  let e3 := ((((e2.setF AC_CTRL AC_CTRL_EN 1).setF AC_CTRL AC_CTRL_DFMT p.dfmt).setF AC_CTRL AC_CTRL_PKT_LOG2 p.pktLog2).setF
    AC_CTRL AC_CTRL_NDB2 (b2n (c.p 11 == 1)))
  e3.wrN AC_INTEG (c.p 11 % 2 ^ 32)

/-- A run begins: everything of the last run but its jobs, dumps, digests, strikes and route is put away. -/
def Dev.runBegin (d : Dev) (c : Cmd) (p : RunPar) (depth : Nat) : Dev :=
  let r := d.run
  let rg := (runRegions p (c.p 11)).zipIdx.map fun (n, k) => (k, n)
  let nr : Run := { active := true, par := p, nint := c.p 11, dumps := r.dumps, digests := r.digests, route := r.route, startWords := c.ps.take 12,
                    lastDump := r.lastDump,
                    regions := placeRegions HBM_BASE (d.heldRegions ++ rg), tested := r.tested, strikes := r.strikes }
  let bm := { d.beam with queue := [], det := [], volt := [], ringBatch := 0 }
  let d1 := ((({ d with run := nr, beam := bm } : Dev).runRegs c p).runBond p).runTargets p depth
  let d2 := d1.setF TSU_CTRL TSU_CTRL_STEP_ARM 0
  if d2.pwr.degraded then d2.syncLease else d2.setFw FW_RUN

/-- RUN_START (R28, R48, R145, R180): word 7 of the answer is the total of the run's regions in MiB, word 8 the demand in
GB/s, and words 9 and 10 the two sides of R186 when beams are configured. -/
def runStartDef : CmdDef where
  op := 0x0507
  mode := 1
  masks := fun _ => [0x01FF7FFF, 0x1FFFF, 0xFFFF, 0x3FFFFF, 0xFFFFFFFF, 0xFFFFFFFF, 0xFFFFFFFF, 0xFFFF, 0xFFFFFFFF, 0xFFFF]
  bad := fun c _ => runBad c
  run := fun c s =>
    let d := s.dev
    let p0 := runPar c
    let mhz := d.f TIM_CLK TIM_CLK_TCLK_MHZ
    let avail := mhz * p0.period / (2 ^ 16 * 10 ^ 6)
    let pl := planOf p0.n p0.c8 p0.nch (c.b 0 24 16) avail mhz d.lanePayload
    let p := { p0 with k := max pl.k 1, c := pl.c, cLast := pl.cLast }
    let beams := d.on BM_CTRL BM_CTRL_EN
    let bc := d.beamCheck p avail
    let mib := regionMib (runRegions p (c.p 11))
    let held := regionMib (d.heldRegions.map (·.2))
    let dem := d.demand p 1
    let w06 := if d.role = 3 then pl.words.set 5 0xFFFFFFFF else pl.words
    let res := w06 ++ [mib, dem / 10 ^ 9] ++ (if beams then [min bc.1 0xFFFFFFFF, min bc.2 0xFFFFFFFF] else [])
    let badState := (d.role != 2 && d.role != 3) || d.run.active || !d.on TSU_CTRL TSU_CTRL_VALID ||
      d.f TIM_STAT TIM_STAT_STATE == 0x0F || !d.dumpCover p ||
      (beams && (d.beam.n != p.n || d.beam.t != p.t || d.beam.nch != p.nch || !d.beamCover d.beam.route))
    if badState then noR .badState s
    else if pl.k = 0 then ({ code := .noResource, res := pl.words }, s)
    else if pl.need > avail || (beams && decide (bc.1 > bc.2)) || mib + held > d.hbmMib || !d.demandOk dem then
      ({ code := .noResource, res := res }, s)
    else
      let s1 := drainRun (d.run.mortar.length + d.run.promq.length) s
      let s2 := s1.dev.run.dumps.foldl (fun x _ => dumpComplete x) { s1 with dev := s1.dev.abandonDumps }
      ({ code := .ok, res := res }, { s2 with dev := s2.dev.runBegin c p pl.depth })

/-- Meaning of RUN_START. -/
def execRunStart (slot : Nat) (s : State) : Host.Outcome State Fault Refusal := .next (serve runStartDef slot 0 0 s)

end Sys2Proof.Machine
end

