-- ==== Sys2Proof/Machine/CoreCtl.lean ====
section
/-!
DEFINITION. The state of a Rhaex core: its registers and when writes to them land, its status register, traps and the commands
that start, halt and reset it (10_rhaex_cores R306 to R309, R312, R325, R330; CR_CTRL).
-/
namespace Sys2Proof.Machine

/-! Registers (Table 10.2). -/

/-- Codes of Table 10.2. -/
def RC_X0 : Nat := 0x00
def RC_Y0 : Nat := 0x04
def RC_AH : Nat := 0x08
def RC_AL : Nat := 0x0C
def RC_AG : Nat := 0x10
def RC_TPC : Nat := 0x14
def RC_TSR : Nat := 0x15
def RC_TTGT : Nat := 0x16
def RC_P0 : Nat := 0x18
def RC_N0 : Nat := 0x20
def RC_B0 : Nat := 0x28
def RC_L0 : Nat := 0x30
def RC_SR : Nat := 0x38
def RC_LC : Nat := 0x39
def RC_LS : Nat := 0x3A
def RC_LE : Nat := 0x3B
def RC_SPC : Nat := 0x3C
def RC_SSR : Nat := 0x3D
def RC_IPC2 : Nat := 0x3E
def RC_ISR2 : Nat := 0x3F

/-- Bits of SR with a key of their own, at 0x40 + bit (Table 10.3). -/
def SR_C : Nat := 0x40
def SR_V : Nat := 0x41
def SR_Z : Nat := 0x42
def SR_N : Nat := 0x43
def SR_E : Nat := 0x44
def SR_LS : Nat := 0x45
def SR_FM : Nat := 0x46
def SR_SM : Nat := 0x47
def SR_RM : Nat := 0x48
def SR_IPL : Nat := 0x49
def SR_LSO : Nat := 0x50

/-- A code that Table 10.2 does not reserve. -/
def codeOk (c : Nat) : Bool := c < 0x40 && c != 0x17

/-- The banks hold X0 to X3, Y0 to Y3, the accumulators, P0 to P7 and N0 to N7; in the compatibility state everything else
besides (R332). -/
def banked (cs : Bool) (c : Nat) : Bool := cs || c < 0x14 || (0x18 ≤ c && c < 0x28)

/-- The key of a register of a bank. -/
def regKey (cs : Bool) (bank c : Nat) : Nat := if banked cs c then 256 * bank + c else c

/-- What a register holds at reset: zero, but FM of SR (Table 10.3, log entry 22). -/
def coreReset (k : Nat) : Nat := if k % 256 = SR_FM then 1 else 0

/-- Writes on their way with one more, in the order in which they land: by time, and by program order at one time. -/
def pendPut (t k v : Nat) : List (Nat × Nat × Nat) → List (Nat × Nat × Nat)
  | [] => [(t, k, v)]
  | w :: r => if t < w.1 then (t, k, v) :: w :: r else w :: pendPut t k v r

/-- A register written at the end of a stage (R325). -/
def RCore.write (x : RCore) (t k v : Nat) : RCore := { x with pend := pendPut t k v x.pend }

/-- A register's value once the given writes have landed in order. -/
def landed (k : Nat) : List (Nat × Nat × Nat) → Nat → Nat
  | [], v => v
  | w :: r, v => landed k r (if w.2.1 = k then w.2.2 else v)

/-- A register's value with every write on its way landed. -/
def RCore.final (x : RCore) (k : Nat) : Nat := landed k x.pend (tget coreReset x.regs k)

/-- A register's value as a stage at time t sees it: what has landed before t (R325). -/
def RCore.seen (x : RCore) (t k : Nat) : Nat :=
  landed k (x.pend.filter fun w => decide (w.1 < t)) (tget coreReset x.regs k)

/-- The writes that land before time t put into the registers. -/
def RCore.land (x : RCore) (t : Nat) : RCore :=
  { x with regs := (x.pend.filter fun w => decide (w.1 < t)).foldl (fun r w => tset coreReset r w.2.1 w.2.2) x.regs,
           pend := x.pend.filter fun w => decide (t ≤ w.1) }

/-- Every write on its way lands: the pipeline drains before a trap, an interrupt, a switch or a halt (log entry 23). -/
def RCore.drain (x : RCore) : RCore :=
  { x with regs := x.pend.foldl (fun r w => tset coreReset r w.2.1 w.2.2) x.regs, pend := [], memOld := [] }

/-- The status register of a core as it would read with given values of its bits (Table 10.3). -/
def srOf (bitAt : Nat → Nat) (bank : Nat) (cs : Bool) (lsp : Nat) : Nat :=
  bitAt SR_C + bitAt SR_V * 2 + bitAt SR_Z * 4 + bitAt SR_N * 8 + bitAt SR_E * 16 + bitAt SR_LS * 32 + bitAt SR_FM * 64 +
    bitAt SR_SM * 128 + bitAt SR_RM * 256 + bitAt SR_IPL * 512 + bank * 2 ^ 11 + b2n cs * 2 ^ 12 + lsp * 2 ^ 13 + bitAt SR_LSO * 2 ^ 16

/-- The RW bits of SR as key and value (Table 10.3). -/
def srBits (v : Nat) : List (Nat × Nat) :=
  [(SR_C, bits v 0 0), (SR_V, bits v 1 1), (SR_Z, bits v 2 2), (SR_N, bits v 3 3), (SR_E, bits v 4 4), (SR_LS, bits v 5 5),
   (SR_FM, bits v 6 6), (SR_SM, bits v 7 7), (SR_RM, bits v 8 8), (SR_IPL, bits v 10 9), (SR_LSO, bits v 16 16)]

/-! The core's page and state. -/

/-- A core is in the compatibility state (R307). -/
def Dev.coreCs (d : Dev) (c : Nat) : Bool := d.on (CR_STAT c) CR_STAT_CS

/-- States of CR_STAT. -/
def CORE_RESET : Nat := 0
def CORE_RUN : Nat := 1
def CORE_HALTED : Nat := 2
def CORE_DOUBLE : Nat := 3
def CORE_RETIRED : Nat := 4

/-- STATE of a core. -/
def Dev.coreState (d : Dev) (c : Nat) : Nat := d.f (CR_STAT c) CR_STAT_STATE

/-- STATE of a core set. -/
def Dev.setCoreState (d : Dev) (c v : Nat) : Dev := d.setF (CR_STAT c) CR_STAT_STATE v

/-- SR of a core with every write landed. -/
def Dev.coreSr (d : Dev) (c : Nat) : Nat :=
  let x := d.core c
  srOf (fun k => x.final (regKey (d.coreCs c) x.bank k)) x.bank (d.coreCs c) x.ctx.loops.length

/-- A register of the bank in use set at once, once the pipeline has drained. -/
def RCore.force (x : RCore) (cs : Bool) (code v : Nat) : RCore :=
  { x with regs := tset coreReset x.regs (regKey cs x.bank code) v }

/-- SR restored: its RW fields and BANK (R328 to R330). -/
def RCore.restoreSr (x : RCore) (cs : Bool) (v : Nat) : RCore :=
  let y := if cs then x else { x with bank := bits v 11 11 }
  (srBits v).foldl (fun z b => z.force cs b.1 b.2) y

/-- Interrupts and halts are taken here: outside delay slots and repetitions (R327). -/
def RCtx.boundary (t : RCtx) : Bool := t.slots.isNone && t.rep.isNone

/-- A core halts at an instruction boundary, its writes landed. -/
def Dev.coreHalt (d : Dev) (c cause : Nat) : Dev :=
  let x := (d.core c).drain
  (d.setCore c { x with due := 0, qhalt := if cause < 5 then cause else x.qhalt, haltAt := d.now }).setCoreState c CORE_HALTED

/-- CR_CTRL.CMD = 1: the core starts at START_PC, fixing whether it is in the compatibility state (R307). A core that QDP holds
halted, one that runs and one that is retired do not start (R514). -/
def Dev.coreStart (d : Dev) (c : Nat) : Dev :=
  let x := (d.core c).drain
  if d.coreState c = CORE_RUN ∨ d.coreState c = CORE_RETIRED ∨ x.qhalt ≠ 0 then d
  else
    let l := d.logicalOf c
    let cs := if d.coreState c = CORE_RESET then d.compat && (l == 1 || l == 2) else d.coreCs c
    let pc := d.f (CR_CTRL c) CR_CTRL_START_PC
    let y := { x with ctx := { x.ctx with pc := pc, slots := none, rep := none, waiting := false }, wdogAt := d.now }
    ((((d.setCore c y).setCoreState c CORE_RUN).setF (CR_STAT c) CR_STAT_CS (b2n cs)).setF (CR_STAT c) CR_STAT_INTRAP 0)

/-- CR_CTRL.CMD = 2: the core halts at once or at the next instruction boundary that R327 allows. -/
def Dev.coreStop (d : Dev) (c cause : Nat) : Dev :=
  if d.coreState c ≠ CORE_RUN then d
  else if (d.core c).ctx.boundary then d.coreHalt c cause
  else d.setCore c { d.core c with due := cause }

/-- CR_CTRL.CMD = 3: the core is reset and stays in reset; its registers take their reset values. -/
def Dev.coreClear (d : Dev) (c : Nat) : Dev :=
  let d1 := d.setCore c { timerAt := (d.core c).timerAt }
  if d.coreState c = CORE_RETIRED then d1
  else ((d1.setCoreState c CORE_RESET).setF (CR_STAT c) CR_STAT_INTRAP 0).setF (CR_STAT c) CR_STAT_CS 0

/-- A command written to CR_CTRL.CMD. -/
def Dev.coreCmd (d : Dev) (c cmd : Nat) : Dev :=
  match cmd with | 1 => d.coreStart c | 2 => d.coreStop c 5 | 3 => d.coreClear c | _ => d

end Sys2Proof.Machine
end

