-- ==== Sys2Proof/Machine/Integrity.lean ====
section
/-!
DEFINITION. Patrol and targeted scrubbing, sparing, error handling, the check-value units and the integrity commands
(13_integrity R388 to R400).
-/
namespace Sys2Proof.Machine

/-! Scrubbing (R390, R391). -/

/-- Bytes of a memory class and of its granule; the core memories are those of the four cores, PM, XM and YM of each in
turn (Tables 11.1 and 13.1). -/
def Dev.classSize (d : Dev) (k : Nat) : Nat × Nat :=
  match k with
  | 0 => (0x40000, 4)
  | 1 => (0x400000, 4)
  | 2 => (4 * 0x200000, 4)
  | 3 => (68 * 12 * 136192, 64)
  | 4 => (Config.class4Bytes, 64)
  | 5 => (0x2400000000, 32)
  | _ => (8 * d.dimmMin, 64)

/-- The address or locator of an offset in a class. -/
def classAddr (k off : Nat) : Nat :=
  match k with
  | 0 => 0x10000000 + off
  | 1 => 0x20000000 + off
  | 2 =>
    let o := off % 0x200000
    0x50000000 + off / 0x200000 * 0x1000000 +
      (if o < 0x100000 then o else if o < 0x180000 then 0x400000 + (o - 0x100000) else 0x600000 + (o - 0x180000))
  | 3 => off / (12 * 136192) * 2 ^ 40 + off % (12 * 136192)
  | 4 => if off < 0x2000000 then off else Config.class4Loc off
  | 5 => 0x100000000000 + off
  | _ => 0x200000000000 + off

/-- Poison stored in a granule of a class whose bytes the system map reaches. -/
def Mem.stored (m : Mem) (k a : Nat) : Bool := (k == 1 || k == 2 || k == 5 || k == 6) && tget (fun _ => false) m.poison a

/-- A scrub of one granule: `err` is what its read met beside an error already in storage. A corrected granule is written back
(R387, R390), and one that cannot be corrected becomes stored poison (R389); the boot ROM is only read. -/
def scrubOne (k a err : Nat) (s : State) : State :=
  let d := s.dev
  if k ≥ 5 && d.dead a then s
  else
    match max (s.mem.softAt k a) (err % 3) with
    | 0 => if s.mem.stored k a then { s with dev := d.cntF (EC_PRD k) LO32 1 } else s
    | 1 =>
      if k = 0 then { s with dev := d.ecCorrected k a }
      else { s with dev := (d.ecCorrected k a).ecRewritten k a, mem := s.mem.setSoft k a 0 }
    | _ =>
      let m := if k = 0 then s.mem else s.mem.setSoft k a 0
      { s with dev := d.ecBad k a,
               mem := if k = 1 ∨ k = 2 ∨ k ≥ 5 then { m with poison := tset (fun _ => false) m.poison a true } else m }

/-- PATROL_SCRUB (R390): the scrubber of class k takes the next granule of its pass; EC_POS holds the place in the class. -/
def patrolScrub (k err : Nat) (s : State) : State :=
  let d := s.dev
  let z := d.classSize k
  if k > 6 || !d.on (EC_CTRL k) EC_CTRL_SCRUB_EN || z.1 = 0 then s
  else
    let off := bits (d.rdN (EC_POS k)) 47 0
    let passes := bits (d.rdN (EC_POS k)) 63 48
    let s1 := scrubOne k (classAddr k off) err s
    let d1 := s1.dev
    if off + z.2 < z.1 then { s1 with dev := d1.wrN (EC_POS k) (off + z.2 + passes * 2 ^ 48) }
    else
      let sc := { d1.scrub with start := tset (fun _ => 0) d1.scrub.start k d1.now,
                                late := if bit d1.scrub.late k then d1.scrub.late - 2 ^ k else d1.scrub.late }
      { s1 with dev := { d1.wrN (EC_POS k) ((passes + 1) % 2 ^ 16 * 2 ^ 48) with scrub := sc } }

/-- Meaning of PATROL_SCRUB. -/
def execPatrolScrub (k err : Nat) (s : State) : Host.Outcome State Fault Refusal := .next (patrolScrub k err s)

/-- Meaning of TARGETED_SCRUB (R390): the granule of a LOGGED entry is read and written back ahead of the sweep. -/
def execTargetedScrub (k e err : Nat) (s : State) : Host.Outcome State Fault Refusal :=
  let d := s.dev
  let x := d.ecEntry k e
  if k > 6 || e ≥ 32 || !d.on (EC_CTRL k) EC_CTRL_TARGETED || x.state != EC_LOGGED || (k ≥ 5 && d.dead x.addr) then .next s
  else
    let s1 := scrubOne k x.addr err s
    .next { s1 with dev := s1.dev.ecRewritten k x.addr }

/-- Meaning of SCRUB_LATE (R391): a pass that takes more than twice its period sends one event. -/
def execScrubLate (k : Nat) (s : State) : Host.Outcome State Fault Refusal := nextDev s (
  let d := s.dev
  let per := clampN 1 604800 (d.f (EC_CTRL k) EC_CTRL_PERIOD_S)
  if k > 6 || !d.on (EC_CTRL k) EC_CTRL_SCRUB_EN || bit d.scrub.late k ||
      decide (d.now < tget (fun _ => 0) d.scrub.start k + 2 * per * 10 ^ 9) then d
  else ({ d with scrub := { d.scrub with late := d.scrub.late ||| 2 ^ k } } : Dev).raise 0x0B06 k 0 0)

/-! Sparing (R388). -/

/-- The memory that owns the spare rows of an address: the memory of a core, or a tile's store. -/
def spareUnit (k a : Nat) : Nat := if k = 2 then a / 0x200000 else if k = 3 then a / 2 ^ 40 else 0

/-- Spare rows of one such memory (Table 13.1); classes 5 and 6 report none. -/
def spareRows (k : Nat) : Nat := match k with | 1 => 16 | 2 => 4 | 3 => 2 | 4 => 16 | _ => 0

/-- SPARED (R388): firmware spares a HARD address; `spare` says whether a stack or DIMM still has a repair to give. Granules
that were poisoned stay so. -/
def Dev.spareRow (d : Dev) (k e : Nat) (spare : Bool) : Dev :=
  let x := d.ecEntry k e
  if k > 6 ∨ e ≥ 32 ∨ x.state ≠ EC_HARD then d
  else
    let used := d.ret.spare.repairs.countP fun r => r.1 == k && spareUnit k r.2 == spareUnit k x.addr
    if (k ≥ 5 && !spare) || (k < 5 && decide (used ≥ spareRows k)) then
      (d.setEc k e { x with state := EC_UNSPARABLE }).raiseEc 0x0B04 k x.addr EC_UNSPARABLE
    else
      let left := d.f (EC_CTRL k) EC_CTRL_SPARES_LEFT
      let d1 := if left = 0xFFFF ∨ left = 0 then d else d.setF (EC_CTRL k) EC_CTRL_SPARES_LEFT (left - 1)
      let d2 := { d1 with ret := { d1.ret with spare := { d1.ret.spare with repairs := d1.ret.spare.repairs ++ [(k, x.addr)] } } }
      let d3 := ((d2.setEc k e { x with state := EC_SPARED }).raiseEc 0x0B03 k x.addr EC_SPARED).wantCommit .spare none
      if left = 1 then d3.raise 0x0A0A k 0 0 else d3

/-- Meaning of SPARED. -/
def execSpared (k e : Nat) (spare : Bool) (s : State) : Host.Outcome State Fault Refusal := nextDev s (s.dev.spareRow k e spare)

/-! The error queue (R395 to R397). -/

/-- Meaning of ERROR_HANDLING (R396): the oldest entry is taken, handled and appended to the error log of retained state, the
last 512 entries; it is popped afterwards. -/
def execErrorHandling (s : State) : Host.Outcome State Fault Refusal := nextDev s (
  let d := s.dev
  match d.errq with
  | [] => d
  | e :: _ =>
    if d.scrub.taken then d
    else
      let log := d.ret.errLog ++ [e]
      { d with ret := { d.ret with errLog := log.drop (log.length - 512) }, scrub := { d.scrub with taken := true } })

/-- POP: the oldest entry leaves the queue (R396). -/
def Dev.errPop (d : Dev) : Dev := ({ d with errq := d.errq.tail, scrub := { d.scrub with taken := false } } : Dev).syncHead

/-- CLR_FIRST: ER_FIRST, FIRST_VALID and LATER are cleared (R395). -/
def Dev.errClrFirst (d : Dev) : Dev :=
  ((d.clearRegs ((List.range 4).map ER_FIRST)).setF ER_STAT ER_STAT_FIRST_VALID 0).setF ER_STAT ER_STAT_LATER 0

/-- CLR_LOST: LOST and LOST_CNT are cleared (R395). -/
def Dev.errClrLost (d : Dev) : Dev := (d.setF ER_STAT ER_STAT_LOST 0).setF ER_STAT ER_STAT_LOST_CNT 0

/-- Meanings of the writes of ER_CMD. -/
def execPop (s : State) : Host.Outcome State Fault Refusal := nextDev s s.dev.errPop
def execClrFirst (s : State) : Host.Outcome State Fault Refusal := nextDev s s.dev.errClrFirst
def execClrLost (s : State) : Host.Outcome State Fault Refusal := nextDev s s.dev.errClrLost

/-- ERR_ACK clears the bits of ERR_SUM it names; bit 0 stays while the queue holds an entry and bit 4 while LOST is set (R397). -/
def Dev.errAck (d : Dev) (mask : Nat) : Dev :=
  let keep := (if d.errq.isEmpty then 0 else 1) + (if d.on ER_STAT ER_STAT_LOST then 2 ^ 4 else 0)
  let v := d.f DEVSTAT DEVSTAT_ERR_SUM
  (d.setF DEVSTAT DEVSTAT_ERR_SUM (v &&& ((0xFF ^^^ (mask % 256)) ||| keep))).syncLease

/-! Check-value units (R398, R399). -/

/-- A unit. -/
def Dev.cv (d : Dev) (u : Nat) : Cvu := tget (fun _ => {}) d.cvu u

/-- The device with a unit replaced; BUSY follows its queue. -/
def Dev.setCv (d : Dev) (u : Nat) (x : Cvu) : Dev :=
  ({ d with cvu := tset (fun _ => {}) d.cvu u x } : Dev).setF (CV_CFG u) CV_CFG_BUSY (b2n (!x.queue.isEmpty))

/-- The width of a unit: 1 to 64, other values acting as 64 (CV_CFG). -/
def Dev.cvWidth (d : Dev) (u : Nat) : Nat := let w := d.f (CV_CFG u) CV_CFG_WIDTH; if 1 ≤ w ∧ w ≤ 64 then w else 64

/-- The bytes of a feed, in the order they are taken. -/
def Feed.bytes : Feed → List Nat
  | .b v => leBytes 1 v
  | .h v => leBytes 2 v
  | .w v => leBytes 4 v

/-- The unit absorbs the oldest feed of its queue (R398). -/
def Dev.cvAbsorb (d : Dev) (u : Nat) : Dev :=
  let x := d.cv u
  match x.queue with
  | [] => d
  | q :: rest =>
    let w := d.cvWidth u
    let reg := q.bytes.foldl (crcByte w (d.rdN (CV_POLY u) % 2 ^ w) (d.on (CV_CFG u) CV_CFG_REFIN)) (x.reg % 2 ^ w)
    d.setCv u { x with reg := reg, queue := rest }

/-- The unit absorbs every feed queued. -/
def Dev.cvDrain (d : Dev) (u : Nat) : Dev := (d.cv u).queue.foldl (fun (e : Dev) _ => e.cvAbsorb u) d

/-- A feed put in the queue; when sixteen wait, the writer is held until the oldest has been absorbed (R398). -/
def Dev.cvFeed (d : Dev) (u : Nat) (f : Feed) : Dev :=
  let e := if (d.cv u).queue.length ≥ 16 then d.cvAbsorb u else d
  e.setCv u { e.cv u with queue := (e.cv u).queue ++ [f] }

/-- Core `who` may write a unit: firmware (0), or the core that owns it (R7, R398). -/
def Dev.cvOpen (d : Dev) (u who : Nat) : Bool :=
  who == 0 || ((who == 1 || who == 2) && d.f (CV_CFG u) CV_CFG_OWNER == who)

/-- START: INIT is loaded after the feeds queued before it, and the first-byte state cleared (R398, R399). -/
def Dev.cvStart (d : Dev) (u : Nat) : Dev :=
  let e := d.cvDrain u
  e.setCv u { e.cv u with reg := d.rdN (CV_INIT u) % 2 ^ d.cvWidth u, first := true }

/-- CV_RESULT once every feed has been absorbed (R398). -/
def Dev.cvResult (d : Dev) (u : Nat) : Nat :=
  let e := d.cvDrain u
  let w := d.cvWidth u
  let r := (e.cv u).reg % 2 ^ w
  ((if d.on (CV_CFG u) CV_CFG_REFOUT then reflectN w r else r) ^^^ d.rdN (CV_XOROUT u)) % 2 ^ w

/-- A write of CV_ALIVE_GO (R399): COUNT is appended, or a received byte verified. -/
def Dev.cvAlive (d : Dev) (u r : Nat) : Dev :=
  let c := d.f (CV_ALIVE u) CV_ALIVE_COUNT
  match d.f (CV_CFG u) CV_CFG_ALIVE with
  | 1 => (d.cvFeed u (.b c)).setF (CV_ALIVE u) CV_ALIVE_COUNT ((c + 1) % 256)
  | 2 =>
    let e := (d.cvFeed u (.b (r % 256))).setF (CV_ALIVE u) CV_ALIVE_LAST (r % 256)
    let df := serialDiff (r % 256) c 8
    if (e.cv u).first then (e.setCv u { e.cv u with first := false }).setF (CV_ALIVE u) CV_ALIVE_COUNT (r % 256)
    else if df > 0 then
      let e1 := e.setF (CV_ALIVE u) CV_ALIVE_COUNT (r % 256)
      if df > 1 then (e1.setF (CV_CFG u) CV_CFG_GAP 1).cntF (CV_CNT u) HI32 (df - 1).toNat else e1
    else (e.setF (CV_CFG u) CV_CFG_REPEAT 1).cntF (CV_CNT u) LO32 1
  | _ => d

/-- A write of a unit by `who`, dropped and logged where it is not its own (R7). -/
def Dev.cvWrite (d : Dev) (u who a : Nat) (f : Dev → Dev) : Dev :=
  if u ≥ 8 then d else if d.cvOpen u who then f d else d.regDrop a who

/-- Meanings of the writes and reads of a check-value unit. -/
def execCvStart (unit who : Nat) (s : State) : Host.Outcome State Fault Refusal :=
  nextDev s (s.dev.cvWrite unit who (CV_CFG unit) fun d => d.cvStart unit)
def execCvFeedB (unit who v : Nat) (s : State) : Host.Outcome State Fault Refusal :=
  nextDev s (s.dev.cvWrite unit who (CV_FEED_B_R unit) fun d => d.cvFeed unit (.b (v % 2 ^ 8)))
def execCvFeedH (unit who v : Nat) (s : State) : Host.Outcome State Fault Refusal :=
  nextDev s (s.dev.cvWrite unit who (CV_FEED_H_R unit) fun d => d.cvFeed unit (.h (v % 2 ^ 16)))
def execCvFeedW (unit who v : Nat) (s : State) : Host.Outcome State Fault Refusal :=
  nextDev s (s.dev.cvWrite unit who (CV_FEED_W_R unit) fun d => d.cvFeed unit (.w (v % 2 ^ 32)))
def execFeedAbsorb (unit : Nat) (s : State) : Host.Outcome State Fault Refusal := nextDev s (s.dev.cvAbsorb unit)
def execCvAliveGo (unit who r : Nat) (s : State) : Host.Outcome State Fault Refusal :=
  nextDev s (s.dev.cvWrite unit who (CV_ALIVE_GO_R unit) fun d => d.cvAlive unit r)
def execCvResultRead (unit : Nat) (s : State) : Host.Outcome State Fault Refusal :=
  nextDev s (let d := s.dev.cvDrain unit
             { d with host := { d.host with rsp := { kind := .ok, data := leBytes 8 (d.cvResult unit) } } })

/-! Commands (R400). -/

/-- ERR_READ: words 0 to 9 are ER_STAT and ER_FIRST, then log entries from index FROM, eight words each, as many as fit. -/
def errReadDef : CmdDef where
  op := 0x0A01
  run := onDev fun c s =>
    let d := s.dev
    let cap := ((if c.slot = SMB_SLOT then 14 else if c.rdest then 8191 else 270) - 10) / 8
    let rest := d.ret.errLog.drop (c.p 0)
    let ws := lohi (d.rdN ER_STAT) ++ (List.range 4).flatMap (fun i => lohi (d.rdN (ER_FIRST i))) ++
      (rest.take cap).flatMap fun e => e.words.flatMap lohi
    ({ code := if rest.length > cap then .partialDone else .ok, res := ws }, d)

/-- ERR_ACK (R397). -/
def errAckDef : CmdDef where
  op := 0x0A02
  masks := fun _ => [0x3FF]
  run := onDev fun c s =>
    let d1 := if bit (c.p 0) 9 then s.dev.errClrLost else s.dev
    let d2 := if bit (c.p 0) 8 then d1.errClrFirst else d1
    okR [] (d2.errAck (c.b 0 7 0))

/-- Registers of the memory classes. -/
def ecRegs : List Nat :=
  (List.range 7).flatMap (fun k => [EC_CTRL k, EC_CNT k, EC_POS k, EC_PRD k]) ++ [EC_ODC, EC_INJ_LO, EC_INJ_HI]

/-- ECC_STATUS: every EC register and the entries of the tables that are not empty, each with its class and number (log entry
8); CLEAR clears the counters and the SPARED entries. -/
def eccStatusDef : CmdDef where
  op := 0x0A03
  run := onDev fun c s =>
    let d := s.dev
    let es := ((List.range 7).flatMap fun k => (List.range 32).map fun e => (k, e)).filter fun (k, e) => (d.ecEntry k e).state != 0
    let ws := ecRegs.flatMap (fun a => lohi (d.rdN a)) ++
      es.flatMap fun (k, e) => [k, e] ++ lohi (d.rdN (EC_TAB k e 0)) ++ lohi (d.rdN (EC_TAB k e 1))
    let wiped := (es.filter fun (k, e) => (d.ecEntry k e).state == EC_SPARED).foldl
      (fun (x : Dev) (k, e) => (x.wrN (EC_TAB k e 0) 0).wrN (EC_TAB k e 1) 0) d
    let cleared := (List.range 7).foldl
      (fun (x : Dev) k => ((x.wr (EC_CNT k) 0).wr (EC_PRD k) 0).setF (EC_CTRL k) EC_CTRL_TAB_OVF 0) (wiped.wr EC_ODC 0)
    okR ws (if c.clear then cleared else d)

/-- SCRUB_CTRL (R390). -/
def scrubCtrlDef : CmdDef where
  op := 0x0A04
  masks := fun _ => [0xFFFFF01F]
  bad := fun c _ => c.b 0 2 0 > 6 || c.b 0 31 12 < 1 || c.b 0 31 12 > 604800
  run := onDev fun c s =>
    let r := EC_CTRL (c.b 0 2 0)
    okR [] (((s.dev.setF r EC_CTRL_SCRUB_EN (c.b 0 3 3)).setF r EC_CTRL_TARGETED (c.b 0 4 4)).setF r EC_CTRL_PERIOD_S (c.b 0 31 12))

/-- CVU_SET (R398): configures a unit, and with RUN feeds it a system range as a job. -/
def cvuSetDef : CmdDef where
  op := 0x0A05
  masks := fun c => [0x7FFF] ++ List.replicate 6 0xFFFFFFFF ++ (if bit (c.p 0) 5 then [0xFFFFFFFF, 0xFFFF, 0xFFFFFFFF] else [])
  run := onDev fun c s =>
    let d := s.dev
    let u := c.b 0 2 0
    let own := d.f (CV_CFG u) CV_CFG_OWNER
    if own = 1 ∨ own = 2 then noR .busy d
    else
      let e := d.cvDrain u
      let cfg := ((((e.setF (CV_CFG u) CV_CFG_OWNER (c.b 0 4 3)).setF (CV_CFG u) CV_CFG_WIDTH (c.b 0 12 6)).setF (CV_CFG u)
        CV_CFG_REFIN (c.b 0 13 13)).setF (CV_CFG u) CV_CFG_REFOUT (c.b 0 14 14))
      let d1 := (((cfg.wrN (CV_POLY u) (c.q 1)).wrN (CV_INIT u) (c.q 3)).wrN (CV_XOROUT u) (c.q 5))
      if bit (c.p 0) 5 then
        let r := asJob c d1 (0x0A0500 + u) true
        if r.1.code == .noResource then noR .noResource d else r
      else okR [] d1

/-- The work of a CVU_SET job: the range is fed from START by words and then bytes, and CV_RESULT is its result. -/
def cvuWork (s : State) (i : Nat) : State × Option (Code × Nat) :=
  let j := s.dev.job i
  let w := fun k => j.params.getD k 0
  let u := bits (w 0) 2 0
  let n := w 9
  let r := memRead s.dev s.mem (w 7 + w 8 * 2 ^ 32) n
  if n ≠ 0 ∧ r.kind ≠ .ok then (s, some (.hwFault, 0))
  else if n ≠ 0 ∧ r.poison then (s, some (.poisoned, 0))
  else
    let d0 := s.dev.cvStart u
    let x := d0.cv u
    let wd := d0.cvWidth u
    let reg := (if n = 0 then [] else r.data).foldl
      (crcByte wd (d0.rdN (CV_POLY u) % 2 ^ wd) (d0.on (CV_CFG u) CV_CFG_REFIN)) x.reg
    let d1 := d0.setCv u { x with reg := reg }
    match j.area with
    | some k => ({ s with dev := d1, mem := s.mem.wr (d1.areaAddr k) (leBytes 8 (d1.cvResult u)) }, some (.ok, 8))
    | none => ({ s with dev := d1 }, some (.ok, 0))

/-- A run, a running core or a working tile uses a granule (R400). -/
def Dev.granuleUsed (d : Dev) (k a : Nat) : Bool :=
  match k with
  | 2 => d.f (CR_STAT (a / 0x1000000 % 4)) CR_STAT_STATE == 1
  | 3 | 4 => d.run.active
  | 5 => d.run.active && d.run.regions.any fun (_, b, n) => decide (b ≤ a ∧ a < b + n)
  | 6 => let st := d.f CAP_STAT CAP_STAT_STATE; decide (1 ≤ st ∧ st ≤ 3)
  | _ => false

/-- ECC_INJECT (R394): one granule is written with data and check bits of its own; what the decoder will make of them is the
decoder's (log entry 19). -/
def eccInjectDef : CmdDef where
  op := 0x0A06
  masks := fun _ => [7, 0xFFFFFFFF, 0xFFFF]
  bad := fun c s =>
    let k := c.b 0 2 0
    let w := match k with | 1 | 2 => 7 | 3 | 4 => 11 | 5 => 24 | _ => 128
    let g := (s.dev.classSize k).2
    k == 0 || k > 6 || c.q 1 % g != 0 || decide ((c.q 3 + c.q 5 * 2 ^ 64) / 2 ^ w ≠ 0) ||
      (List.range 16).any (fun i => decide (4 * i ≥ g) && c.p (7 + i) != 0) ||
      (match k, (s.dev.route (c.q 1)).1 with
       | 1, .sram | 2, .core | 5, .hbm | 6, .ddr | 3, _ | 4, _ => false
       | _, _ => true)
  run := fun c s =>
    let d := s.dev
    let k := c.b 0 2 0
    let a := c.q 1
    if d.granuleUsed k a && !c.force then noR .badState s
    else
      let g := (d.classSize k).2
      let data := (wordsToBytes ((List.range 16).map fun i => c.p (7 + i))).take g
      let chk := c.q 3 + c.q 5 * 2 ^ 64
      let o := Config.eccDecode k (leNat data) chk
      let d1 := (d.wrN EC_INJ_LO (c.q 3)).wrN EC_INJ_HI (c.q 5)
      let m1 := if k = 3 ∨ k = 4 then s.mem else s.mem.store a (if o.1 % 4 = 1 then leBytes g o.2 else data) (o.1 % 4 == 3)
      okR [] { s with dev := d1, mem := if o.1 % 4 = 1 ∨ o.1 % 4 = 2 then m1.setSoft k a (o.1 % 4) else m1 }

/-- Meanings of the integrity commands. -/
def execErrRead (slot : Nat) (s : State) : Host.Outcome State Fault Refusal := .next (serve errReadDef slot 0 0 s)
def execErrAck (slot : Nat) (s : State) : Host.Outcome State Fault Refusal := .next (serve errAckDef slot 0 0 s)
def execEccStatus (slot : Nat) (s : State) : Host.Outcome State Fault Refusal := .next (serve eccStatusDef slot 0 0 s)
def execScrubCtrl (slot : Nat) (s : State) : Host.Outcome State Fault Refusal := .next (serve scrubCtrlDef slot 0 0 s)
def execCvuSet (slot : Nat) (s : State) : Host.Outcome State Fault Refusal := .next (serve cvuSetDef slot 0 0 s)
def execEccInject (slot : Nat) (s : State) : Host.Outcome State Fault Refusal := .next (serve eccInjectDef slot 0 0 s)

end Sys2Proof.Machine
end

