-- ==== Sys2Proof/Machine/Frames.lean ====
section
/-!
DEFINITION. Ethernet frames: byte order of the wire, Internet checksums, the frames the device builds, addresses and the
resolution cache (08_network_and_time R242 to R254). A frame is its bytes from the destination address up to the FCS.
-/
namespace Sys2Proof.Machine

/-! Bytes on the wire. -/

/-- The n low bytes of a number, most significant first. -/
def beBytes (n x : Nat) : List Nat := (leBytes n x).reverse

/-- The number a list of bytes spells, first byte most significant. -/
def beNat (bs : List Nat) : Nat := leNat bs.reverse

/-- Big-endian number of n bytes at an offset. -/
def beAt (bs : List Nat) (off n : Nat) : Nat := beNat ((bs.drop off).take n)

/-- The ones-complement sum of the 16-bit words of a byte list. -/
def sum16 : List Nat → Nat
  | a :: b :: r => a * 256 + b + sum16 r
  | [a] => a * 256
  | [] => 0

/-- A ones-complement sum folded to 16 bits. -/
def fold16 (x : Nat) : Nat :=
  let a := x / 65536 + x % 65536
  let b := a / 65536 + a % 65536
  b / 65536 + b % 65536

/-- The Internet checksum of a byte list (RFC 1071). -/
def inetSum (bs : List Nat) : Nat := 0xFFFF - fold16 (sum16 bs)

/-! Ports. -/

/-- A port beyond its registers. -/
def Dev.port (d : Dev) (m : Nat) : Port := tget (fun _ => {}) d.net.ports m

/-- The device with a port replaced. -/
def Dev.setPort (d : Dev) (m : Nat) (p : Port) : Dev := { d with net := { d.net with ports := tset (fun _ => {}) d.net.ports m p } }

/-- The link is up and the port may send frames: no remote fault (R242), and no shutdown under way (R407). -/
def Dev.portSends (d : Dev) (m : Nat) : Bool :=
  d.therm.shut.isNone && d.fwState != FW_SHUTDOWN && d.macMode m != 0 && d.on (EM_STAT m) EM_STAT_LINK && !d.on (EM_STAT m) EM_STAT_REMOTE_FAULT

/-- A frame leaves a port: it is padded to 60 bytes before its FCS and counted with the FCS (R243, R270). -/
def Dev.sendFrame (d : Dev) (m : Nat) (bs : List Nat) : Dev :=
  let f := bs ++ List.replicate (60 - bs.length) 0
  ((d.emit .packet m f).cnt (EMC_TX_FRAMES m) 1).cnt (EMC_TX_BYTES m) (f.length + 4)

/-- A control frame (priority 1 of Table 8.2) leaves at once while the port may send. -/
def Dev.sendControl (d : Dev) (m : Nat) (bs : List Nat) : Dev := if d.portSends m then d.sendFrame m bs else d

/-- An Ethernet header with an optional tag (VID and PCP); addresses have their first byte lowest. -/
def ethHeader (dst src : Nat) (tag : Option (Nat × Nat)) (type : Nat) : List Nat :=
  leBytes 6 dst ++ leBytes 6 src ++
    (match tag with | some (v, p) => beBytes 2 0x8100 ++ beBytes 2 (p * 8192 + v) | none => []) ++ beBytes 2 type

/-- An IPv4 header with DF set (R253). -/
def ip4Header (src dst proto dscp ttl len : Nat) : List Nat :=
  let f := fun ck => [0x45, dscp * 4] ++ beBytes 2 (20 + len) ++ [0, 0, 0x40, 0, ttl, proto] ++ beBytes 2 ck ++ leBytes 4 src ++ leBytes 4 dst
  f (inetSum (f 0))

/-- An IPv6 header. -/
def ip6Header (src dst next dscp hops len : Nat) : List Nat :=
  beBytes 4 (6 * 2 ^ 28 + dscp * 2 ^ 22) ++ beBytes 2 len ++ [next, hops] ++ leBytes 16 src ++ leBytes 16 dst

/-- The pseudo-header of UDP, ICMPv6 over IPv4 or IPv6. -/
def pseudo (v6 : Bool) (src dst proto len : Nat) : List Nat :=
  if v6 then leBytes 16 src ++ leBytes 16 dst ++ beBytes 4 len ++ [0, 0, 0, proto]
  else leBytes 4 src ++ leBytes 4 dst ++ [0, proto] ++ beBytes 2 len

/-- A UDP header and payload with its checksum computed; a sum of zero is sent as all ones. -/
def udpPacket (v6 : Bool) (src dst sp dp : Nat) (payload : List Nat) : List Nat :=
  let n := 8 + payload.length
  let h := beBytes 2 sp ++ beBytes 2 dp ++ beBytes 2 n
  let ck := inetSum (pseudo v6 src dst 17 n ++ h ++ [0, 0] ++ payload)
  h ++ beBytes 2 (if ck = 0 then 0xFFFF else ck) ++ payload

/-- The MAC address of a multicast group (RFC 1112, RFC 2464). -/
def groupMac (v6 : Bool) (ip : Nat) : Nat :=
  if v6 then 0x3333 + ip / 2 ^ 96 % 2 ^ 32 * 2 ^ 16
  else 0x5E0001 + (ip / 2 ^ 8 % 2 ^ 7 + ip / 2 ^ 16 % 2 ^ 16 * 2 ^ 8) * 2 ^ 24

/-- An IP address is a multicast group. -/
def isGroup (v6 : Bool) (ip : Nat) : Bool := if v6 then ip % 256 == 0xFF else ip % 256 / 16 == 0xE

/-- The first k bits of two addresses of n bytes agree. -/
def samePrefix (n k a b : Nat) : Bool :=
  beNat (leBytes n a) / 2 ^ (8 * n - k) == beNat (leBytes n b) / 2 ^ (8 * n - k)

/-- The next hop of a destination on a port (R254): the destination when it is on-link, and the gateway otherwise. -/
def Port.hop (p : Port) (v6 : Bool) (dst : Nat) : Nat :=
  if v6 then (if samePrefix 16 64 p.v6a dst || samePrefix 16 p.pfx6 p.v6b dst then dst else p.gw6)
  else if samePrefix 4 p.pfx4 p.v4 dst then dst else p.gw4

/-! Resolution (R254). -/

/-- The entry of an address in the resolution cache. -/
def Dev.res (d : Dev) (m : Nat) (v6 : Bool) (ip : Nat) : Option Res :=
  d.net.cache.find? fun r => r.port == m && r.v6 == v6 && r.ip == ip

/-- The device with the entry of an address put in or replaced. -/
def Dev.setRes (d : Dev) (x : Res) : Dev :=
  { d with net := { d.net with cache := d.net.cache.filter (fun r => !(r.port == x.port && r.v6 == x.v6 && r.ip == x.ip)) ++ [x] } }

/-- The solicited-node group of an IPv6 address: FF02::1:FFxx:xxxx. -/
def solicited (ip : Nat) : Nat := 0x02FF + 0x01 * 2 ^ 88 + 0xFF * 2 ^ 96 + ip / 2 ^ 104 % 2 ^ 24 * 2 ^ 104

/-- An ICMPv6 message in an Ethernet frame. -/
def icmp6Frame (dmac smac src dst hops : Nat) (body : List Nat) : List Nat :=
  let ck := inetSum (pseudo true src dst 58 body.length ++ body.take 2 ++ [0, 0] ++ body.drop 4)
  let b := body.take 2 ++ beBytes 2 ck ++ body.drop 4
  ethHeader dmac smac none 0x86DD ++ ip6Header src dst 58 0 hops b.length ++ b

/-- Firmware asks for an address: an ARP request, or a Neighbour Solicitation. -/
def Dev.askFor (d : Dev) (m : Nat) (v6 : Bool) (ip : Nat) : Dev :=
  let p := d.port m
  if v6 then
    d.sendControl m (icmp6Frame (groupMac true (solicited ip)) p.mac p.v6a (solicited ip) 255
      ([135, 0, 0, 0, 0, 0, 0, 0] ++ leBytes 16 ip ++ [1, 1] ++ leBytes 6 p.mac))
  else
    d.sendControl m (ethHeader (2 ^ 48 - 1) p.mac none 0x0806 ++ [0, 1, 8, 0, 6, 4, 0, 1] ++ leBytes 6 p.mac ++ leBytes 4 p.v4 ++
      List.replicate 6 0 ++ leBytes 4 ip)

/-- A next hop that a stream needs is put in the cache and asked for, unless it is there. -/
def Dev.wantHop (d : Dev) (m : Nat) (v6 : Bool) (ip : Nat) : Dev :=
  match d.res m v6 ip with
  | some _ => d
  | none => (d.setRes { port := m, v6 := v6, ip := ip, at' := d.now }).askFor m v6 ip

/-- The next hops of the unicast streams of a port without a static next hop. -/
def Dev.hops (d : Dev) (m : Nat) : List (Bool × Nat) :=
  ((d.streamList.filter fun p => p.2.mac == m && !p.2.static && !isGroup p.2.v6 p.2.dst).map
    fun p => (p.2.v6, (d.port m).hop p.2.v6 p.2.dst)).eraseDups

/-- Every next hop a port's streams need is in the cache. -/
def Dev.wantHops (d : Dev) (m : Nat) : Dev := (d.hops m).foldl (fun (e : Dev) h => e.wantHop m h.1 h.2) d

/-- A neighbour's address learnt from ARP or Neighbour Discovery: an entry that firmware asked for is resolved, and a changed
address takes effect at the next packet; static entries stay. -/
def Dev.learn (d : Dev) (m : Nat) (v6 : Bool) (ip mac : Nat) : Dev :=
  match d.res m v6 ip with
  | some r => if r.static then d else d.setRes { r with mac := mac, resolved := true, at' := d.now, fails := 0 }
  | none => d

/-- RESOLUTION_RETRY: firmware asks again for every unresolved entry. -/
def execResolutionRetry (s : State) : Host.Outcome State Fault Refusal := nextDev s (
  (s.dev.net.cache.filter fun r => !r.resolved && !r.static).foldl
    (fun (e : Dev) r => (e.setRes { r with at' := e.now }).askFor r.port r.v6 r.ip) s.dev)

/-- ENTRY_REFRESH: a resolved entry is asked for again, and after three refreshes that failed it is unresolved. -/
def execEntryRefresh (port : Nat) (v6 : Bool) (ip : Nat) (s : State) : Host.Outcome State Fault Refusal := nextDev s (
  match s.dev.res port v6 ip with
  | some r =>
    if r.static || !r.resolved then s.dev
    else if r.fails ≥ 3 then s.dev.setRes { r with resolved := false, fails := 0 }
    else (s.dev.setRes { r with fails := r.fails + 1 }).askFor port v6 ip
  | none => s.dev)

/-! Links (R242). -/

/-- The output link of a personality, port 20 + p, goes up or down (R442). -/
def Dev.persLink (d : Dev) (p : Nat) (up : Bool) : Dev := if d.compat then d.setPer p { d.per p with link := up && (d.per p).en } else d

/-- LINK_DOWN: the port's link goes down. -/
def execLinkDown (port : Nat) (localFault fecLock : Bool) (s : State) : Host.Outcome State Fault Refusal := nextDev s (
  let d := s.dev
  if 20 ≤ port ∧ port < 24 then d.persLink (port - 20) false
  else if port ≥ 20 ∨ !d.on (EM_STAT port) EM_STAT_LINK then d
  else (((d.setF (EM_STAT port) EM_STAT_LINK 0).setF (EM_STAT port) EM_STAT_LOCAL_FAULT (b2n localFault)).setF (EM_STAT port)
    EM_STAT_FEC_LOCK (b2n fecLock)).cnt (EMC_LINK_DOWN port) 1)

/-- LINK_UP: the PCS of a port that is on is aligned, its FEC locked and no local fault present. -/
def execLinkUp (port : Nat) (remoteFault : Bool) (s : State) : Host.Outcome State Fault Refusal := nextDev s (
  let d := s.dev
  if 20 ≤ port ∧ port < 24 then d.persLink (port - 20) true
  else if port ≥ 20 ∨ d.macMode port = 0 then d
  else ((((d.setF (EM_STAT port) EM_STAT_LINK 1).setF (EM_STAT port) EM_STAT_LOCAL_FAULT 0).setF (EM_STAT port)
    EM_STAT_REMOTE_FAULT (b2n remoteFault)).setF (EM_STAT port) EM_STAT_FEC_LOCK
    (b2n (!(d.macMode port == 1 && d.on (EM_CTRL port) EM_CTRL_NOFEC)))).wantHops port)

end Sys2Proof.Machine
end

