-- ==== Sys2Proof/Machine/Ptp.lean ====
section
/-!
DEFINITION. IEEE 1588 on the ports: messages sent and received, the best master choice and the port states
(08_network_and_time R265 to R267, R275).
-/
namespace Sys2Proof.Machine

/-! The configuration (Table 8.10). -/

/-- Bits [hi:lo] of a word of the PTP configuration in force. -/
def Dev.pc (d : Dev) (w hi lo : Nat) : Nat := bits (d.net.ptpCfg.getD w 0) hi lo

/-- CLOCK: 0 off, 1 ordinary slave-only, 2 ordinary master-capable, 3 boundary. -/
def Dev.ptpClock (d : Dev) : Nat := d.pc 0 1 0

/-- A port takes part in PTP. -/
def Dev.ptpOn (d : Dev) (m : Nat) : Bool := d.ptpClock != 0 && decide (m < 20) && bit (d.net.ptpCfg.getD 1 0) m

/-- A port runs peer-to-peer. -/
def Dev.ptpP2p (d : Dev) (m : Nat) : Bool := bit (d.net.ptpCfg.getD 2 0) m

/-- TRANSPORT of a port: 0 UDP over IPv4, 1 UDP over IPv6, 2 IEEE 802.3. -/
def Dev.ptpTransport (d : Dev) (m : Nat) : Nat := (d.net.ptpCfg.getD 4 0 + d.net.ptpCfg.getD 5 0 * 2 ^ 32) / 4 ^ m % 4

/-- The clock identity: the MAC address of the lowest port that takes part, as an EUI-64 (log entry 14). -/
def Dev.clockId (d : Dev) : List Nat :=
  let m := ((List.range 20).find? d.ptpOn).getD 0
  let b := leBytes 6 (d.port m).mac
  b.take 3 ++ [0xFF, 0xFE] ++ b.drop 3

/-! Data sets and the port states (log entry 14). -/

/-- Data sets compared item by item, the lower first. -/
def keyLt : List Nat → List Nat → Bool
  | a :: as, b :: bs => if a < b then true else if b < a then false else keyLt as bs
  | [], _ :: _ => true
  | _, [] => false

/-- The data set of this clock at a port. -/
def Dev.ownKey (d : Dev) (m : Nat) : List Nat :=
  [d.pc 8 7 0, d.pc 8 23 16, d.pc 8 31 24, d.pc 9 15 0, d.pc 8 15 8, beNat d.clockId, 0, beNat d.clockId, m + 1]

/-- The data set of an Announce message. -/
def announceKey (b : List Nat) : List Nat :=
  [beAt b 47 1, beAt b 48 1, beAt b 49 1, beAt b 50 2, beAt b 52 1, beAt b 53 8, beAt b 61 2, beAt b 20 8, beAt b 28 2]

/-- The port that received the best Announce, with its data set. -/
def Dev.bestMaster (d : Dev) : Option (Nat × List Nat) :=
  ((List.range 20).filterMap fun m => if d.ptpOn m then (d.port m).master.map fun k => (m, k) else none).foldl
    (fun acc x => match acc with | none => some x | some a => if keyLt x.2 a.2 then some x else some a) none

/-- What this clock would announce behind a master: one more step, from this clock. -/
def Dev.relayKey (d : Dev) (m : Nat) (k : List Nat) : List Nat :=
  k.take 6 ++ [k.getD 6 0 + 1, beNat d.clockId, m + 1]

/-- The state the best master choice gives a port. -/
def Dev.ptpState (d : Dev) (m : Nat) : Nat :=
  let recv := (d.port m).master
  if !d.ptpOn m then 0
  else if d.ptpClock = 1 then (if recv.isSome then 2 else 1)
  else
    match d.bestMaster with
    | none => 3
    | some (bm, bk) =>
      let beats := match recv with | some k => keyLt (d.ownKey m) k | none => true
      if 1 ≤ d.pc 8 23 16 ∧ d.pc 8 23 16 ≤ 127 then (if beats then 3 else 4)
      else if keyLt (d.ownKey m) bk then 3
      else if m = bm then 2
      else match recv with | some k => if keyLt k (d.relayKey m bk) then 4 else 3 | none => 3

/-- Every port takes the state that the choice gives it. -/
def Dev.ptpDecide (d : Dev) : Dev :=
  (List.range 20).foldl (fun (e : Dev) m => e.setPort m { e.port m with ptp := d.ptpState m }) d

/-- A port is in slave state. -/
def Dev.ptpSlave (d : Dev) : Option Nat := (List.range 20).find? fun m => (d.port m).ptp == 2

/-! Messages. -/

/-- A time in 2^-40 ns as a PTP timestamp, the whole nanoseconds, and the fraction in 2^-16 ns that goes to correctionField. -/
def ptpStamp (t : Nat) : List Nat × Nat :=
  (beBytes 6 (t / secUnits) ++ beBytes 4 (t % secUnits / 2 ^ 40), t % 2 ^ 40 / 2 ^ 24)

/-- The MDI time of a frame that leaves a port now (R266). -/
def Dev.egress (d : Dev) (m : Nat) : Nat := d.tod + d.f (EM_LAT m) EM_LAT_EGRESS_LAT * 2 ^ 24

/-- The MDI time of a frame that has just come in (R266). -/
def Dev.ingress (d : Dev) (m : Nat) : Nat := d.tod - d.f (EM_LAT m) EM_LAT_INGRESS_LAT * 2 ^ 24

/-- A PTP message: the header and its body. -/
def Dev.ptpMsg (d : Dev) (m type seq flags corr interval : Nat) (body : List Nat) : List Nat :=
  [type, 0x12] ++ beBytes 2 (34 + body.length) ++ [d.pc 0 9 2, 0] ++ beBytes 2 flags ++ beBytes 8 corr ++ [0, 0, 0, 0] ++
    d.clockId ++ beBytes 2 (m + 1) ++ beBytes 2 seq ++
    [match type with | 0 => 0 | 1 => 1 | 9 => 3 | _ => 5, interval] ++ body

/-- An event message: Sync, Delay_Req, Pdelay_Req or Pdelay_Resp. -/
def isEvent (type : Nat) : Bool := type < 4

/-- A PTP message as a frame of the port's transport: over IPv4 with a UDP checksum of zero, over IPv6 with the two trailing
bytes of Annex D (R266). -/
def Dev.ptpFrame (d : Dev) (m type : Nat) (msg : List Nat) : List Nat :=
  let p := d.port m
  let peer := type == 2 || type == 3
  let tag := if bit (d.net.ptpCfg.getD 3 0) m then some (d.pc 6 11 0, d.pc 6 14 12) else none
  let port := if isEvent type then 319 else 320
  match d.ptpTransport m with
  | 0 =>
    let g := leNat (if peer then [224, 0, 0, 107] else [224, 0, 1, 129])
    let n := 8 + msg.length
    ethHeader (groupMac false g) p.mac tag 0x0800 ++ ip4Header p.v4 g 17 0 (if peer then 1 else 64) n ++
      beBytes 2 port ++ beBytes 2 port ++ beBytes 2 n ++ [0, 0] ++ msg
  | 1 =>
    let g := leNat ((if peer then [0xFF, 0x02] else [0xFF, 0x0E]) ++ List.replicate 12 0 ++ (if peer then [0, 0x6B] else [1, 0x81]))
    let u := udpPacket true p.v6a g port port (msg ++ [0, 0])
    ethHeader (groupMac true g) p.mac tag 0x86DD ++ ip6Header p.v6a g 17 0 (if peer then 1 else 64) u.length ++ u
  | _ => ethHeader (leNat (if peer then [0x01, 0x80, 0xC2, 0, 0, 0x0E] else [0x01, 0x1B, 0x19, 0, 0, 0])) p.mac tag 0x88F7 ++ msg

/-- The next sequenceId of a message type of a port. -/
def Dev.nextSeq (d : Dev) (m type : Nat) : Nat × Dev :=
  let p := d.port m
  let n := tget (fun _ => 0) p.ptpSeq type
  (n, d.setPort m { p with ptpSeq := tset (fun _ => 0) p.ptpSeq type ((n + 1) % 65536) })

/-- A PTP message leaves a port. -/
def Dev.sendPtp (d : Dev) (m type : Nat) (msg : List Nat) : Dev := d.sendControl m (d.ptpFrame m type msg)

/-- The body of an Announce: the grandmaster, which is this clock or the master it follows (a boundary clock). -/
def Dev.announceBody (d : Dev) (m : Nat) : List Nat :=
  let own := d.ownKey m
  let k := match d.ptpSlave, d.bestMaster with
    | some _, some (_, bk) => d.relayKey m bk
    | _, _ => own
  List.replicate 10 0 ++ beBytes 2 (wrapN 16 d.net.utc) ++ [0, k.getD 0 0, k.getD 1 0, k.getD 2 0] ++ beBytes 2 (k.getD 3 0) ++
    [k.getD 4 0] ++ beBytes 8 (k.getD 5 0) ++ beBytes 2 (k.getD 6 0) ++ [0x20]

/-- Flags of an Announce: PTP time scale, and whether the UTC offset is valid. -/
def Dev.announceFlags (d : Dev) : Nat := 8 + 4 * b2n d.net.utcValid

/-- PTP_MESSAGE_TX (R265, R266): the interval of a message type has run out on a port whose state sends it: 0 Sync, 1 Delay_Req,
2 Pdelay_Req, 11 Announce. -/
def Dev.ptpTx (d : Dev) (m type : Nat) : Dev :=
  let st := (d.port m).ptp
  let may := match type with
    | 0 => st == 3
    | 11 => st == 3
    | 1 => st == 2 && !d.ptpP2p m
    | 2 => st != 0 && d.ptpP2p m
    | _ => false
  if !may then d
  else
    let n := d.nextSeq m type
    let t := ptpStamp (d.egress m)
    let iv := match type with | 0 => d.pc 7 3 0 | 11 => d.pc 7 15 12 | _ => 0
    let ivb := if type = 0 ∨ type = 11 then wrapN 8 (sext 4 iv) else 0x7F
    if type = 11 then n.2.sendPtp m 11 (d.ptpMsg m 11 n.1 d.announceFlags 0 ivb (d.announceBody m))
    else n.2.sendPtp m type (d.ptpMsg m type n.1 0 t.2 ivb (t.1 ++ (if type = 2 then List.replicate 10 0 else [])))

/-- Meaning of PTP_MESSAGE_TX. -/
def execPtpMessageTx (port kind : Nat) (s : State) : Host.Outcome State Fault Refusal := nextDev s (s.dev.ptpTx port kind)

/-- An Announce from another clock: it becomes the port's master when it is the better one or the same sender, the history of
measurements is cleared when the master changes, and the states are chosen anew (R267). -/
def Dev.announce (d : Dev) (m : Nat) (b : List Nat) : Dev :=
  let k := announceKey b
  let p := d.port m
  if (b.drop 20).take 8 = d.clockId then d
  else
    let take := match p.master with | none => true | some o => keyLt k o || o.drop 7 == k.drop 7
    if !take then d
    else
      let same := match p.master with | some o => o.drop 7 == k.drop 7 | none => false
      let d1 := (d.setPort m { p with master := some k, hist := if same then p.hist else [] }).ptpDecide
      if (d1.port m).ptp = 2 ∧ bit (beAt b 6 2) 2 then
        { d1 with net := { d1.net with utc := sext 16 (beAt b 44 2), utcValid := true } }
      else d1

/-- A PTP message received on a port: more than 1,024 in a second of the time of day are dropped and counted; an Announce goes to
the best master choice, a Delay_Req at a master and a Pdelay_Req at a peer-to-peer port are answered; stamps of Sync and of the
responses reach the clock in OFFSET_MEASUREMENT (R266, R267). -/
def Dev.ptpRx (d : Dev) (m : Nat) (b : List Nat) : Dev :=
  let p := d.port m
  let n := if p.sec = d.todSec then p.ptpCount else 0
  let e := if p.sec = d.todSec then p.echoCount else 0
  if n ≥ 1024 then (d.setPort m { p with sec := d.todSec, ptpCount := n, echoCount := e }).cntF (EMC_PTP m) HI32 1
  else
    let d1 := d.setPort m { p with sec := d.todSec, ptpCount := n + 1, echoCount := e }
    if !d.ptpOn m ∨ b.length < 34 ∨ beAt b 1 1 % 16 ≠ 2 ∨ beAt b 4 1 ≠ d.pc 0 9 2 then d1
    else
      let t := ptpStamp (d1.ingress m)
      let who := (b.drop 20).take 10
      match beAt b 0 1 % 16 with
      | 11 => d1.announce m b
      | 1 =>
        if p.ptp = 3 ∧ !d.ptpP2p m then
          let corr := (beAt b 8 8 + 2 ^ 64 - t.2) % 2 ^ 64
          d1.sendPtp m 9 (d1.ptpMsg m 9 (beAt b 30 2) 0 corr (wrapN 8 (sext 4 (d.pc 7 7 4))) (t.1 ++ who))
        else d1
      | 2 =>
        if d.ptpP2p m then
          let corr := (beAt b 8 8 + (d1.egress m - d1.ingress m) / 2 ^ 24) % 2 ^ 64
          d1.sendPtp m 3 (d1.ptpMsg m 3 (beAt b 30 2) 0 corr 0x7F (List.replicate 10 0 ++ who))
        else d1
      | _ => d1

end Sys2Proof.Machine
end

