-- ==== Sys2Proof/Machine/Time.lean ====
section
/-!
DEFINITION. The time-stamp unit, pulse outputs and the time commands (08_network_and_time R259 to R269, R275).
-/
namespace Sys2Proof.Machine

/-- The time of day moved by picoseconds of phase (R295). -/
def Dev.moveTod (d : Dev) (ps : Int) : Dev := { d with tod := ((d.tod : Int) + ps * 2 ^ 40 / 1000).toNat }

/-- PH_SLEW in ps/s, held to 1 to 1,000,000. -/
def Dev.phSlew (d : Dev) : Nat := clampN 1 1000000 (d.f TIM_PHSLEW TIM_PHSLEW_PH_SLEW)

/-- One nanosecond of a slewed phase step: each whole picosecond worked off moves from the remainder to the total, and the time of
day with it (R295). -/
def Dev.slewPhase (d : Dev) : Dev :=
  let rem := sext 64 (d.rdN TIM_PHREM)
  if rem = 0 then d
  else
    let acc := d.tim.slewAcc + d.phSlew
    let d1 := { d with tim := { d.tim with slewAcc := acc % 10 ^ 9 } }
    if acc < 10 ^ 9 then d1
    else
      let k : Int := if rem > 0 then 1 else -1
      ((d1.wrN TIM_PHREM (wrapN 64 (rem - k))).wrN TIM_PHTOT (wrapN 64 (sext 64 (d1.rdN TIM_PHTOT) + k))).moveTod k

/-- One TSCLK cycle: the time of day advances by 1 ns and the slew (R259, R262), and a phase step is worked off. -/
def Dev.tick (d : Dev) : Dev :=
  ({ d with now := d.now + 1, tod := (((d.tod + 2 ^ 40 : Nat) : Int) + d.net.slew * 2 ^ 24 / 10 ^ 9).toNat } : Dev).slewPhase

/-- A time of day that registers laid out as TSU_TOD_SEC and TSU_TOD_NS give, in 2^-40 ns. -/
def todOf (sec nsFrac : Nat) : Nat := sec % 2 ^ 48 * secUnits + nsFrac % 2 ^ 48 * 2 ^ 24

/-! Pulse outputs (R268, R269). -/

/-- A pulse output: edges fired, next edge and level. -/
def Dev.pulse (d : Dev) (p : Nat) : Nat × Option Nat × Bool := tget (fun _ => (0, none, false)) d.net.pulse p

/-- A pulse output given a state; PEND follows its next edge. -/
def Dev.setPulse (d : Dev) (p : Nat) (x : Nat × Option Nat × Bool) : Dev :=
  ({ d with net := { d.net with pulse := tset (fun _ => (0, none, false)) d.net.pulse p x } } : Dev).setF (PO_CTRL p) PO_CTRL_PEND
    (b2n x.2.1.isSome)

/-- START of a pulse output in 2^-40 ns. -/
def Dev.pulseStart (d : Dev) (p : Nat) : Nat := todOf (d.rdN (PO_START_SEC p)) (d.rdN (PO_START_NS p))

/-- PERIOD in nanoseconds. -/
def Dev.pulsePeriod (d : Dev) (p : Nat) : Nat := d.f (PO_PERIOD p) PO_PERIOD_PERIOD

/-- Width of a pulse in 2^-40 ns: a WIDTH not below PERIOD acts as half PERIOD, rounded down to 10 ns. -/
def Dev.pulseWidth (d : Dev) (p : Nat) : Nat :=
  let w := d.f (PO_CTRL p) PO_CTRL_WIDTH * 10
  let per := d.pulsePeriod p
  (if d.f (PO_CTRL p) PO_CTRL_MODE = 2 ∧ w ≥ per then per / 2 / 10 * 10 else w) * 2 ^ 40

/-- Edges counted as missed, and MISSED set. -/
def Dev.pulseMiss (d : Dev) (p n : Nat) : Dev := (d.cntF (PO_CNT p) HI32 n).setF (PO_CTRL p) PO_CTRL_MISSED 1

/-- The pin of a pulse output at a level; POL 1 inverts it. -/
def Dev.pulsePin (d : Dev) (p : Nat) (active : Bool) : Dev := d.emit .pin p [b2n active ^^^ d.f (PO_CTRL p) PO_CTRL_POL]

/-- PULSE_EDGE (R268): a pulse begins at its programmed time of day while VALID is 1, or ends after its width. -/
def Dev.pulseEdge (d : Dev) (p : Nat) : Dev :=
  let x := d.pulse p
  let mode := d.f (PO_CTRL p) PO_CTRL_MODE
  let per := d.pulsePeriod p * 2 ^ 40
  if p ≥ 8 then d
  else if x.2.2 then
    let began := match x.2.1 with | some t => t - per | none => d.pulseStart p
    if d.tod < began + d.pulseWidth p then d else (d.setPulse p (x.1, x.2.1, false)).pulsePin p false
  else
    match x.2.1 with
    | none => d
    | some t =>
      if !d.on TSU_CTRL TSU_CTRL_VALID || decide (d.tod < t) then d
      else ((d.setPulse p (x.1 + 1, if mode = 2 then some (t + per) else none, true)).cntF (PO_CNT p) LO32 1).pulsePin p true

/-- Meaning of PULSE_EDGE. -/
def execPulseEdge (p : Nat) (s : State) : Host.Outcome State Fault Refusal := .next { s with dev := s.dev.pulseEdge p }

/-- A step of the time of day forward past edges skips and counts them; a once pulse that it passes is missed (R269). -/
def Dev.pulsesStepped (d : Dev) : Dev :=
  (List.range 8).foldl
    (fun (e : Dev) p =>
      let x := e.pulse p
      let per := e.pulsePeriod p * 2 ^ 40
      match x.2.1 with
      | none => e
      | some t =>
        if e.tod < t then e
        else if e.f (PO_CTRL p) PO_CTRL_MODE = 2 ∧ per ≠ 0 then
          let n := (e.tod - t) / per + 1
          (e.setPulse p (x.1, some (t + n * per), x.2.2)).cntF (PO_CNT p) HI32 n
        else (e.setPulse p (x.1, none, x.2.2)).pulseMiss p 1) d

/-! Offset measurements (R261 to R263, R267). -/


/-- Insertion of a value among values in rising order. -/
def insI (x : Int) : List Int → List Int
  | [] => [x]
  | y :: r => if x ≤ y then x :: y :: r else y :: insI x r

/-- The median of eight values: the mean of the fourth and fifth in order, doubled to stay whole. -/
def median2 (xs : List Int) : Int :=
  let o := xs.foldl (fun acc x => insI x acc) []
  o.getD 3 0 + o.getD 4 0

/-- The clock is stepped by an offset in 2^-16 ns. -/
def Dev.stepTod (d : Dev) (off : Int) : Dev :=
  ({ d with tod := ((d.tod : Int) - off * 2 ^ 24).toNat } : Dev).pulsesStepped

/-- SLEW_MAX in ppb, held to 1 to 100,000. -/
def Dev.slewMax (d : Dev) : Nat := clampN 1 100000 (d.f TSU_SLEW TSU_SLEW_SLEW_MAX)

/-- STEP_LIMIT in nanoseconds, held to 1,000 to 10^9. -/
def Dev.stepLimit (d : Dev) : Nat := clampN 1000 (10 ^ 9) (d.f TSU_SLEW TSU_SLEW_STEP_LIMIT)

/-- A rate offset applied, in 2^-16 ppb. -/
def Dev.setSlew (d : Dev) (x : Int) : Dev :=
  ({ d with net := { d.net with slew := x } } : Dev).setF TSU_CTRL TSU_CTRL_SLEWING (b2n (x != 0))

/-- The reference code of the PTP virtual reference (Table 9.2). -/
def REF_PTP : Nat := 6

/-- A measured offset in 2^-16 ns, from which the total of phase steps is excluded (R295): the first step after the timing core
first reached lock, an armed step, or correction by rate alone, which the DPLL does when its reference is PTP (R261 to R263). -/
def Dev.measured (d : Dev) (raw : Int) : Dev :=
  let off := raw - sext 64 (d.rdN TIM_PHTOT) * 2 ^ 16 / 1000
  let d1 := d.wrN TSU_OFFSET (wrapN 64 off)
  if !d.net.stepped then
    if d.tim.reached then
      ({ d1.stepTod off with net := { (d1.stepTod off).net with stepped := true } } : Dev).setF TSU_CTRL TSU_CTRL_VALID 1
    else d1
  else if d.on TSU_CTRL TSU_CTRL_STEP_ARM then ((d1.stepTod off).setF TSU_CTRL TSU_CTRL_STEP_ARM 0).setSlew 0
  else
    let big := decide (off.natAbs > d.stepLimit * 2 ^ 16)
    let d2 := if big && !d.on TSU_CTRL TSU_CTRL_OFFSET_LARGE then (d1.setF TSU_CTRL TSU_CTRL_OFFSET_LARGE 1).raise 0x0201 0xFF 0 off.natAbs else d1
    if d.f TIM_STAT TIM_STAT_SEL = REF_PTP then d2.setSlew 0
    else d2.setSlew (clampI (-(d.slewMax * 2 ^ 16 : Nat)) (d.slewMax * 2 ^ 16 : Nat) (-off))

/-- OFFSET_MEASUREMENT: times in 2^-16 ns, correction fields removed. For PTP, t1 and t4 are the master's stamps, t2 and t3 the
internal times of the port, and `delay` is the mean peer delay of a peer-to-peer port; for PPS, t2 is the stamp of an edge of the
pin, which bears the label of TIME_SET; for TIME_SET alone, the label is the time of day now (R261, R266, R267, log entry 16). -/
def Dev.offsetMeasurement (d : Dev) (m : Nat) (t1 t2 t3 t4 delay : Int) : Dev :=
  match d.f TSU_CTRL TSU_CTRL_SRC with
  | 1 =>
    let p := d.port m
    if p.ptp ≠ 2 then d
    else
      let r := t2 - d.f (EM_LAT m) EM_LAT_INGRESS_LAT
      let x := t3 + d.f (EM_LAT m) EM_LAT_EGRESS_LAT
      let mean := if d.ptpP2p m then delay else ((r - t1) + (t4 - x)) / 2
      let off := r - t1 - mean - sext 32 (d.f (EM_ASYM m) EM_ASYM_ASYM)
      let out := p.hist.length == 8 && decide ((2 * off - median2 p.hist).natAbs > 2 * 1000 * 2 ^ 16)
      let d1 := d.setPort m { p with hist := (off :: p.hist).take 8, mean := if out then p.mean else mean }
      if out then d1.cntF (EMC_PTP m) LO32 1 else d1.measured off
  | 0 =>
    if !d.net.labelNew then d
    else
      ({ d with net := { d.net with labelNew := false } } : Dev).measured ((d.tod / 2 ^ 24 : Nat) - (d.net.label * 10 ^ 9 * 2 ^ 16 : Nat))
  | _ => ({ d with net := { d.net with label := d.net.label + 1 } } : Dev).measured (t2 - (d.net.label * 10 ^ 9 * 2 ^ 16 : Nat))

/-- Meaning of OFFSET_MEASUREMENT. -/
def execOffsetMeasurement (port : Nat) (t1 t2 t3 t4 delay : Int) (s : State) : Host.Outcome State Fault Refusal :=
  .next { s with dev := s.dev.offsetMeasurement port t1 t2 t3 t4 delay }

/-! Registers (R260, R263). -/

/-- The place in the latch table where TSU_TOD_SEC leaves the nanoseconds for the next read of TSU_TOD_NS. -/
def TOD_LATCH : Nat := TSU_TOD_NS + 1

/-- A read of TSU_TOD_SEC gives the seconds and latches TSU_TOD_NS (R260). -/
def Dev.readTodSec (d : Dev) : Nat × Dev :=
  (d.todSec, { d with latch := tset (fun _ => none) d.latch TOD_LATCH (some d.todNsFrac) })

/-- A read of TSU_TOD_NS gives the latched value once, and otherwise the present one. -/
def Dev.readTodNs (d : Dev) : Nat × Dev :=
  match tget (fun _ => none) d.latch TOD_LATCH with
  | some v => (v, { d with latch := tset (fun _ => none) d.latch TOD_LATCH none })
  | none => (d.todNsFrac, d)

/-- TSU_TOD_SEC_READ. -/
def execTsuTodSecRead (s : State) : Host.Outcome State Fault Refusal := nextDev s (
  let r := s.dev.readTodSec
  { r.2 with host := { r.2.host with rsp := { kind := .ok, data := leBytes 8 r.1 } } })

/-- STEP_ARM: a step is armed for the next measurement. -/
def execStepArm (s : State) : Host.Outcome State Fault Refusal := nextDev s (s.dev.setF TSU_CTRL TSU_CTRL_STEP_ARM 1)

/-! Commands. -/

/-- A signed 4-bit interval exponent lies between two limits. -/
def logOk (lo hi : Int) (x : Nat) : Bool := decide (lo ≤ sext 4 x ∧ sext 4 x ≤ hi)

/-- PTP_CONFIG (Table 8.10, R265, R275). -/
def ptpConfigDef : CmdDef where
  op := 0x0806
  masks := fun _ => [0x3FF, 0xFFFFF, 0xFFFFF, 0xFFFFF, 0xFFFFFFFF, 0xFF, 0x7FFF, 0x00FFFFFF, 0xFFFFFFFF, 0xFFFF]
  bad := fun c s =>
    let ports := (List.range 20).filter fun m => bit (c.p 1) m
    (List.range 20).any (fun m => c.q 4 / 4 ^ m % 4 == 3) || !logOk (-7) 4 (c.b 7 3 0) || !logOk (-7) 4 (c.b 7 7 4) ||
      !logOk (-7) 4 (c.b 7 11 8) || !logOk (-3) 4 (c.b 7 15 12) || c.b 7 23 16 < 2 || ports.any (fun m => s.dev.macMode m == 0) ||
      (c.b 0 1 0 == 1 && ports.length != 1) || (c.b 0 1 0 == 2 && ports.length != 1) || (c.b 0 1 0 == 3 && ports.isEmpty)
  run := onDev fun c s =>
    let d := s.dev
    let d1 := { d with net := { d.net with ptpCfg := (List.range 10).map c.p } }
    let d2 := (List.range 20).foldl
      (fun (e : Dev) m => e.setPort m { e.port m with master := none, hist := [], ptpSeq := [], ptp := if d1.ptpOn m then 1 else 0 }) d1
    okR [] d2

/-- PTP_STATUS: UTC offset and its validity, the clock identity, and for each port its state, master identity, last offset and mean
delay. -/
def ptpStatusDef : CmdDef where
  op := 0x0807
  run := onDev fun _ s =>
    let d := s.dev
    let port := fun m =>
      let p := d.port m
      let id := (p.master.map fun k => k.getD 7 0).getD 0
      [p.ptp] ++ lohi id ++ lohi (wrapN 64 (p.hist.headD 0)) ++ lohi (wrapN 64 p.mean)
    okR ([wrapN 32 d.net.utc, b2n d.net.utcValid] ++ lohi (beNat d.clockId) ++ (List.range 20).flatMap port) d

/-- TIME_SET: word 0 [1:0] SRC, [2] a label follows, [3] a UTC offset follows, [4] STEP_ARM; words 1 and 2 the label in seconds; 3 the
UTC offset (R261, R263, log entry 8). -/
def timeSetDef : CmdDef where
  op := 0x0808
  masks := fun _ => [0x1F, 0xFFFFFFFF, 0xFFFF, 0xFFFFFFFF]
  run := onDev fun c s =>
    let d := s.dev
    let writing := [2, 3].contains (d.f CAP_STAT CAP_STAT_STATE) || d.f CAP_STAT CAP_STAT_STATE == 1
    if bit (c.p 0) 4 && (d.run.active || d.front.running || writing) then noR .badState d
    else
      let d1 := d.setF TSU_CTRL TSU_CTRL_SRC (c.b 0 1 0)
      let d2 := if bit (c.p 0) 2 then { d1 with net := { d1.net with label := c.q 1 % 2 ^ 48, labelNew := true } } else d1
      let d3 := if bit (c.p 0) 3 then { d2 with net := { d2.net with utc := sext 32 (c.p 3), utcValid := true } } else d2
      okR [] (if bit (c.p 0) 4 then d3.setF TSU_CTRL TSU_CTRL_STEP_ARM 1 else d3)

/-- TIME_GET: the time of day, TSU_CTRL, the last offset, the rate offset and the UTC offset. -/
def timeGetDef : CmdDef where
  op := 0x0809
  run := onDev fun _ s =>
    let d := s.dev
    okR (lohi d.todSec ++ lohi d.todNsFrac ++ [d.rdN TSU_CTRL] ++ lohi (d.rdN TSU_OFFSET) ++ lohi (wrapN 64 d.net.slew) ++
      [wrapN 32 d.net.utc]) d

/-- PULSE_SET: word 0 [2:0] output, [4:3] MODE, [5] POL, [31:8] WIDTH; words 1 and 2 START seconds; 3 and 4 START nanoseconds and
fraction; 5 and 6 PERIOD (R268, R269, log entry 8). -/
def pulseSetDef : CmdDef where
  op := 0x080A
  masks := fun _ => [0xFFFFFF3F, 0xFFFFFFFF, 0xFFFF, 0xFFFFFFFF, 0xFFFF, 0xFFFFFFFF, 0xFF]
  bad := fun c _ =>
    let mode := c.b 0 4 3
    (mode == 1 || mode == 2) && (c.b 0 31 8 == 0 || c.q 3 / 2 ^ 16 ≥ 10 ^ 9) ||
      (mode == 2 && (c.q 5 < 100 || c.q 5 > 10 ^ 12))
  run := onDev fun c s =>
    let d := s.dev
    let p := c.b 0 2 0
    let mode := c.b 0 4 3
    if !d.on TSU_CTRL TSU_CTRL_VALID then noR .badState d
    else
      let miss := d.f (PO_CTRL p) PO_CTRL_MISSED
      let d1 := ((((d.wrN (PO_CTRL p) (mode + c.b 0 5 5 * 4 + miss * 16 + c.b 0 31 8 * 256)).wrN (PO_START_SEC p) (c.q 1)).wrN
        (PO_START_NS p) (c.q 3)).wrN (PO_PERIOD p) (c.q 5))
      let start := d1.pulseStart p
      let n := (d.pulse p).1
      if mode = 0 ∨ mode = 3 then okR [] ((d1.setPulse p (n, none, false)).pulsePin p false)
      else if start < d.tod + 1000 * 2 ^ 40 then noR .badState ((d1.setPulse p (n, none, false)).pulseMiss p 1)
      else okR [] ((d1.setPulse p (n, some start, false)).pulsePin p false)

/-- PORT_DELAY: word 0 [4:0] MAC, 1 INGRESS_LAT, 2 EGRESS_LAT, 3 ASYM (log entry 8). -/
def portDelayDef : CmdDef where
  op := 0x080B
  masks := fun _ => [0x1F, 0xFFFFFFFF, 0xFFFFFFFF, 0xFFFFFFFF]
  bad := fun c _ => c.b 0 4 0 > 19
  run := onDev fun c s =>
    let m := c.b 0 4 0
    okR [] ((s.dev.wrN (EM_LAT m) (c.q 1)).wrN (EM_ASYM m) (c.p 3))

/-- Meanings of the time commands. -/
def execPtpConfig (slot : Nat) (s : State) : Host.Outcome State Fault Refusal := .next (serve ptpConfigDef slot 0 0 s)
def execPtpStatus (slot : Nat) (s : State) : Host.Outcome State Fault Refusal := .next (serve ptpStatusDef slot 0 0 s)
def execTimeSet (slot : Nat) (s : State) : Host.Outcome State Fault Refusal := .next (serve timeSetDef slot 0 0 s)
def execTimeGet (slot : Nat) (s : State) : Host.Outcome State Fault Refusal := .next (serve timeGetDef slot 0 0 s)
def execPulseSet (slot : Nat) (s : State) : Host.Outcome State Fault Refusal := .next (serve pulseSetDef slot 0 0 s)
def execPortDelay (slot : Nat) (s : State) : Host.Outcome State Fault Refusal := .next (serve portDelayDef slot 0 0 s)

end Sys2Proof.Machine
end

