-- ==== Sys2Proof/Machine/Timing.lean ====
section
/-!
DEFINITION. The timing core: references and their qualification, selection and switching, holdover and its model, phase steps,
and SYSREF outputs (09_timing_core R276 to R298).
-/
namespace Sys2Proof.Machine

/-! States (Table 9.3). -/

def TS_FREERUN : Nat := 0
def TS_ACQUIRE : Nat := 1
def TS_NARROW : Nat := 2
def TS_LOCKED : Nat := 3
def TS_SWITCH : Nat := 4
def TS_HOLDOVER : Nat := 5
def TS_HOLDOVER_POOR : Nat := 6
def TS_XO_FAULT : Nat := 0x0F

/-- The timing state. -/
def Dev.timSt (d : Dev) : Nat := d.f TIM_STAT TIM_STAT_STATE

/-- The timing state set, and reported in DEVSTAT; NARROW and LOCKED are lock (R286, R287). -/
def Dev.setTim (d : Dev) (st : Nat) : Dev :=
  let d1 := (d.setF TIM_STAT TIM_STAT_STATE st).setStat DEVSTAT_TIMING st
  if st = TS_NARROW ∨ st = TS_LOCKED then { d1 with tim := { d1.tim with reached := true } } else d1

/-- The selected reference, 15 for none. -/
def Dev.timSel (d : Dev) : Nat := d.f TIM_STAT TIM_STAT_SEL

/-- Qualification state of a reference. -/
def Dev.qstate (d : Dev) (r : Nat) : Nat := d.f (TIM_REFSTAT r) TIM_REFSTAT_QSTATE

/-- A reference is qualified: also while its soft window runs (R279, R280). -/
def Dev.qualified (d : Dev) (r : Nat) : Bool := decide (r < 8) && (d.qstate r == 1 || d.qstate r == 3)

/-! The holdover model (R288 to R291). -/

/-- The oscillator temperature θ in 0.01 °C: the external one, or that of TS_51, the sensor nearest XO_IN (R290). -/
def Dev.xoTemp (d : Dev) : Int :=
  if d.on TIM_STAT TIM_STAT_TEMP_EXT then sext 32 (d.rdN TIM_XO_TEMP) else sext 16 (d.f (TH_SENS 51) TH_SENS_TEMP)

/-- f_T between neighbouring points of a temperature table, and constant beyond its ends (R290). -/
def tempFit (x : Int) : List (Int × Int) → Int
  | [] => 0
  | [p] => p.2
  | p :: q :: r =>
    if x ≤ p.1 then p.2
    else if x ≤ q.1 then p.2 + roundDiv ((q.2 - p.2) * (x - p.1)) (q.1 - p.1).toNat
    else tempFit x (q :: r)

/-- Fractional bits of a base-2 logarithm by repeated squaring of a number in [1, 2) at 2^62. -/
def logBits : Nat → Nat → Nat → Nat
  | 0, _, acc => acc
  | n + 1, m, acc =>
    let s := m * m / 2 ^ 62
    if s ≥ 2 ^ 63 then logBits n (s / 2) (2 * acc + 1) else logBits n s (2 * acc)

/-- ln of x / 2^32 for x ≥ 2^32, in units of 2^-32. -/
def lnFix (x : Nat) : Nat :=
  let l := Nat.log2 x
  ((l - 32) * 2 ^ 32 + logBits 32 (x * 2 ^ 62 / 2 ^ l) 0) * 2977044472 / 2 ^ 32

/-- The three functions 1, t and ln(1 + t) of the ageing model at a time, in units of 2^-32; t counts days from an origin. -/
def ageBasis (t0 t : Nat) : Int × Int × Int :=
  let x := (t - t0) * 2 ^ 32 / 86400
  ((2 ^ 32 : Nat), (x : Nat), (lnFix (x + 2 ^ 32) : Nat))

/-- The ageing model A(t) in 10^-16; its coefficients are in units of 2^-64 of the functions of `ageBasis` (R291). -/
def History.age (h : History) (t : Nat) : Int :=
  if !h.modelValid then 0
  else
    let f := ageBasis h.ts t
    (h.a * f.1 + h.b * f.2.1 + h.c * f.2.2) / 2 ^ 64

/-- The determinant of a matrix of three rows. -/
def det3 (r s t : Int × Int × Int) : Int :=
  r.1 * (s.2.1 * t.2.2 - s.2.2 * t.2.1) - r.2.1 * (s.1 * t.2.2 - s.2.2 * t.1) + r.2.2 * (s.1 * t.2.1 - s.2.1 * t.1)

/-- A sum over observations. -/
def sumI {α : Type} (f : α → Int) (xs : List α) : Int := (xs.map f).foldl (· + ·) 0

/-- Coefficients of a, b and c by least squares over observations of (functions, value), in units of 2^-64; c is zero unless asked
for (R291). Rounding is to nearest (log entry 18). -/
def ageFit (withC : Bool) (xs : List ((Int × Int × Int) × Int)) : Int × Int × Int :=
  let s := fun (g : (Int × Int × Int) → Int) => sumI (fun (x : (Int × Int × Int) × Int) => g x.1) xs
  let v := fun (g : (Int × Int × Int) → Int) => sumI (fun (x : (Int × Int × Int) × Int) => g x.1 * x.2) xs
  let ff := s fun f => f.1 * f.1
  let ft := s fun f => f.1 * f.2.1
  let fl := s fun f => f.1 * f.2.2
  let tt := s fun f => f.2.1 * f.2.1
  let tl := s fun f => f.2.1 * f.2.2
  let ll := s fun f => f.2.2 * f.2.2
  let r := if withC then ((ff, ft, fl), (ft, tt, tl), (fl, tl, ll)) else ((ff, ft, 0), (ft, tt, 0), (0, 0, 1))
  let w : Int × Int × Int := (v (·.1), v (·.2.1), if withC then v (·.2.2) else 0)
  let det := det3 r.1 r.2.1 r.2.2
  let q := fun (n : Int) => if det = 0 then 0 else roundDiv (n * 2 ^ 64 * (if det < 0 then -1 else 1)) det.natAbs
  (q (det3 (w.1, r.1.2) (w.2.1, r.2.1.2) (w.2.2, r.2.2.2)),
   q (det3 (r.1.1, w.1, r.1.2.2) (r.2.1.1, w.2.1, r.2.1.2.2) (r.2.2.1, w.2.2, r.2.2.2.2)),
   q (det3 (r.1.1, r.1.2.1, w.1) (r.2.1.1, r.2.1.2.1, w.2.1) (r.2.2.1, r.2.2.2.1, w.2.2)))

/-- The model fitted after a daily entry (R291). -/
def History.fit (h : History) : History :=
  let t0 := ((h.days.head?).map (·.t)).getD 0
  let span := match h.days.getLast? with | some x => x.t - t0 | none => 0
  let ob := fun (x : HistRec) => (ageBasis t0 x.t, x.off)
  if h.days.length ≥ 14 ∧ span ≥ 14 * 86400 then
    let c := ageFit true (h.days.map ob)
    { h with ts := t0, a := c.1, b := c.2.1, c := c.2.2, modelValid := true }
  else if h.hours.length ≥ 48 then
    let c := ageFit false ((h.hours ++ h.days).map ob)
    { h with ts := t0, a := c.1, b := c.2.1, c := 0, modelValid := true }
  else { h with ts := t0, a := 0, b := 0, c := 0, modelValid := false }

/-- The mean of records' offsets and times. -/
def meanRec (xs : List HistRec) : Int × Nat :=
  if xs.isEmpty then (0, 0)
  else (roundDiv (sumI (·.off) xs) xs.length, (xs.map (·.t)).foldl (· + ·) 0 / xs.length)

/-- HO_AVG in seconds. -/
def Dev.hoAvg (d : Dev) : Nat := clampN 10 86400 (d.f TIM_HO TIM_HO_HO_AVG)

/-- The records of the window that ends at a moment, and the mean that holdover starts from: the window's, or with no record the
latest daily mean (R289). -/
def Dev.hoWindow (d : Dev) (tEnd : Nat) : Nat × Int × Nat :=
  let xs := d.ret.hist.secs.filter fun x => decide (x.t < tEnd ∧ tEnd ≤ x.t + d.hoAvg)
  if xs.isEmpty then match d.ret.hist.days.getLast? with | some x => (0, x.off, x.t) | none => (0, 0, 0)
  else let m := meanRec xs; (xs.length, m.1, m.2)

/-- The holdover prediction now from a mean and its time (R289). -/
def Dev.predict (d : Dev) (z : Int) (t : Nat) : Int :=
  z + d.ret.hist.age d.todSec - d.ret.hist.age t + tempFit d.xoTemp d.ret.hist.tempTab

/-- Holdover begins with a window that ends at a moment (R287, R289). -/
def Dev.enterHoldover (d : Dev) (tEnd : Nat) : Dev :=
  let w := d.hoWindow tEnd
  let d1 := { d with tim := { d.tim with hoEnd := tEnd, hoMean := w.2.1, hoTime := w.2.2, y := d.predict w.2.1 w.2.2, hoSecs := 0,
                                         hoNoted := false } }
  (((d1.setTim (if w.1 < 60 then TS_HOLDOVER_POOR else TS_HOLDOVER)).setF TIM_STAT TIM_STAT_SEL 15).setF TIM_STAT
    TIM_STAT_BW_STEP 0).cntF TIMC_HOLDOVER LO32 1

/-! Selection and switching (R281 to R284). -/

/-- The reference that the force and the priority table select now, 15 for none. -/
def Dev.pickRef (d : Dev) : Nat :=
  let force := d.f TIM_CTRL TIM_CTRL_FORCE
  let first := ((List.range 8).map fun e => d.rdN TIM_PRIO / 16 ^ e % 16).find? d.qualified
  if d.qualified force then force
  else if d.qualified d.timSel && !d.on TIM_CTRL TIM_CTRL_REVERT then d.timSel
  else match first with
    | some r => r
    | none => if d.qualified d.timSel then d.timSel else 15

/-- A change of selection is committed: a switch between two references, or acquisition from FREERUN or holdover (R282, R285). -/
def Dev.commitRef (d : Dev) (r : Nat) : Dev :=
  let locked := [TS_ACQUIRE, TS_NARROW, TS_LOCKED, TS_SWITCH].contains d.timSt
  let d1 := (d.setF TIM_STAT TIM_STAT_SEL r).setF TIM_STAT TIM_STAT_BW_STEP 0
  if locked then (d1.setTim TS_SWITCH).cnt TIMC_SWITCHES 1 else d1.setTim TS_ACQUIRE

/-- The selection is looked at again: at once, or after the switch that runs (R281, R282). `tEnd` ends the window of a holdover that
begins because no reference is left. -/
def Dev.reselect (d : Dev) (lost : Bool) (tEnd : Nat) : Dev :=
  if d.timSt = TS_XO_FAULT then d
  else if d.timSt = TS_SWITCH ∧ !lost then { d with tim := { d.tim with held := true } }
  else
    let r := d.pickRef
    if r = d.timSel then d
    else if r < 8 then d.commitRef r
    else if d.timSel < 8 then d.enterHoldover tEnd
    else d

/-- The moment after the last recorded entry. -/
def Dev.lastRec (d : Dev) : Nat := match d.ret.hist.secs.getLast? with | some x => x.t + 1 | none => 0

/-- The sample clocks that come from a reference are faulted or return: TIM_SNG.FAULT, the inputs of the front, and its JESD204C
links (R118, R297, R74). -/
def Dev.sngFault (d : Dev) (r : Nat) (on : Bool) : Dev :=
  (List.range 8).foldl
    (fun (e : Dev) g =>
      if e.f (TIM_SNG_DEN g) TIM_SNG_DEN_SRC_REF ≠ r then e
      else
        let e1 := e.setF (TIM_SNG_DEN g) TIM_SNG_DEN_FAULT (b2n on)
        let v := e1.front.clkFault
        let e2 := { e1 with front := { e1.front with clkFault := if on then v ||| 2 ^ g else if bit v g then v - 2 ^ g else v } }
        if !on then e2
        else ((e2.front.inputs.filter fun x => x.sng == g && x.kind == 1).map fun x => x.srcId % 256).eraseDups.foldl
          (fun (e : Dev) k => e.jesdFault k) e2) d

/-- A reference is disqualified (R277, R279, R283, R284): it is counted unless it was disqualified already or in proofing, its force
is dropped, and the selection follows. -/
def Dev.disqualify (d : Dev) (r tEnd : Nat) : Dev :=
  let q := d.qstate r
  let d1 := (d.setF (TIM_REFSTAT r) TIM_REFSTAT_QSTATE 4).setF (TIM_REFSTAT r) TIM_REFSTAT_PROOF_LEFT 0
  let d2 := { d1 with tim := { d1.tim with ts := tset (fun _ => none) d1.tim.ts r none } }
  let d3 := if q = 4 ∨ q = 2 then d2 else (d2.cntF (TIM_DISQUAL r) LO32 1).sngFault r true
  let d4 := if d3.f TIM_CTRL TIM_CTRL_FORCE = r then d3.setF TIM_CTRL TIM_CTRL_FORCE 15 else d3
  d4.reselect (d.timSel == r) (if d.timSt = TS_SWITCH then d.lastRec else tEnd)

/-- A reference qualifies (R280). -/
def Dev.qualify (d : Dev) (r : Nat) : Dev :=
  ((d.setF (TIM_REFSTAT r) TIM_REFSTAT_QSTATE 1).sngFault r false).reselect false d.lastRec

/-- A reference is monitored. -/
def Dev.refOn (d : Dev) (r : Nat) : Bool := decide (r < 8) && d.on (TIM_REF r) TIM_REF_EN

/-- ACTIVITY_FAULT (R277): holdover's window, if it begins, ends with the start of the second before the last complete one. -/
def execActivityFault (r : Nat) (s : State) : Host.Outcome State Fault Refusal := nextDev s (
  if s.dev.refOn r then (s.dev.setF (TIM_REFSTAT r) TIM_REFSTAT_ACT_FAULT 1).disqualify r (s.dev.todSec - 2) else s.dev)

/-- PERIOD_FAULT (R277); PTP has no period monitor (Table 9.2). -/
def execPeriodFault (r : Nat) (s : State) : Host.Outcome State Fault Refusal := nextDev s (
  if s.dev.refOn r ∧ r ≠ REF_PTP then (s.dev.setF (TIM_REFSTAT r) TIM_REFSTAT_PER_FAULT 1).disqualify r (s.dev.todSec - 2) else s.dev)

/-- ANNOUNCE_TIMEOUT: the port has no master any more and leaves slave state, and the timing core sees the PTP reference as failed
(R267). -/
def execAnnounceTimeout (port : Nat) (s : State) : Host.Outcome State Fault Refusal := nextDev s (
  let d := s.dev
  if !d.ptpOn port then d
  else
    let d1 := (d.setPort port { d.port port with master := none, hist := [] }).ptpDecide
    if d.ptpSlave.isSome && d1.ptpSlave.isNone && d1.refOn REF_PTP then
      (d1.setF (TIM_REFSTAT REF_PTP) TIM_REFSTAT_ACT_FAULT 1).disqualify REF_PTP (d1.todSec - 2)
    else d1)

/-- PPS_IN_EDGE (R278): an edge of the programmed polarity whose level holds for PPS_MPW and that comes half a second or more after
the last accepted one is accepted and stamped; any other is counted. -/
def execPpsInEdge (pin : Nat) (rising : Bool) (holdNs : Nat) (s : State) : Host.Outcome State Fault Refusal := nextDev s (
  let d := s.dev
  let early := match tget (fun _ => none) d.tim.ppsAt pin with | some t => decide (d.now < t + 5 * 10 ^ 8) | none => false
  if pin ≥ 2 then d
  else if rising == d.on (TIM_REF (4 + pin)) TIM_REF_POL || decide (holdNs < d.tim.ppsMpw) || early then
    d.cntF TIMC_PPS_IGN (if pin = 0 then LO32 else HI32) 1
  else { d with tim := { d.tim with ppsAt := tset (fun _ => none) d.tim.ppsAt pin (some d.now),
                                    ppsStamp := tset (fun _ => 0) d.tim.ppsStamp pin (d.tod / 2 ^ 24) } })

/-- The clean measurement of a reference that is not qualified: it qualifies at once when it has not been disqualified since boot,
and otherwise by proofing (R280). -/
def Dev.cleanMeasure (d : Dev) (r : Nat) : Dev :=
  let proof := min 3600 (d.f (TIM_REFTH r) TIM_REFTH_PROOF_S)
  let left := d.f (TIM_REFSTAT r) TIM_REFSTAT_PROOF_LEFT
  match d.qstate r with
  | 0 => d.qualify r
  | 2 => if left ≤ 1 then (d.setF (TIM_REFSTAT r) TIM_REFSTAT_PROOF_LEFT 0).qualify r else d.setF (TIM_REFSTAT r) TIM_REFSTAT_PROOF_LEFT (left - 1)
  | 4 => if proof = 0 then d.qualify r
         else (d.setF (TIM_REFSTAT r) TIM_REFSTAT_QSTATE 2).setF (TIM_REFSTAT r) TIM_REFSTAT_PROOF_LEFT proof
  | _ => d

/-- FREQUENCY_MEASUREMENT (R279, R280): the offset of a reference in 10^-16, and whether it is active and without period fault. -/
def Dev.freqMeasure (d : Dev) (r : Nat) (y : Int) (active periodOk : Bool) : Dev :=
  let soft := max 1 (d.f (TIM_REFTH r) TIM_REFTH_SOFT)
  let hard := max soft (d.f (TIM_REFTH r) TIM_REFTH_HARD)
  let beyond := fun (lim : Nat) => decide (y.natAbs > lim * 10 ^ 7)
  let d0 := ((((d.setF (TIM_REFSTAT r) TIM_REFSTAT_ACT_FAULT (b2n (!active))).setF (TIM_REFSTAT r) TIM_REFSTAT_PER_FAULT
    (b2n (!periodOk))).setF (TIM_REFSTAT r) TIM_REFSTAT_HARD (b2n (beyond hard))).setF (TIM_REFSTAT r) TIM_REFSTAT_OFFSET
    (wrapN 32 (y / 10 ^ 5)))
  let setTs := fun (e : Dev) (v : Option Nat) => ({ e with tim := { e.tim with ts := tset (fun _ => none) e.tim.ts r v } } : Dev)
  if !active || !periodOk || beyond hard then d0.disqualify r (d.todSec - 2)
  else if beyond soft then
    let ts := (tget (fun _ => none) d.tim.ts r).getD d.todSec
    match d.qstate r with
    | 0 => d0
    | 2 => (d0.setF (TIM_REFSTAT r) TIM_REFSTAT_QSTATE 4).setF (TIM_REFSTAT r) TIM_REFSTAT_PROOF_LEFT 0
    | 4 => d0
    | _ =>
      let qual := clampN 1 3600 (d.f (TIM_REFTH r) TIM_REFTH_QUAL_S)
      if d.todSec ≥ ts + qual then d0.disqualify r (ts - qual)
      else setTs (d0.setF (TIM_REFSTAT r) TIM_REFSTAT_QSTATE 3) (some ts)
  else
    let d1 := setTs d0 none
    if d.qstate r = 3 then d1.setF (TIM_REFSTAT r) TIM_REFSTAT_QSTATE 1 else d1.cleanMeasure r

/-- Meaning of FREQUENCY_MEASUREMENT. -/
def execFrequencyMeasurement (r : Nat) (y : Int) (active periodOk : Bool) (s : State) : Host.Outcome State Fault Refusal := nextDev s (
  if s.dev.refOn r then s.dev.freqMeasure r y active periodOk else s.dev)

/-! Phase steps (R295). -/

/-- A phase step in ps applied: at once with the remainder, or added to the remainder. -/
def Dev.phaseNow (d : Dev) (x : Int × Bool) : Dev :=
  let rem := sext 64 (d.rdN TIM_PHREM)
  let d1 := d.cnt TIMC_PH_STEPS 1
  if x.2 then d1.wrN TIM_PHREM (wrapN 64 (rem + x.1))
  else
    let t := x.1 + rem
    (((d1.wrN TIM_PHREM 0).wrN TIM_PHTOT (wrapN 64 (sext 64 (d1.rdN TIM_PHTOT) + t))).moveTod t).pulsesStepped

/-- A phase step, held while a switch runs. -/
def Dev.phaseStep (d : Dev) (x : Int × Bool) : Dev :=
  if d.timSt = TS_SWITCH then { d with tim := { d.tim with heldSteps := d.tim.heldSteps ++ [x] } } else d.phaseNow x

/-- PHASE_STEP: a write of TIM_PHASE. -/
def execPhaseStep (v : Nat) (s : State) : Host.Outcome State Fault Refusal := nextDev s (
  s.dev.phaseStep (sext 32 v, bit v 32))

/-! Acquisition, narrowing and switching (R284 to R286). -/

/-- What a switch held back is done: a force, the selection, phase steps (R282, R295). -/
def Dev.afterSwitch (d : Dev) : Dev :=
  let d1 := match d.tim.heldForce with
    | some f => d.setF TIM_CTRL TIM_CTRL_FORCE (if d.qualified f then f else 15)
    | none => d
  let steps := d1.tim.heldSteps
  let again := d1.tim.held || d1.tim.heldForce.isSome
  let d2 := { d1 with tim := { d1.tim with held := false, heldForce := none, heldSteps := [] } }
  let d3 := steps.foldl (fun (e : Dev) x => e.phaseNow x) d2
  if again then d3.reselect false d3.lastRec else d3

/-- BW is not below BW0 on the selected reference, so there is no narrowing (R285). -/
def Dev.noNarrow (d : Dev) : Bool :=
  let slow := [4, 5, 6].contains d.timSel
  let bw := clampN 100 10000000 (d.f TIM_BW TIM_BW_BW_UHZ)
  decide ((if slow then min bw 100000 else bw) ≥ (if slow then 100000 else 1000000))

/-- SWITCH_COMPLETE: the lock criterion has held for LOCK_DWELL in SWITCH or ACQUIRE. -/
def execSwitchComplete (s : State) : Host.Outcome State Fault Refusal := nextDev s (
  let d := s.dev
  if d.timSt = TS_SWITCH then (d.setTim TS_LOCKED).afterSwitch
  else if d.timSt = TS_ACQUIRE then d.setTim (if d.noNarrow then TS_LOCKED else TS_NARROW)
  else d)

/-- SWITCH_TIMEOUT: a switch that has not completed within SW_TIMEOUT disqualifies its target. -/
def execSwitchTimeout (s : State) : Host.Outcome State Fault Refusal := nextDev s (
  let d := s.dev
  if d.timSt = TS_SWITCH ∧ d.timSel < 8 then (d.cntF (TIM_DISQUAL d.timSel) HI32 1).disqualify d.timSel d.lastRec else d)

/-- NARROW_STEP: the criterion has held for the time of the next step; after step 3 the core is LOCKED. -/
def execNarrowStep (s : State) : Host.Outcome State Fault Refusal := nextDev s (
  let d := s.dev
  let n := d.f TIM_STAT TIM_STAT_BW_STEP
  if d.timSt ≠ TS_NARROW then d
  else if n < 2 then d.setF TIM_STAT TIM_STAT_BW_STEP (n + 1)
  else (d.setF TIM_STAT TIM_STAT_BW_STEP 3).setTim TS_LOCKED)

/-- LOSS_OF_LOCK: a phase error beyond 4·LOCK_PH returns the core to ACQUIRE on the same reference. -/
def execLossOfLock (s : State) : Host.Outcome State Fault Refusal := nextDev s (
  let d := s.dev
  if ! [TS_NARROW, TS_LOCKED, TS_SWITCH].contains d.timSt then d
  else
    let d1 := ((d.cnt TIMC_LOSS_OF_LOCK 1).setF TIM_STAT TIM_STAT_BW_STEP 0).setTim TS_ACQUIRE
    if d.timSt = TS_SWITCH then d1.afterSwitch else d1)

/-! The oscillator (R290 to R294). -/

/-- Firmware reports DEGRADED from now on. -/
def Dev.degrade (d : Dev) : Dev :=
  let d1 := { d with pwr := { d.pwr with degraded := true } }
  if d.fwState = FW_READY ∨ d.fwState = FW_RUN then d1.setFw FW_DEGRADED else d1

/-- A run ends at the next batch boundary as RUN_STOP would, without a job, and its integration ends early (R294, R222). -/
def Dev.endRunSoon (d : Dev) : Dev :=
  let r := d.run
  if !r.active || r.stopAt.isSome then d
  else ({ d with run := { r.cutInteg r.firstBarrier with stopAt := some r.firstBarrier } } : Dev).missBeyond r.firstBarrier

/-- XO_FAIL (R294). -/
def Dev.xoFail (d : Dev) : Dev :=
  if d.timSt = TS_XO_FAULT then d
  else (((d.setTim TS_XO_FAULT).raise 0x0101 0xFF 0 0).endRunSoon).degrade

/-- Meaning of XO_FAIL. -/
def execXoFail (s : State) : Host.Outcome State Fault Refusal := nextDev s s.dev.xoFail

/-- HOLDOVER_UPDATE: once per second of holdover the prediction is followed (R289). -/
def execHoldoverUpdate (s : State) : Host.Outcome State Fault Refusal := nextDev s (
  let d := s.dev
  if d.timSt ≠ TS_HOLDOVER ∧ d.timSt ≠ TS_HOLDOVER_POOR then d
  else
    let d1 := { d with tim := { d.tim with y := d.predict d.tim.hoMean d.tim.hoTime, hoSecs := d.tim.hoSecs + 1 } }
    d1.cntF TIMC_HOLDOVER HI32 1)

/-- HO_LIMIT: one period of holdover has exceeded HO_LIM hours (R293). -/
def execHoLimit (s : State) : Host.Outcome State Fault Refusal := nextDev s (
  let d := s.dev
  let lim := d.f TIM_HO TIM_HO_HO_LIM
  if (d.timSt ≠ TS_HOLDOVER ∧ d.timSt ≠ TS_HOLDOVER_POOR) ∨ lim = 0 ∨ d.tim.hoSecs ≤ lim * 3600 ∨ d.tim.hoNoted then d
  else ({ d with tim := { d.tim with hoNoted := true } } : Dev).raise 0x0103 0xFF 0 d.tim.hoSecs)

/-- An hour's mean is added when the first second of the next hour is recorded (R288). -/
def History.hourly (h : History) (t : Nat) : History :=
  match h.secs.getLast? with
  | none => h
  | some x =>
    if x.t / 3600 = t / 3600 then h
    else
      let xs := h.secs.filter fun y => y.t / 3600 == x.t / 3600
      let m := meanRec xs
      let e : HistRec := { t := m.2, off := m.1, temp := roundDiv (sumI (·.temp) xs) xs.length }
      { h with hours := (h.hours ++ [e]).drop (h.hours.length + 1 - 168) }

/-- HISTORY_RECORD (R288): in LOCKED on a qualified reference the offset over the last second, in 10^-16, is recorded with the
temperature effect removed. -/
def execHistoryRecord (y : Int) (s : State) : Host.Outcome State Fault Refusal := nextDev s (
  let d := s.dev
  if d.timSt ≠ TS_LOCKED ∨ !d.qualified d.timSel then d
  else
    let h := d.ret.hist.hourly d.todSec
    let e : HistRec := { t := d.todSec, off := y - tempFit d.xoTemp h.tempTab, temp := d.xoTemp }
    let h1 := { h with secs := (h.secs ++ [e]).drop (h.secs.length + 1 - 86400) }
    let t := d.tim
    let t1 := if t.lockSecs < 60 then { t with lockSecs := t.lockSecs + 1, lockSum := t.lockSum + y } else t
    { d with ret := { d.ret with hist := h1 }, tim := t1 })

/-- All timing history discarded (R292). -/
def History.discard (h : History) : History := { tempTab := h.tempTab, xoId := h.xoId }

/-- XO_CHANGED (R292): after the first 60 s of LOCKED since boot, a mean that differs from the model's prediction by more than
XO_JUMP discards the history. -/
def execXoChanged (s : State) : Host.Outcome State Fault Refusal := nextDev s (
  let d := s.dev
  if d.tim.lockSecs < 60 ∨ d.tim.xoChecked ∨ !d.ret.hist.modelValid then d
  else
    let d1 := { d with tim := { d.tim with xoChecked := true } }
    let day := match d.ret.hist.days.getLast? with | some x => (x.off, x.t) | none => (0, 0)
    let diff := roundDiv d.tim.lockSum 60 - d.predict day.1 day.2
    if diff.natAbs ≤ clampN 1 10000 (d.f TIM_HO TIM_HO_XO_JUMP) * 10 ^ 7 then d1
    else
      (({ d1 with ret := { d1.ret with hist := d1.ret.hist.discard } } : Dev).cntF TIMC_TEMP_STALE HI32 1).raise 0x0102 0xFF 0 0)

/-- The daily mean of the offset added and the model fitted anew (R288, R291). -/
def History.daily (h : History) (t : Nat) : History :=
  let xs := h.secs.filter fun y => decide (t ≤ y.t + 86400)
  if xs.isEmpty then h
  else
    let m := meanRec xs
    let e : HistRec := { t := m.2, off := m.1, temp := roundDiv (sumI (·.temp) xs) xs.length }
    ({ h with days := (h.days ++ [e]).drop (h.days.length + 1 - 1024) } : History).fit

/-- TEMP_STALE (R290): an external temperature has not been rewritten for 10 s. -/
def execTempStale (s : State) : Host.Outcome State Fault Refusal := nextDev s (
  if s.dev.on TIM_STAT TIM_STAT_TEMP_EXT then (s.dev.setF TIM_STAT TIM_STAT_TEMP_EXT 0).cntF TIMC_TEMP_STALE LO32 1 else s.dev)

/-- A write of TIM_XO_TEMP (R290): with the external source selected it is in use from now on. -/
def Dev.xoTempWrite (d : Dev) (v : Nat) : Dev :=
  let d1 := d.wrN TIM_XO_TEMP (v % 2 ^ 32)
  if d.tim.xoExt then d1.setF TIM_STAT TIM_STAT_TEMP_EXT 1 else d1

/-- Meaning of TIM_XO_TEMP_WRITE. -/
def execTimXoTempWrite (v : Nat) (s : State) : Host.Outcome State Fault Refusal := nextDev s (s.dev.xoTempWrite v)

/-! SYSREF outputs (R298). -/

/-- SYSREF_OUT_PULSE: output n pulses when the count of its generator is a multiple of SPER; in gapped mode from the start SN for
GAP_N pulses. -/
def execSysrefOutPulse (n : Nat) (s : State) : Host.Outcome State Fault Refusal := nextDev s (
  let d := s.dev
  let mode := d.f (TIM_SYSREF n) TIM_SYSREF_MODE
  let per := d.f (TIM_SYSREF n) TIM_SYSREF_SPER
  let sn := d.sngCount (d.f (TIM_SYSREF n) TIM_SYSREF_SNG)
  if n ≥ 4 ∨ per = 0 ∨ sn % per ≠ 0 then d
  else match mode with
    | 1 => d.emit .pin (16 + n) [sn]
    | 2 =>
      match tget (fun _ => none) d.tim.gap n with
      | some (start, left) =>
        if sn < start ∨ left = 0 then d
        else
          let v := if left = 1 then none else some (start, left - 1)
          ({ d with tim := { d.tim with gap := tset (fun _ => none) d.tim.gap n v } } : Dev).emit .pin (16 + n) [sn]
      | none => d
    | _ => d)

end Sys2Proof.Machine
end

