-- ==== Sys2Proof/Machine/Thermal.lean ====
section
/-!
DEFINITION. Sensors, warning, throttling and shutdown, adaptive voltage, wear and the reserve inventory
(14_heat_wear_and_twins R401 to R414, R425 to R430; 16_power R451).
-/
namespace Sys2Proof.Machine

/-! Sensors (R401 to R403). -/

/-- The zone of a sensor (Table 14.1); 52 to 55 are the stack reports. -/
def zoneOf (s : Nat) : Nat :=
  if s < 34 then 0 else if s < 38 then 1 else if s < 40 then 2 else if s < 44 then 3 else if s < 48 then 4
  else if s < 50 then 5 else if s < 52 then 6 else 7

/-- The neighbours of a sensor (Table 14.1). -/
def nearOf (s : Nat) : List Nat :=
  if s < 34 then
    let r := s / 17 * 17
    (if s > r then [s - 1] else []) ++ (if s < r + 16 then [s + 1] else []) ++ [if s < 17 then s + 17 else s - 17]
  else if s < 38 then ([34, 35, 36, 37].filter (· != s)) ++ (if s = 34 then [38] else if s = 35 then [39] else [])
  else if s < 40 then [77 - s, s - 4]
  else if s < 44 then [s + 12, 40 + ((s - 40) ^^^ 1)]
  else if s < 48 then [44 + ((s - 44) ^^^ 1), 44 + ((s - 44) ^^^ 2)]
  else if s < 50 then [97 - s, s + 2]
  else if s < 52 then [101 - s, s - 2]
  else [s - 12]

/-- Reading of a sensor in 0.01 °C. -/
def Dev.temp (d : Dev) (s : Nat) : Int := sext 16 (d.f (TH_SENS s) TH_SENS_TEMP)

/-- A sensor is live: not failed, and no failed primary element in use (log entry 21). -/
def Dev.sensLive (d : Dev) (s : Nat) : Bool := d.f (TH_SENS s) TH_SENS_STATE == 0 && !d.therm.prim.contains s

/-- Live neighbours of a sensor. -/
def Dev.liveNear (d : Dev) (s : Nat) : List Nat := (nearOf s).filter d.sensLive

/-- The sum of a list of integers. -/
def sumInt (xs : List Int) : Int := xs.foldl (· + ·) 0

/-- Mean reading of the live neighbours of a sensor. -/
def Dev.nearMean (d : Dev) (s : Nat) : Option Int :=
  let xs := d.liveNear s
  if xs.isEmpty then none else some (roundDiv (sumInt (xs.map d.temp)) xs.length)

/-- The offset of a sensor (R403). -/
def Dev.offset (d : Dev) (s : Nat) : Int := tget (fun _ => 0) d.ret.offsets s

/-- An element of a sensor fails (R402): counted and entered in ERRC; a primary waits for its switch, and a reserve or a stack
report makes the sensor failed. -/
def Dev.elementFails (d : Dev) (s : Nat) : Dev :=
  if !d.sensLive s then d
  else
    let d1 := (d.cntF THC_SENS_EVT LO32 1).raise 0x0A03 s 0 0
    if s < 52 && d.f (TH_SENS s) TH_SENS_ELEM == 0 then { d1 with therm := { d1.therm with prim := d1.therm.prim ++ [s] } }
    else d1.setF (TH_SENS s) TH_SENS_STATE 1

/-- The readings of 1 ms taken in, and what they say of each sensor since when (R402). -/
def Dev.takeReadings (d : Dev) (temps : List Int) (bad : List Nat) : Dev :=
  let d1 := (List.range 56).foldl (fun (e : Dev) s => e.setF (TH_SENS s) TH_SENS_TEMP (wrapN 16 (temps.getD s 0))) d
  let th := (List.range 56).foldl
    (fun (t : Therm) s =>
      let x := d1.temp s
      let far := match d1.nearMean s with
        | some m => decide ((x - (m + d1.offset s)).natAbs > 1500)
        | none => false
      let since := fun (p : Bool) (o : Option Nat) => if p then (match o with | some v => some v | none => some d1.now) else none
      let near := (nearOf s).map d1.temp
      let code := match tget (fun _ => none) t.code s with
        | some h => if h.code = x then h else { code := x, at' := d1.now, near := near }
        | none => { code := x, at' := d1.now, near := near }
      { t with diffAt := tset (fun _ => none) t.diffAt s (since far (tget (fun _ => none) t.diffAt s)),
               lostAt := tset (fun _ => none) t.lostAt s (since (s ≥ 52 && bad.contains s) (tget (fun _ => none) t.lostAt s)),
               code := tset (fun _ => none) t.code s (some code) }) d1.therm
  { d1 with therm := th }

/-- The element in use of a sensor has failed by a condition of R402. -/
def Dev.elementBad (d : Dev) (s : Nat) (bad : List Nat) : Bool :=
  let t := d.therm
  let x := d.temp s
  let old := fun (o : Option Nat) (ns : Nat) => match o with | some a => decide (a + ns ≤ d.now) | none => false
  (s < 52 && bad.contains s) || decide (x < -4000 ∨ x > 15000) || old (tget (fun _ => none) t.diffAt s) (10 * 10 ^ 9) ||
    old (tget (fun _ => none) t.lostAt s) (10 ^ 7) ||
    (match tget (fun _ => none) t.code s with
     | some h => decide (h.at' + 600 * 10 ^ 9 ≤ d.now) &&
         ((nearOf s).zip h.near).any fun (n, v) => decide ((d.temp n - v).natAbs ≥ 500)
     | none => false)

/-- A millisecond's difference of every live sensor from its live neighbours joins its history of 24 h, and its offset is the
mean of that history (R403). -/
def Dev.takeOffsets (d : Dev) : Dev :=
  let xs := (List.range 56).filterMap fun s => if d.sensLive s then (d.nearMean s).map fun m => (s, d.temp s - m) else none
  let keep := fun (s : Nat) (l : List (Nat × Int)) => (l.filter fun p => p.1 == s).take 86400000
  let hist := (List.range 56).flatMap fun s => keep s (xs ++ d.ret.thermHist)
  let off := (List.range 56).foldl
    (fun (t : Tbl Int) s =>
      let l := (hist.filter fun p => p.1 == s).map (·.2)
      if l.isEmpty then t else tset (fun _ => 0) t s (roundDiv (sumInt l) l.length)) d.ret.offsets
  { d with ret := { d.ret with thermHist := hist, offsets := off } }

/-- The zone estimate of a sensor that is not live: its highest live neighbour plus its offset. -/
def Dev.estimate (d : Dev) (s : Nat) : Option Int :=
  let xs := d.liveNear s
  match xs with
  | [] => none
  | a :: r => some (r.foldl (fun m n => max m (d.temp n)) (d.temp a) + d.offset s)

/-- What a sensor reads for the warning and throttle-entry tests. -/
def Dev.seen (d : Dev) (s : Nat) : Option Int := if d.sensLive s then some (d.temp s) else d.estimate s

/-- Sensors of a zone. -/
def zoneSensors (z : Nat) : List Nat := (List.range 56).filter fun s => zoneOf s == z

/-- A threshold of a zone in 0.01 °C. -/
def Dev.thr (d : Dev) (z : Nat) (f : Fld) : Int := (d.f (TH_ZONE z) f * 100 : Nat)

/-- EST of each zone: the highest reading or estimate. -/
def Dev.takeEst (d : Dev) : Dev :=
  (List.range 8).foldl
    (fun (e : Dev) z => match (zoneSensors z).filterMap d.seen with
      | [] => e
      | a :: r => e.setF (TH_ZONE z) TH_ZONE_EST (wrapN 16 (r.foldl max a))) d

/-! Warning, throttling, shutdown (R404 to R408). -/

/-- DEVSTAT THERMAL: the highest code that applies (R402, R404, R405, R407). -/
def Dev.syncThermal (d : Dev) : Dev :=
  let code := if d.f DEVSTAT DEVSTAT_THERMAL = 4 then 4
    else if (List.range 56).any fun s => d.f (TH_SENS s) TH_SENS_STATE ≠ 0 then 3
    else if d.f TH_CTRL TH_CTRL_DUTY ≠ 0 then 2 else if d.therm.warn ≠ 0 then 1 else 0
  d.setStat DEVSTAT_THERMAL code

/-- Warning of each zone (R404). -/
def Dev.warnings (d : Dev) : Dev :=
  (List.range 8).foldl
    (fun (e : Dev) z =>
      let xs := (zoneSensors z).filterMap d.seen
      let w := d.thr z TH_ZONE_TH_WARN
      if !bit e.therm.warn z && xs.any (fun x => decide (x ≥ w)) then
        ({ e with therm := { e.therm with warn := e.therm.warn ||| 2 ^ z } } : Dev).raise 0x0A01 z 0 0
      else if bit e.therm.warn z && xs.all (fun x => decide (x < w - d.thr z TH_ZONE_HYS_WARN)) then
        { e with therm := { e.therm with warn := e.therm.warn - 2 ^ z } }
      else e) d

/-- The largest throttle level (TH_CTRL). -/
def Dev.dutyMax (d : Dev) : Nat := max 1 (d.f TH_CTRL TH_CTRL_DUTY_MAX)

/-- The throttle level changes; a rise from 0 enters THROTTLE (R405). -/
def Dev.setDuty (d : Dev) (v : Nat) : Dev :=
  let old := d.f TH_CTRL TH_CTRL_DUTY
  let d1 := ({ d with therm := { d.therm with changeAt := some d.now, riseAt := if v > old then some d.now else d.therm.riseAt } }
    : Dev).setF TH_CTRL TH_CTRL_DUTY v
  if old = 0 ∧ v > 0 then (d1.cntF THC_THR_TIME HI32 1).raise 0x0A02 0xFF 0 0 else d1

/-- The throttle level evaluated at a reading (R405). -/
def Dev.throttle (d : Dev) : Dev :=
  let ms := fun n => n * 10 ^ 6
  let up := (List.range 56).any fun s => match d.seen s with | some x => decide (x ≥ d.thr (zoneOf s) TH_ZONE_TH_THR) | none => false
  let down := (List.range 56).all fun s =>
    let z := zoneOf s
    let lim := d.thr z TH_ZONE_TH_THR - d.thr z TH_ZONE_HYS_THR
    if d.sensLive s then decide (d.temp s < lim)
    else if d.f (TH_SENS s) TH_SENS_STATE = 2 then (match d.estimate s with | some x => decide (x < lim) | none => true)
    else false
  let t := d.therm
  let downAt := if down then (match t.downAt with | some a => some a | none => some d.now) else none
  let d1 := { d with therm := { t with downAt := downAt } }
  let v := d.f TH_CTRL TH_CTRL_DUTY
  let past := fun (o : Option Nat) (n : Nat) => match o with | some a => decide (a + ms n ≤ d.now) | none => true
  let upMs := clampN 1 100 (d.f TH_CTRL TH_CTRL_STEP_UP_MS)
  let dnMs := clampN 10 1000 (d.f TH_CTRL TH_CTRL_STEP_DN_MS)
  if up && decide (v < d.dutyMax) && past t.riseAt upMs then d1.setDuty (v + 1)
  else if down && decide (v > 0) && downAt.isSome && past downAt dnMs && past t.changeAt dnMs then d1.setDuty (v - 1)
  else d1

/-- Step 1 of a digital shutdown (R407): dispatch stops, every lane transmitter goes to electrical idle, no MAC starts another
frame, and firmware asks for its commit of the thermal history. -/
def Dev.shutBegin (d : Dev) (a b : Nat) : Dev :=
  let d1 := (List.range 80).foldl (fun (e : Dev) n => e.setLane n { e.lane n with txIdle := true }) d
  ({ d1 with therm := { d1.therm with shut := some (d.now, a, b) } } : Dev).wantCommit .thermal none

/-- Two live sensors agree on shutdown: both at or above TH_SHUT within one second, in one zone or neighbours (R407). -/
def Dev.shutPair (d : Dev) : Option (Nat × Nat) :=
  let hot := fun s => match tget (fun _ => none) d.therm.hot s with | some a => decide (d.now ≤ a + 10 ^ 9) | none => false
  let xs := (List.range 56).filter fun s => d.sensLive s && hot s
  (xs.flatMap fun a => (xs.filter fun b => a < b && (zoneOf a == zoneOf b || (nearOf a).contains b)).map fun b => (a, b)).head?

/-- Shutdown evaluated at a reading (R407). -/
def Dev.shutTest (d : Dev) : Dev :=
  let tooHot := (List.range 56).filter fun s => d.sensLive s && decide (d.temp s ≥ d.thr (zoneOf s) TH_ZONE_TH_SHUT)
  let hot := tooHot.foldl (fun (t : Tbl (Option Nat)) s => tset (fun _ => none) t s (some d.now)) d.therm.hot
  let un := tooHot.foldl (fun m s => m ||| 2 ^ s) 0
  let d1 := { d with therm := { d.therm with hot := hot } }
  match d1.shutPair with
  | some (a, b) => d1.shutBegin a b
  | none =>
    let fresh := tooHot.filter fun s => !bit d.therm.unconf s
    let d2 := { d1 with therm := { d1.therm with unconf := un } }
    let d3 := fresh.foldl (fun (e : Dev) s => e.raise 0x0A05 s 0 0) d2
    if tooHot.isEmpty ∨ d3.f TH_CTRL TH_CTRL_DUTY = d3.dutyMax then d3 else d3.setDuty d3.dutyMax

/-- SENSOR_READING (R401): `temps` are the readings of the elements in use in 0.01 °C, and `bad` the sensors whose converter fails
its self-check or whose stack gave no valid report. -/
def Dev.sensorReading (d : Dev) (temps : List Int) (bad : List Nat) : Dev :=
  if d.therm.shut.isSome ∨ d.fwState = FW_SHUTDOWN then d
  else
    let d1 := d.takeReadings temps bad
    let d2 := ((List.range 56).filter fun s => d1.elementBad s bad).foldl (fun (e : Dev) s => e.elementFails s) d1
    let d3 := d2.takeOffsets.takeEst
    if !d3.on TH_CTRL TH_CTRL_EN then d3.syncThermal
    else
      let d4 := d3.warnings.shutTest.throttle
      (if d4.f TH_CTRL TH_CTRL_DUTY > 0 then d4.cntF THC_THR_TIME LO32 1 else d4).syncThermal

/-- Meaning of SENSOR_READING. -/
def execSensorReading (temps : List Int) (bad : List Nat) (s : State) : Host.Outcome State Fault Refusal :=
  nextDev s (s.dev.sensorReading temps bad)

/-- SENSOR_TUCKPOINT (R402): firmware switches a sensor to its reserve element and records it in the spare map. -/
def execSensorTuckpoint (sensor : Nat) (s : State) : Host.Outcome State Fault Refusal := nextDev s (
  let d := s.dev
  if !d.therm.prim.contains sensor then d
  else
    let sp := d.ret.spare
    let d1 := { d with therm := { d.therm with prim := d.therm.prim.filter (· != sensor),
                                               diffAt := tset (fun _ => none) d.therm.diffAt sensor none,
                                               code := tset (fun _ => none) d.therm.code sensor none },
                       ret := { d.ret with spare := { sp with sensors := sp.sensors ++ [sensor] } } }
    ((d1.setF (TH_SENS sensor) TH_SENS_ELEM 1).cntF THC_SENS_EVT HI32 1).tuckpointed sensor (d1.ret.spare.sensors.length == 52))

/-- THERM_SHDN_N asserted and every clock outside the VDD_AUX domain stopped. -/
def Dev.shutDown (d : Dev) : Dev :=
  ((d.setStat DEVSTAT_THERMAL 4).setFw FW_SHUTDOWN).emit .pin 32 [0]

/-- SHUTDOWN_ASSERT (R407): after the commit, or 10 ms, the shutdown is latched and the clocks stop. -/
def execShutdownAssert (s : State) : Host.Outcome State Fault Refusal := nextDev s (
  let d := s.dev
  match d.therm.shut with
  | some (_, a, b) =>
    if d.fwState = FW_SHUTDOWN then d
    else
      let d1 := (((d.setF TH_LATCH TH_LATCH_DIGITAL 1).setF TH_LATCH TH_LATCH_SENS_A a).setF TH_LATCH TH_LATCH_SENS_B b).raise
        0x0A04 0xFF 0 0
      ({ d1 with pwr := { d1.pwr with auxShut := some (d.errEntry 0x0A04 0xFF 0 0) } } : Dev).shutDown
  | none => d)

/-- ANALOGUE_TRIP (R408): latched and clocks stopped at once, without a commit. -/
def execAnalogueTrip (s : State) : Host.Outcome State Fault Refusal := nextDev s (
  let d := s.dev
  if d.fwState = FW_SHUTDOWN then d.setF TH_LATCH TH_LATCH_ANALOGUE 1
  else (({ d with pwr := { d.pwr with reqs := [] } } : Dev).setF TH_LATCH TH_LATCH_ANALOGUE 1).shutDown)

/-! Adaptive voltage (R409, R410, R451). -/

/-- A unit of R409 is active: tiles by their role, and cores that are not retired or in reserve. -/
def Dev.unitActive (d : Dev) (u : Nat) : Bool :=
  if u < 68 then d.tileRole u == 0
  else if 71 ≤ u ∧ u < 75 then
    d.f (CR_STAT (u - 71)) CR_STAT_STATE != 4 && (List.range 3).any fun l => bits (d.rdN CR_MAP) (2 * l + 1) (2 * l) == u - 71
  else true

/-- A PMBus command unacknowledged three times (R451). -/
def Dev.pmbusFail (d : Dev) : Dev := ((d.setF AV_CTRL AV_CTRL_EN 0).raise 0x0005 0xFF 0 0).degrade

/-- The set point commanded over PMBus; `ack` says whether the regulator answered (R451). -/
def Dev.setVolt (d : Dev) (mv : Nat) (ack : Bool) : Dev :=
  if !ack then d.pmbusFail
  else
    let w := d.ret.wear
    ({ d with ret := { d.ret with wear := { w with setPoint := mv } } } : Dev).setF AV_CTRL AV_CTRL_VSET_MV mv |>.emit .pmbus d.pwr.pmbAddr [mv]

/-- AVS_ADJUST (R409, R410): margins by unit in 0.01 %. -/
def Dev.avsAdjust (d : Dev) (margins : List Int) (ack : Bool) : Dev :=
  if !d.on AV_CTRL AV_CTRL_EN ∨ !d.serving then d
  else
    let tab := (List.range 79).foldl (fun (t : Tbl Int) u => tset (fun _ => 0) t u (margins.getD u 0)) []
    let d0 := { d with therm := { d.therm with margins := tab } }
    let act := (List.range 79).filter d.unitActive
    let low := (act.map fun u => margins.getD u 0).foldl min (margins.getD 68 0)
    let target : Int := clampN 50 1000 (d.f AV_CTRL AV_CTRL_M_TARGET)
    let mMin : Int := clampN 50 500 (d.f AV_CTRL AV_CTRL_M_MIN)
    let v := d.f AV_CTRL AV_CTRL_VSET_MV
    let past := fun (o : Option Nat) (ns : Nat) => match o with | some a => decide (a + ns ≤ d.now) | none => true
    let d1 :=
      if low < target then
        if v < 850 ∧ past d.therm.upAt (10 ^ 8) = true then
          (({ d0 with therm := { d0.therm with upAt := some d.now } } : Dev).setVolt (v + 5) ack).cntF THC_AV_STEPS LO32 1
        else d0
      else if low > target + 200 ∧ v > 700 ∧ past d.therm.dnAt (10 ^ 10) = true then
        (({ d0 with therm := { d0.therm with dnAt := some d.now } } : Dev).setVolt (v - 5) ack).cntF THC_AV_STEPS HI32 1
      else d0
    let lim := decide (v = 850 ∧ low < target)
    let d2 := { d1 with therm := { d1.therm with avLimit := lim } }
    let d3 := if lim && !d.therm.avLimit then d2.raise 0x0A07 0xFF 0 0 else d2
    if v ≠ 850 then d3
    else
      (act.filter fun u => decide (margins.getD u 0 < mMin)).foldl
        (fun (e : Dev) u =>
          if u < 68 then
            let e1 := e.setF (XC_TSTAT u) XC_TSTAT_HEADROOM 1
            (e1.tuckTile u).getD e1
          else if e.therm.headroom.contains u then e
          else ({ e with therm := { e.therm with headroom := u :: e.therm.headroom } } : Dev).raise 0x0A06 u 0 0) d3

/-- Meaning of AVS_ADJUST. -/
def execAvsAdjust (margins : List Int) (ack : Bool) (s : State) : Host.Outcome State Fault Refusal :=
  nextDev s (s.dev.avsAdjust margins ack)

/-! Wear (R414, R425, R291). -/

/-- Daily entries of a unit, oldest first: day and margin. -/
def Wear.entries (w : Wear) (u : Nat) : List (Nat × Int) := (w.margins.filter fun x => x.1 == u).map (·.2)

/-- ln(1 + t) of a day in service, in units of 2^-32. -/
def lnDay (t : Nat) : Int := (lnFix ((t + 1) * 2 ^ 32) : Nat)

/-- The fit a + b·ln(1 + t) of a unit by least squares, in units of 2^-32 of 0.01 %, once it has 30 entries (R414). -/
def Wear.fit (w : Wear) (u : Nat) : Option (Int × Int) :=
  let xs := w.entries u
  if xs.length < 30 then none
  else
    let t0 := (xs.head?.map (·.1)).getD 0
    let ps := xs.map fun (t, y) => (lnDay (t - t0), y)
    let n : Int := xs.length
    let sl := sumInt (ps.map (·.1))
    let sy := sumInt (ps.map (·.2))
    let sll := sumInt (ps.map fun p => p.1 * p.1)
    let sly := sumInt (ps.map fun p => p.1 * p.2)
    let den := n * sll - sl * sl
    let b := if den ≤ 0 then 0 else roundDiv ((n * sly - sl * sy) * 2 ^ 64) den.toNat
    some (roundDiv (sy * 2 ^ 64 - b * sl) (xs.length * 2 ^ 32), b)

/-- The day in service, up to 100 years, on which a fit reaches M_MIN. -/
def Wear.forecast (w : Wear) (mMin : Int) (u : Nat) : Option Nat :=
  match w.fit u with
  | none => none
  | some (a, b) => (List.range 36525).find? fun t => decide (a * 2 ^ 32 + b * lnDay t ≤ mMin * 2 ^ 64)

/-- M_MIN in 0.01 %. -/
def Dev.mMin (d : Dev) : Int := (clampN 50 500 (d.f AV_CTRL AV_CTRL_M_MIN) : Nat)

/-- The smallest number of a list that at least k + 1 of its members do not exceed. -/
def nthLeast (xs : List Nat) (k : Nat) : Option Nat :=
  xs.foldl
    (fun (acc : Option Nat) v =>
      if k + 1 ≤ xs.countP (fun x => decide (x ≤ v)) then some (match acc with | some a => min a v | none => v) else acc) none

/-- Usable reserve tiles (R147). -/
def Dev.reservesLeft (d : Dev) : Nat := (List.range 68).countP fun t => d.tileRole t == 1 && d.run.tested.contains t

/-- The tile forecast date (R414); 0xFFFFFFFF where the fits give none. -/
def Dev.tileForecast (d : Dev) : Nat :=
  (nthLeast ((List.range 68).filterMap fun t => if d.tileRole t = 2 then none else d.ret.wear.forecast d.mMin t) d.reservesLeft).getD
    0xFFFFFFFF

/-- DAILY_ENTRY (R291, R414, R425): the daily mean of the holdover history and the model's fit, each unit's margin referred to
0.85 V and its mean temperature, a new availability bucket, and the commit. -/
def execDailyEntry (s : State) : Host.Outcome State Fault Refusal := nextDev s (
  let d := s.dev
  let w := d.ret.wear
  let v := d.f AV_CTRL AV_CTRL_VSET_MV
  let day := d.todSec / 86400
  let es := d.therm.margins.map fun (u, m) => (u, day, Config.referMargin u m v)
  let w1 := { w with margins := w.margins ++ es, avail := ((0, 0) :: w.avail).take 365 }
  ({ d with ret := { d.ret with hist := d.ret.hist.daily d.todSec, wear := w1 } } : Dev).wantCommit .history none)

/-! Commands (R428). -/

/-- The counters of Table 14.6 in the THERM window. -/
def thermCounters : List Nat := [THC_THR_TIME, THC_THR_SPEC, THC_SENS_EVT, THC_AV_STEPS]

/-- THERM_STATUS: TH registers, sensors, offsets and counters, with CLEAR. -/
def thermStatusDef : CmdDef where
  op := 0x0B01
  run := onDev fun c s =>
    let d := s.dev
    okR ([d.rdN TH_CTRL, d.rdN TH_LATCH] ++ (List.range 8).flatMap (fun z => lohi (d.rdN (TH_ZONE z))) ++
        (List.range 56).map (fun k => d.rdN (TH_SENS k)) ++ (List.range 56).map (fun k => wrapN 32 (d.offset k)) ++
        [d.rdN AV_CTRL] ++ thermCounters.flatMap fun a => lohi (d.rdN a))
      (if c.clear then d.clearRegs thermCounters else d)

/-- THERM_SET: word 0 [2:0] zone, [3] set the zone, [4] set the steps, [5] set DUTY_MAX, [6] EXCLUDE, [12:7] sensor, [16:13]
DUTY_MAX; word 1 as TH_ZONE [31:0]; word 2 [6:0] STEP_UP_MS, [25:16] STEP_DN_MS (R404, log entry 8). -/
def thermSetDef : CmdDef where
  op := 0x0B02
  masks := fun _ => [0x1FFFF, 0xFFFFFFFF, 0x3FF007F]
  bad := fun c _ =>
    let w := c.b 1 7 0
    let t := c.b 1 15 8
    let h := c.b 1 23 16
    (bit (c.p 0) 3 && !decide (70 ≤ w ∧ w ≤ 98 ∧ 80 ≤ t ∧ t ≤ 105 ∧ 90 ≤ h ∧ h ≤ 115 ∧ w < t ∧ t < h ∧ 1 ≤ c.b 1 27 24 ∧
      c.b 1 27 24 ≤ 10 ∧ 1 ≤ c.b 1 31 28 ∧ c.b 1 31 28 ≤ 10)) ||
    (bit (c.p 0) 4 && !decide (1 ≤ c.b 2 6 0 ∧ c.b 2 6 0 ≤ 100 ∧ 10 ≤ c.b 2 25 16 ∧ c.b 2 25 16 ≤ 1000)) ||
    (bit (c.p 0) 5 && c.b 0 16 13 == 0) || (bit (c.p 0) 6 && c.b 0 12 7 ≥ 56)
  run := onDev fun c s =>
    let d := s.dev
    let x := c.b 0 12 7
    if bit (c.p 0) 6 && d.f (TH_SENS x) TH_SENS_STATE == 0 then noR .badState d
    else
      let z := TH_ZONE (c.b 0 2 0)
      let d1 := if bit (c.p 0) 3 then d.wrN z (d.rdN z / 2 ^ 32 * 2 ^ 32 + c.p 1 % 2 ^ 32) else d
      let d2 := if bit (c.p 0) 4 then (d1.setF TH_CTRL TH_CTRL_STEP_UP_MS (c.b 2 6 0)).setF TH_CTRL TH_CTRL_STEP_DN_MS (c.b 2 25 16) else d1
      let d3 := if bit (c.p 0) 5 then d2.setF TH_CTRL TH_CTRL_DUTY_MAX (c.b 0 16 13) else d2
      okR [] (if bit (c.p 0) 6 then d3.setF (TH_SENS x) TH_SENS_STATE 2 else d3)

/-- WEAR_REPORT: set point, SEQ_VIOL, reserves left, tile forecast, then margin, fit and forecast of every unit and the
availability buckets (R414, R425, R453). -/
def wearReportDef : CmdDef where
  op := 0x0B03
  run := onDev fun _ s =>
    let d := s.dev
    let w := d.ret.wear
    let per := (List.range 79).flatMap fun u =>
      let f := w.fit u
      [wrapN 32 (tget (fun _ => 0) d.therm.margins u)] ++ lohi (wrapN 64 ((f.map (·.1)).getD 0)) ++ lohi (wrapN 64 ((f.map (·.2)).getD 0)) ++
        [(w.forecast d.mMin u).getD 0xFFFFFFFF]
    okR ([d.f AV_CTRL AV_CTRL_VSET_MV, w.seqViol, d.reservesLeft, d.tileForecast] ++ per ++ w.avail.flatMap fun x => [x.1, x.2]) d

/-- RESERVE_STATUS: what is left of each class of Table 14.3, and the spare map. -/
def reserveStatusDef : CmdDef where
  op := 0x0B04
  run := onDev fun _ s =>
    let d := s.dev
    let sp := d.ret.spare
    okR ([(List.range 68).countP (fun t => d.tileRole t == 1), d.lgroups.countP (fun g => g.tx && g.moved.isNone),
          b2n (!(List.range 3).any fun l => bits (d.rdN CR_MAP) (2 * l + 1) (2 * l) == 3)] ++
        (List.range 7).map (fun k => d.f (EC_CTRL k) EC_CTRL_SPARES_LEFT) ++ [52 - sp.sensors.length] ++
        (List.range 68).map (fun t => d.rdN (XC_TSTAT t)) ++ [d.rdN CR_MAP, sp.lanes.length] ++ sp.lanes ++ [sp.sensors.length] ++
        sp.sensors ++ [sp.repairs.length] ++ sp.repairs.flatMap fun x => x.1 :: lohi x.2) d

/-- Meanings of the thermal and wear commands. -/
def execThermStatus (slot : Nat) (s : State) : Host.Outcome State Fault Refusal := .next (serve thermStatusDef slot 0 0 s)
def execThermSet (slot : Nat) (s : State) : Host.Outcome State Fault Refusal := .next (serve thermSetDef slot 0 0 s)
def execWearReport (slot : Nat) (s : State) : Host.Outcome State Fault Refusal := .next (serve wearReportDef slot 0 0 s)
def execReserveStatus (slot : Nat) (s : State) : Host.Outcome State Fault Refusal := .next (serve reserveStatusDef slot 0 0 s)

end Sys2Proof.Machine
end

