-- ==== Sys2Proof/Machine/Lease.lean ====
section
/-!
DEFINITION. Twins and the lease: lease words, the lease timer and takeover, health reports, the arbiter function and the twin
commands (14_heat_wear_and_twins R415 to R424, R428 to R430).
-/
namespace Sys2Proof.Machine

/-! Lease words (Table 14.5). -/

/-- A lease word with its CRC, and the body behind it. -/
def leaseWord (type src dst alive gen lus gus pair : Nat) (body : List Nat) : List Nat :=
  header [(2, 0xA7B5), (1, type), (1, src), (1, dst), (1, alive), (2, gen), (4, lus), (4, gus), (2, pair), (2, body.length), (8, 0)] ++ body

/-- The words a node drops (R416): wrong MAGIC, CRC, PAIR_ID or length. -/
def Dev.leaseBad (d : Dev) (w : List Nat) : Bool :=
  at' w 0 2 != 0xA7B5 || at' w 28 4 != crc32c (w.take 28) || at' w 16 2 != d.f LS_CTRL LS_CTRL_PAIR_ID ||
    w.length != 32 + at' w 18 2

/-- A word of one type received by a node: dropped and counted when it is bad, else kept among the last sixteen and acted on. A
device that is neither a twin nor the arbiter takes no part in the link. -/
def Dev.leaseRx (d : Dev) (type : Nat) (w : List Nat) (act : Dev → Dev) : Dev :=
  if !(d.isTwin || d.isArb) then d
  else if d.leaseBad w then d.cntF LSC_LS_BAD LO32 1
  else if at' w 2 1 ≠ type then d
  else (act { d with twin := { d.twin with words := (w :: d.twin.words).take 16 } }).syncLease

/-- A word sent by this node, which is `src`; its alive counter advances (Table 14.5). -/
def Dev.leaseTx (d : Dev) (type src dst gen lus gus : Nat) (body : List Nat) : Dev :=
  ({ d with twin := { d.twin with alive := (d.twin.alive + 1) % 256 } } : Dev).emit .lease src
    (leaseWord type src dst d.twin.alive gen lus gus (d.f LS_CTRL LS_CTRL_PAIR_ID) body)

/-! Takeover (R419). -/

/-- One gratuitous ARP and one unsolicited Neighbour Advertisement for a port's service addresses. -/
def Dev.announceSvc (d : Dev) (m : Nat) : Dev :=
  let mac := d.ret.lease.mac
  let all := leNat ([0xFF, 0x02] ++ List.replicate 13 0 ++ [0x01])
  match d.svc m with
  | none => d
  | some (v4, v6) =>
    let d1 := if v4 = 0 then d
      else d.sendControl m (ethHeader (2 ^ 48 - 1) mac none 0x0806 ++ [0, 1, 8, 0, 6, 4, 0, 1] ++ leBytes 6 mac ++ leBytes 4 v4 ++
        List.replicate 6 0 ++ leBytes 4 v4)
    if v6 = 0 then d1
    else d1.sendControl m (icmp6Frame (groupMac true all) mac v6 all 255
      ([136, 0, 0, 0, 0x20, 0, 0, 0] ++ leBytes 16 v6 ++ [2, 1] ++ leBytes 6 mac))

/-- The number of the oldest packet a stream holds, and the next number it will give when it holds none. -/
def Dev.oldest (d : Dev) (i : Nat) (s : Stream) : Nat :=
  let q := ((d.waiting i).filter fun p => !p.gap).map (·.seq)
  let u := (d.run.dumps.filterMap fun x => (x.lines.find? fun l => l.stream == i && decide (l.sent < x.linePackets l)).map
    fun l => (l.base + l.sent) % 2 ^ 32)
  (q ++ u).foldl (fun a b => if earlier b a 32 then b else a) s.seq

/-- Packets of a stream that are earlier than a number leave its rings unsent; readout jobs whose last packet goes so end. -/
def Dev.skipTo (d : Dev) (i want : Nat) : Dev :=
  let gone := fun (p : Pkt) => p.stream == i && !p.gap && earlier p.seq want 32
  let js := (d.net.queue.filter fun p => gone p && p.last).filterMap (·.job)
  let adv := fun (u : Dump) (l : DumpLine) =>
    if l.stream = i then { l with sent := max l.sent (min (u.linePackets l) (serialDiff want l.base 32).toNat) } else l
  let d1 := { d with net := { d.net with queue := d.net.queue.filter fun p => !gone p },
                     run := { d.run with dumps := d.run.dumps.map fun u => { u with lines := u.lines.map (adv u) } } }
  js.foldl (fun (e : Dev) j => e.endJob j (if (e.job j).tally = 3 then .partialDone else .ok) 0) d1

/-- One lease-gated stream resumes at the number after the last one the old holder reported, or behind a GAP record with REASON 3. -/
def Dev.resumeStream (d : Dev) (i : Nat) (s : Stream) : Dev :=
  let old := d.oldest i s
  let gap := fun (first n : Nat) =>
    let p : Pkt := { stream := i, seq := (first + n) % 2 ^ 32, body := d.gapBody i first n 3 0 0, at' := d.now, gap := true }
    { d with net := { d.net with queue := p :: d.net.queue } }
  match tget (fun _ => none) d.twin.sent i with
  | none => if old = 0 then d else gap 0 old
  | some t =>
    let want := (t + 1) % 2 ^ 32
    let q := serialDiff old want 32
    if q > 0 then gap want q.toNat else d.skipTo i want

/-- The new holder takes over: ports first, then streams. -/
def Dev.takeover (d : Dev) : Dev :=
  let d1 := (List.range 20).foldl (fun (e : Dev) m => e.announceSvc m) d
  d1.streamList.foldl (fun (e : Dev) x => e.resumeStream x.1 x.2) d1

/-! The lease of a twin. -/

/-- M of R417, in microseconds: 20 µs and L × 250 ppm rounded up. -/
def leaseMargin (l : Nat) : Nat := 20 + ceilDiv (l * 250) 1000000

/-- The lease ends: the twin becomes STANDBY. -/
def Dev.endLease (d : Dev) : Dev := { d with twin := { d.twin with holder := false } }

/-- A GRANT refused (R417, R423). -/
def Dev.refuseGrant (d : Dev) : Dev := (d.cnt LSC_GEN_REFUSED 1).raise 0x0E02 (d.f LS_CTRL LS_CTRL_NODE) 0 0

/-- A GRANT at a twin (R417, R422, R423). -/
def Dev.grantRx (d : Dev) (w : List Nat) : Dev :=
  let gen := at' w 6 2
  let l := at' w 8 4
  let top := d.f LS_STAT LS_STAT_GEN
  if !d.isTwin then d
  else if at' w 4 1 = d.f LS_CTRL LS_CTRL_NODE then
    if d.fenceCond then d.refuseGrant
    else if earlier gen top 16 then d.refuseGrant
    else
      let d1 := { d.setF LS_STAT LS_STAT_GEN gen with
                    twin := { d.twin with holder := true, leaseEnd := d.now + (l - leaseMargin l) * 1000 } }
      if d.twin.holder then d1 else (d1.cntF LSC_LS_CHANGES LO32 1).takeover
  else if later gen top 16 then
    let d1 := d.setF LS_STAT LS_STAT_GEN gen
    if d.twin.holder then (d1.endLease).raise 0x0E06 (d.f LS_CTRL LS_CTRL_NODE) 0 gen else d1
  else d

/-- LEASE_GRANT: a GRANT word arrives. -/
def execLeaseGrant (word : List Nat) (s : State) : Host.Outcome State Fault Refusal :=
  nextDev s (s.dev.leaseRx 2 word fun d => d.grantRx word)

/-- LEASE_REVOKE: a REVOKE addressed to the holder ends its lease (R417). -/
def execLeaseRevoke (word : List Nat) (s : State) : Host.Outcome State Fault Refusal :=
  nextDev s (s.dev.leaseRx 3 word fun d => if d.isTwin && at' word 4 1 == d.f LS_CTRL LS_CTRL_NODE then d.endLease else d)

/-- LEASE_SYNC: a SYNC is accepted, or ignored when it comes less than 900 µs after the one before (R416). -/
def execLeaseSync (word : List Nat) (s : State) : Host.Outcome State Fault Refusal :=
  nextDev s (s.dev.leaseRx 1 word fun d =>
    if !d.isTwin then d
    else if d.twin.syncAt.any fun t => decide (d.now < t + 900000) then d.cntF LSC_LS_BAD HI32 1
    else { d with twin := { d.twin with syncAt := some d.now, noArb := false } })

/-- LEASE_TIMER_EXPIRY: the holder's timer has reached zero (R417). -/
def execLeaseTimerExpiry (s : State) : Host.Outcome State Fault Refusal :=
  let d := s.dev
  nextDev s (if d.isTwin && d.twin.holder && decide (d.twin.leaseEnd ≤ d.now) then ((d.endLease).cntF LSC_LS_CHANGES HI32 1).syncLease else d)

/-- NO_ARBITER: a twin has accepted no SYNC for 5 ms (R416). -/
def execNoArbiter (s : State) : Host.Outcome State Fault Refusal :=
  let d := s.dev
  nextDev s (if d.isTwin && !d.twin.noArb && decide ((d.twin.syncAt.getD 0) + 5000000 ≤ d.now) then
    (({ d with twin := { d.twin with noArb := true } } : Dev).raise 0x0E01 (d.f LS_CTRL LS_CTRL_NODE) 0 0).syncLease else d)

/-! Health reports (R420). -/

/-- Words of the route tables, for the configuration digest. -/
def Dev.routeWords (d : Dev) : List Nat :=
  d.run.route.flatMap (fun (a, b, st, r) => [a, b, st, r]) ++
    d.beam.route.flatMap (fun r => [r.type, r.setFirst, r.setLast, r.chFirst, r.chLast, r.stream, r.rate]) ++
    d.front.route.flatMap fun r => [r.iLo, r.iHi, r.cLo, r.cHi, r.kind, r.link, r.stream, r.logNi, r.logNc, r.logNs] ++ r.lanes

/-- The configuration digest: the CRC-64 over the RUN_START parameters, the route tables and the stream table less its addresses. -/
def Dev.cfgDigest (d : Dev) : Nat :=
  crc64 (wordsToBytes (d.run.startWords ++ d.routeWords ++ d.streamList.flatMap fun (i, s) => i :: s.words.take 5))

/-- The streams of a report, at most 64, from a place on in turn. -/
def Dev.reportStreams (d : Dev) : List (Nat × Nat) :=
  let xs := d.streamList.filterMap fun (i, s) => s.sentThrough.map fun n => (i, n)
  let k := d.twin.rot % max 1 xs.length
  (xs.drop k ++ xs.take k).take 64

/-- The body of a HEALTH word (log entry 8): DEVSTAT (8 bytes), ERR_SUM (4), UE and CE (8 each), configuration digest (8), last
DUMP_ID (4), its digest (8), skipped and substituted totals (8 each), XC_AUDIT.RESULT (4), tile forecast (4), the number of
entries with bit 8 when a dump has completed (4), the entries (8 each), and the CRC-32C of all before it. -/
def Dev.healthBody (d : Dev) : List Nat :=
  let es := d.reportStreams
  let x := d.run.lastDump.getD (0, 0, 0, 0)
  let b := leBytes 8 (d.rdN DEVSTAT) ++ leBytes 4 (d.f DEVSTAT DEVSTAT_ERR_SUM) ++ leBytes 8 d.scrub.ue ++ leBytes 8 d.scrub.ce ++
    leBytes 8 d.cfgDigest ++ leBytes 4 x.1 ++ leBytes 8 x.2.1 ++ leBytes 8 x.2.2.1 ++ leBytes 8 x.2.2.2 ++
    leBytes 4 (d.f XC_AUDIT XC_AUDIT_RESULT) ++ leBytes 4 d.tileForecast ++ leBytes 4 (es.length + 256 * b2n d.run.lastDump.isSome) ++
    es.flatMap fun (i, n) => leBytes 4 i ++ leBytes 4 n
  b ++ leBytes 4 (crc32c b)

/-- A node's report is kept among the last sixteen of that node. -/
def Dev.keepReport (d : Dev) (node : Nat) (body : List Nat) : Dev :=
  let mine := ((node, body) :: d.twin.reports.filter (·.1 == node)).take 16
  { d with twin := { d.twin with reports := mine ++ d.twin.reports.filter (·.1 != node) } }

/-- HEALTH_SLOT: a twin sends its HEALTH word, FENCED shown where it is (R420, R423). -/
def execHealthSlot (s : State) : Host.Outcome State Fault Refusal :=
  let d := s.dev.syncLease
  let node := d.f LS_CTRL LS_CTRL_NODE
  nextDev s (if !d.isTwin then s.dev
    else
      let b := d.healthBody
      let d1 := (d.leaseTx 4 node 2 (d.f LS_STAT LS_STAT_GEN) 0 0 b).keepReport node b
      { d1 with twin := { d1.twin with rot := d1.twin.rot + 64 } })

/-- A report's fields. -/
def readReport (alive gen : Nat) (b : List Nat) : Report :=
  { alive := alive, gen := gen, fw := bits (at' b 0 8) 47 40, lease := bits (at' b 0 8) 15 8, errSum := at' b 8 4, ue := at' b 12 8,
    cfg := at' b 28 8, dumpId := at' b 36 4 + 2 ^ 32 * (at' b 72 4 / 256 % 2), digest := at' b 40 8, skipped := at' b 48 8,
    subst := at' b 56 8, audit := at' b 64 4 }

/-- The latest valid report of a node. -/
def Dev.lastOf (d : Dev) (k : Nat) : Option Report := tget (fun _ => none) d.twin.last k

/-- A node's latest due report is valid and it has not failed (R418, R420). -/
def Dev.nodeValid (d : Dev) (k : Nat) : Bool :=
  (d.lastOf k).isSome && tget (fun _ => 0) d.twin.miss k == 0 && !bit d.twin.failed k

/-- A bit of a mask set or cleared. -/
def setBit (v k : Nat) (b : Bool) : Nat := if b then v ||| 2 ^ k else if bit v k then v - 2 ^ k else v

/-- A node is declared failed. -/
def Dev.nodeFailed (d : Dev) (k : Nat) : Dev :=
  if bit d.twin.failed k then d
  else ({ d with twin := { d.twin with failed := setBit d.twin.failed k true } } : Dev).raise 0x0E03 k 0 0

/-- A twin shows a UE increase since the dump before, ACCT_FAIL or an audit mismatch (R421). -/
def Dev.suspect (d : Dev) (k : Nat) (r : Report) : Bool :=
  decide (r.ue > tget (fun _ => 0) d.twin.ueAt k) || bit r.errSum 2 || r.audit == 2

/-- The arbiter's comparison of the two latest reports (R421). -/
def Dev.compareReports (d : Dev) (a b : Report) : Dev :=
  let bad := a.cfg != b.cfg
  let d1 := if bad && !d.twin.cfgBad then d.raise 0x0E04 0xFF 0 0 else d
  let d2 := { d1 with twin := { d1.twin with cfgBad := bad } }
  if a.dumpId ≠ b.dumpId ∨ a.dumpId < 2 ^ 32 ∨ d2.twin.compared = some a.dumpId then d2
  else
    let sa := d2.suspect 0 a
    let sb := d2.suspect 1 b
    let d3 :=
      if a.digest = b.digest then d2
      else if a.skipped ≠ b.skipped ∨ a.subst ≠ b.subst then d2
      else if sa != sb then { d2 with twin := { d2.twin with barred := setBit d2.twin.barred (if sa then 0 else 1) true } }
      else d2.raise 0x0E05 0xFF 0 (a.dumpId % 2 ^ 32)
    let ue := tset (fun _ => 0) (tset (fun _ => 0) d3.twin.ueAt 0 a.ue) 1 b.ue
    { d3 with twin := { d3.twin with compared := some a.dumpId, ueAt := ue } }

/-- A HEALTH word at the arbiter (R420 to R422). -/
def Dev.healthArb (d : Dev) (w : List Nat) : Dev :=
  let k := at' w 3 1
  let b := w.drop 32
  let alive := at' w 5 1
  let ok := decide (k < 2) && decide (b.length ≥ 80) && decide (b.length ≤ 640) &&
    at' b (b.length - 4) 4 == crc32c (b.take (b.length - 4)) &&
    (match d.lastOf k with | some r => later alive r.alive 8 | none => true)
  if !ok then d
  else
    let r := readReport alive (at' w 6 2) b
    let halted := r.fw == FW_HALTED || r.fw == FW_SHUTDOWN
    let t := d.twin
    let d1 := ({ d with twin := { t with last := tset (fun _ => none) t.last k (some r), miss := tset (fun _ => 0) t.miss k 0,
                                         got := setBit t.got k true, failed := if halted then t.failed else setBit t.failed k false,
                                         held := setBit t.held k (r.lease == 2) } } : Dev).keepReport k b
    let d2 := if halted then d1.nodeFailed k else d1
    let d3 := if r.lease == 2 && bit t.held (1 - k) then d2.raise 0x0E06 0xFF 0 r.gen else d2
    match d3.lastOf 0, d3.lastOf 1 with
    | some a, some c => if d3.nodeValid 0 && d3.nodeValid 1 then d3.compareReports a c else d3
    | _, _ => d3

/-- A HEALTH word at a twin: what the other twin reports sent (R419). -/
def Dev.healthTwin (d : Dev) (w : List Nat) : Dev :=
  let b := w.drop 32
  if at' w 3 1 ≥ 2 ∨ at' w 3 1 = d.f LS_CTRL LS_CTRL_NODE ∨ at' b (b.length - 4) 4 ≠ crc32c (b.take (b.length - 4)) then d
  else
    let n := at' b 72 4 % 256
    let put := fun (t : Tbl (Option Nat)) j => tset (fun _ => none) t (at' b (76 + 8 * j) 4) (some (at' b (80 + 8 * j) 4))
    { d with twin := { d.twin with sent := (List.range n).foldl put d.twin.sent } }

/-- HEALTH_REPORT: a HEALTH word arrives. -/
def execHealthReport (word : List Nat) (s : State) : Host.Outcome State Fault Refusal :=
  nextDev s (s.dev.leaseRx 4 word fun d => if d.isArb then d.healthArb word else d.healthTwin word)

/-! The arbiter (R415, R418). -/

/-- The arbiter may renew a holder: its latest due report is valid, it is not fenced and has not lost a comparison. -/
def Dev.mayRenew (d : Dev) (k : Nat) : Bool := d.nodeValid k && !bit d.twin.barred k

/-- The arbiter may grant a twin (R418, R423). -/
def Dev.mayGrant (d : Dev) (k : Nat) : Bool := d.mayRenew k && (d.lastOf k).any fun r => r.lease != 4

/-- A GRANT to a twin leaves the arbiter. -/
def Dev.sendGrant (d : Dev) (k gen : Nat) : Dev :=
  let d1 := d.leaseTx 2 2 k gen d.twin.l d.twin.g []
  { d1 with twin := { d1.twin with gen := gen, hold := some k, tg := tset (fun _ => none) d1.twin.tg k (some d1.now),
                                   barred := setBit d1.twin.barred (1 - k) false } }

/-- The time of the last GRANT to a node lies t_g + L + G back, or there was none (R418). -/
def Dev.grantSafe (d : Dev) (other : Nat) : Bool :=
  match tget (fun _ => none) d.twin.tg other with
  | none => true
  | some t => decide (t + (d.twin.l + d.twin.g) * 1000 ≤ d.now)

/-- ARBITER_GRANT: a first GRANT, to PREF when both twins may have it, or the other twin with GEN + 1 once t_g + L + G has passed. -/
def execArbiterGrant (s : State) : Host.Outcome State Fault Refusal :=
  let d := s.dev
  let t := d.twin
  let pref := d.f LS_CTRL LS_CTRL_PREF
  nextDev s (if !d.isArb || t.waiting then d
    else match t.hold with
    | none =>
      match [pref, 1 - pref].find? fun k => d.mayGrant k && d.grantSafe (1 - k) with
      | some k => d.sendGrant k t.gen
      | none => d
    | some h =>
      if d.mayRenew h || t.cfgBad || !d.mayGrant (1 - h) || !d.grantSafe h then d
      else d.sendGrant (1 - h) ((t.gen + 1) % 2 ^ 16))

/-- ARBITER_RENEW: every L/4 the valid holder gets a GRANT of the same GEN. -/
def execArbiterRenew (s : State) : Host.Outcome State Fault Refusal :=
  let d := s.dev
  nextDev s (if !d.isArb || d.twin.waiting then d
    else match d.twin.hold with
    | some h => if d.mayRenew h then d.sendGrant h d.twin.gen else d
    | none => d)

/-- ARBITER_SYNC: SYNC leaves once every 1 ms, with the cycle count. -/
def execArbiterSync (s : State) : Host.Outcome State Fault Refusal :=
  let d := s.dev
  nextDev s (if !d.isArb then d
    else
      let d1 := d.leaseTx 1 2 0xFF 0 (d.twin.cycle % 2 ^ 32) 0 []
      { d1 with twin := { d1.twin with cycle := d1.twin.cycle + 1, held := 0 } })

/-- TWIN_FAILED: the end of a twin's slot; after three slots without a valid report the twin has failed (R420). -/
def execTwinFailed (node : Nat) (s : State) : Host.Outcome State Fault Refusal :=
  let d := s.dev
  let t := d.twin
  nextDev s (if !d.isArb || node ≥ 2 then d
    else if bit t.got node then { d with twin := { t with got := setBit t.got node false } }
    else
      let n := tget (fun _ => 0) t.miss node + 1
      let d1 := ({ d with twin := { t with miss := tset (fun _ => 0) t.miss node n } } : Dev).cntF LSC_HEALTH_MISS
        (if node = 0 then LO32 else HI32) 1
      if n ≥ 3 then d1.nodeFailed node else d1)

/-- ARBITER_WAIT_END: 30 ms + G after its start the arbiter sets its GEN from the reports (R418). -/
def execArbiterWaitEnd (s : State) : Host.Outcome State Fault Refusal :=
  let d := s.dev
  let t := d.twin
  let gens := ([0, 1].filterMap d.lastOf).map (·.gen)
  let top := gens.foldl (fun a b => if later b a 16 then b else a) (gens.headD 0)
  nextDev s (if !d.isArb || !t.waiting || decide (d.now < t.startAt + 30000000 + t.g * 1000) then d
    else ({ d with twin := { t with waiting := false, gen := (top + 1) % 2 ^ 16 } } : Dev).syncLease)

/-! Commands (R428, R429). -/

/-- The lease counters of Table 14.6. -/
def leaseCounters : List Nat := [LSC_LS_BAD, LSC_GEN_REFUSED, LSC_LS_CHANGES, LSC_HEALTH_MISS]

/-- LEASE_CONFIG (Table 14.9): the settings go into force and into retained state, and a commit is requested. -/
def leaseConfigDef : CmdDef where
  op := 0x0B05
  masks := fun _ => [0xFFFF0007, 0xFFFFFFFF, 0xFFFF, 0xFFFFF, 0xFFFFFFFF, 0xFFFF]
  bad := fun c s => (List.range 20).any fun m => bit (c.p 3) m && s.dev.macMode m == 0
  run := onDev fun c s =>
    let d := s.dev
    let ms := (List.range 20).filter fun m => bit (c.p 3) m
    if d.run.active || d.compat then noR .badState d
    else match readTable d s.mem (c.q 4) (20 * ms.length) with
    | .error k => noR k d
    | .ok bs =>
      let twin := bit (c.p 0) 0
      let id : LeaseId := { twin := twin, pairId := c.b 0 31 16, node := c.b 0 1 1, gateAsl := bit (c.p 0) 2, mac := c.q 1,
                            portMask := c.p 3, svc := (List.range ms.length).map fun k => (at' bs (20 * k) 4, at' bs (20 * k + 4) 16) }
      let ctrl := b2n twin + c.b 0 1 1 * 4 + c.b 0 2 2 * 8 + c.b 0 31 16 * 65536 + (d.rdN LS_CTRL &&& 0x10)
      let d1 := ({ d with ret := { d.ret with lease := id }, twin := { d.twin with holder := false } } : Dev).wrN LS_CTRL ctrl
      okR [] ((d1.syncLease).wantCommit .lease none)

/-- LS_STAT as it reads: TIMER_US is the lease time left. -/
def Dev.leaseStat (d : Dev) : Nat :=
  let us := if d.isTwin && d.twin.holder then (d.twin.leaseEnd - d.now) / 1000 else 0
  (putF LS_STAT_TIMER_US us (d.rd LS_STAT)).toNat

/-- LEASE_STATUS: the LS registers, the counters and the last sixteen lease words, eight words of each. -/
def leaseStatusDef : CmdDef where
  op := 0x0B06
  run := onDev fun c s =>
    let d := s.dev
    okR ([d.rdN LS_CTRL] ++ lohi d.leaseStat ++ leaseCounters.flatMap (fun a => lohi (d.rdN a)) ++ [d.twin.words.length] ++
        d.twin.words.flatMap fun w => (List.range 8).map fun k => at' w (4 * k) 4)
      (if c.clear then d.clearRegs leaseCounters else d)

/-- ARBITER_CONFIG (log entry 8): word 0 [0] start, [1] PREF, [31:16] PAIR_ID; word 1 L and word 2 G in µs (R418). -/
def arbiterConfigDef : CmdDef where
  op := 0x0B07
  masks := fun _ => [0xFFFF0003, 0xFFFFFFFF, 0xFFFFFFFF]
  bad := fun c _ => !decide (1000 ≤ c.p 1 ∧ c.p 1 ≤ 30000 ∧ 100 ≤ c.p 2 ∧ c.p 2 ≤ 100000)
  run := onDev fun c s =>
    let d := s.dev
    if d.isTwin || d.compat then noR .badState d
    else
      let start := bit (c.p 0) 0
      let d1 := ((d.setF LS_CTRL LS_CTRL_ROLE (if start then 2 else 0)).setF LS_CTRL LS_CTRL_PREF (c.b 0 1 1)).setF LS_CTRL
        LS_CTRL_PAIR_ID (c.b 0 31 16)
      let t := d1.twin
      let t1 : Twin := if start && !d.isArb then { words := t.words, alive := t.alive, l := c.p 1, g := c.p 2, startAt := d.now, waiting := true }
        else { t with l := c.p 1, g := c.p 2 }
      okR [] ({ d1 with twin := t1 } : Dev).syncLease

/-- HEALTH_READ: word 0 [1:0] the node, 2 the device's own; the bodies of its last sixteen reports, each behind its length. -/
def healthReadDef : CmdDef where
  op := 0x0B08
  masks := fun _ => [3]
  bad := fun c _ => c.b 0 1 0 == 3
  run := onDev fun c s =>
    let d := s.dev
    let k := if c.b 0 1 0 = 2 then d.f LS_CTRL LS_CTRL_NODE else c.b 0 1 0
    let xs := (d.twin.reports.filter (·.1 == k)).map (·.2)
    let xs := if c.b 0 1 0 = 2 && xs.isEmpty then [d.healthBody] else xs
    okR (xs.length :: xs.flatMap fun b => b.length :: (List.range (ceilDiv b.length 4)).map fun j => at' b (4 * j) 4) d

/-- Meanings of the twin commands. -/
def execLeaseConfig (slot : Nat) (s : State) : Host.Outcome State Fault Refusal := .next (serve leaseConfigDef slot 0 0 s)
def execLeaseStatus (slot : Nat) (s : State) : Host.Outcome State Fault Refusal := .next (serve leaseStatusDef slot 0 0 s)
def execArbiterConfig (slot : Nat) (s : State) : Host.Outcome State Fault Refusal := .next (serve arbiterConfigDef slot 0 0 s)
def execHealthRead (slot : Nat) (s : State) : Host.Outcome State Fault Refusal := .next (serve healthReadDef slot 0 0 s)

end Sys2Proof.Machine
end

