-- ==== Sys2Proof/Machine/Matrix.lean ====
section
/-!
DEFINITION. The bus matrix: reads and writes of block windows by access code and by the identity of the writer, memory
accesses with their error correction, the default error target, and the DMA engine (00_scope R7, R18 to R22;
11_control_plane).
-/
namespace Sys2Proof.Machine

/-! Who writes (R7). -/

/-- The identity of a master of Table 11.3: 0 firmware, 1 to 3 the data port of that logical core, else the master's number with
the instruction ports at 16 and above. -/
def Dev.whoOf (d : Dev) (m : Nat) : Nat := if m < 8 then (if m % 2 = 1 then d.logicalOf (m / 2) else 16 + m) else m

/-- The master that a logical core's data port is. -/
def Dev.dataPort (d : Dev) (l : Nat) : Nat := 2 * d.physOf l + 1

/-! Reading registers. -/

/-- The state of the commit engine and of retained state as SC_RS_STAT reads. -/
def rsStat (s : State) : Nat :=
  let f := s.flash
  let gen := match if f.sel then f.slot1 else f.slot0 with | .ok g _ _ => g | _ => 0
  let other := if f.sel then f.slot0 else f.slot1
  let e := match f.engine with | .idle => 0 | .programming => 1 | .verifying => 2 | .erasing => 3
  let recent := s.dev.pwr.commitTimes.countP fun t => decide (s.dev.now < t + 86400 * 10 ^ 9)
  b2n f.sel + b2n (decide (other = .blank)) * 2 + e * 4 + b2n (!s.dev.pwr.reqs.isEmpty) * 16 + min recent 255 * 32 +
    (if f.selValid then gen % 2 ^ 32 * 2 ^ 32 else 0)

/-- SC_HU_RES with its age. -/
def Dev.huRes (d : Dev) : Nat :=
  match d.pwr.huAt with
  | some t => (putF SC_HU_RES_AGE_S (min 0xFFFF ((d.now - t) / 10 ^ 9)) (d.rd SC_HU_RES)).toNat
  | none => d.rdN SC_HU_RES

/-- CR_TIMER of a core: KCLK cycles at 800 MHz, wrapping. -/
def Dev.crTimer (d : Dev) (c : Nat) : Nat := (d.now - (d.core c).timerAt) * 4 / 5 % 2 ^ 48

/-- What a register reads as, those that the model computes among them. -/
def regValue (s : State) (a : Nat) : Nat :=
  let d := s.dev
  let pageOf := (a - 0x40F00000) / 0x10000
  if a = TSU_TOD_SEC then d.todSec
  else if a = TSU_TOD_NS then (tget (fun _ => none) d.latch (TSU_TOD_NS + 1)).getD d.todNsFrac
  else if a = LS_STAT then d.leaseStat
  else if a = SC_RS_STAT then rsStat s
  else if a = SC_HU_RES then d.huRes
  else if 0x40F00000 ≤ a ∧ a < 0x40F40000 ∧ a = CR_TIMER pageOf then d.crTimer pageOf
  else if 0x40F00000 ≤ a ∧ a < 0x40F40000 ∧ a = CR_STAT pageOf then
    let pc := if d.f (CR_STAT pageOf) CR_STAT_STATE = 2 then (d.core pageOf).ctx.pc else 0
    (putF CR_STAT_LOGICAL (d.logicalOf pageOf) (putF CR_STAT_PC pc (d.rd a))).toNat
  else match regRow a with
  | some r => d.rdN a &&& ((2 ^ 64 - 1) ^^^ (r.wo ||| r.rsv))
  | none => 0

/-- What the read of a register does besides: the two words of the time of day form one instant (R260), and a read of CV_RESULT
waits for its feeds (R398). -/
def Dev.regReadDone (d : Dev) (a : Nat) : Dev :=
  if a = TSU_TOD_SEC then { d with latch := tset (fun _ => none) d.latch (TSU_TOD_NS + 1) (some d.todNsFrac) }
  else if a = TSU_TOD_NS then { d with latch := tset (fun _ => none) d.latch (TSU_TOD_NS + 1) none }
  else match (List.range 8).find? fun u => a == CV_RESULT u with
  | some u => d.cvDrain u
  | none => d

/-- An answer with data. -/
def okRsp (n v : Nat) : Rsp := { kind := .ok, data := leBytes n v }

/-- An error response: zero data. -/
def errRsp (n : Nat) : Rsp := { kind := .error, data := List.replicate n 0 }

/-- A read of a block window or of the host-interface memory (R21, R22): the access has the register's width, or is one half of a
64-bit register; the low half latches the high one. -/
def regAccess (a n : Nat) (s : State) : Rsp × State :=
  if !(n == 4 || n == 8) || a % n != 0 then (errRsp n, s)
  else match regRow a with
  | some r =>
    if n * 8 > r.width then (errRsp n, s)
    else
      let s1 := match (List.range 8).find? fun u => a == CV_RESULT u with
        | some u => { s with dev := s.dev.cvDrain u }
        | none => s
      let isCv := (List.range 8).find? fun u => a == CV_RESULT u
      let v := match isCv with | some u => s1.dev.cvResult u | none => regValue s1 a
      let d := s1.dev.regReadDone a
      let d1 := if n * 8 < r.width then { d with latch := tset (fun _ => none) d.latch a (some (v / 2 ^ 32)) } else d
      (okRsp n v, { s1 with dev := d1 })
  | none =>
    match if n = 4 ∧ a % 8 = 4 then regRow (a - 4) else none with
    | some r =>
      if r.width ≠ 64 then (okRsp n 0, s)
      else
        match tget (fun _ => none) s.dev.latch (a - 4) with
        | some v => (okRsp n v, { s with dev := { s.dev with latch := tset (fun _ => none) s.dev.latch (a - 4) none } })
        | none => (okRsp n (regValue s (a - 4) / 2 ^ 32), s)
    | none => (okRsp n 0, s)

/-- A read by a master through the matrix (R338, R339, R343): its answer and what it leaves. -/
def busRead (m a n : Nat) (s : State) : Rsp × State :=
  let t := s.dev.route a
  if !connected m t.1 then (errRsp n, { s with dev := s.dev.noteDefault m a false true })
  else match t.1 with
  | .none => (errRsp n, { s with dev := s.dev.noteDefault m a false false })
  | .blocks | .hostmem => regAccess a n s
  | .hbm | .ddr =>
    let r := memRead s.dev s.mem a n
    if (granulesOf t.2 n).any s.dev.dead then (r, { s with dev := s.dev.noteDead a })
    else
      let x := eccRead (s.dev, s.mem) t.2 n
      (r, { s with dev := x.1, mem := x.2 })
  | .sram | .core =>
    let r := memRead s.dev s.mem a n
    let x := eccRead (s.dev, s.mem) t.2 n
    (r, { s with dev := x.1, mem := x.2 })
  | .rom | .out => (memRead s.dev s.mem a n, s)

/-- Which bytes of a range a master would read as poison (R346). -/
def poisonLanes (s : State) (a n : Nat) : List Bool :=
  let t := s.dev.route a
  match t.1 with
  | .sram | .core => (List.range n).map fun i => s.mem.poisonAt (t.2 + i)
  | .hbm | .ddr => (List.range n).map fun i => s.dev.dead (t.2 + i) || s.mem.poisonAt (t.2 + i)
  | _ => List.replicate n false

/-! DMA channels (R347 to R356). -/

/-- A channel. -/
def Dev.ch (d : Dev) (n : Nat) : DmaCh := tget (fun _ => {}) d.dma n

/-- The device with a channel replaced. -/
def Dev.setCh (d : Dev) (n : Nat) (x : DmaCh) : Dev := { d with dma := tset (fun _ => {}) d.dma n x }

/-- Channel states. -/
def DMA_IDLE : Nat := 0
def DMA_RUNNING : Nat := 1
def DMA_AT_END : Nat := 2
def DMA_ERROR : Nat := 3

/-- STATE of a channel. -/
def Dev.chState (d : Dev) (n : Nat) : Nat := d.f (DC_STAT n) DC_STAT_STATE

/-- The master a channel issues through. -/
def dmaPort (n : Nat) : Nat := 8 + n / 8

/-- START (R355, R356): the counters are cleared, the error too, and the channel runs at DC_HEAD. -/
def Dev.dmaStart (d : Dev) (n : Nat) : Dev :=
  if d.chState n = DMA_RUNNING then d.raise 0x0803 n (DC_CTRL n) 0
  else
    (((((d.setCh n {}).wrN (DC_CUR n) (d.rdN (DC_HEAD n) / 32 * 32)).wrN (DC_CNT n) 0).wrN (DC_BYTES n) 0).setF (DC_STAT n)
      DC_STAT_ERR 0).setF (DC_STAT n) DC_STAT_STATE DMA_RUNNING

/-- End of count (R351, R352): EOC, the line, and the comparison of the counters. -/
def Dev.dmaEoc (d : Dev) (n : Nat) : Dev :=
  let d1 := d.setF (DC_STAT n) DC_STAT_EOC 1
  let d2 := if d1.on (DC_CTRL n) DC_CTRL_IRQ_EN then d1.lineAll n else d1
  if d2.f (DC_CNT n) LO32 = d2.f (DC_CNT n) HI32 then d2 else d2.raise 0x0801 n 0 0

/-- The descriptor in progress is counted as completed (R351, R352). -/
def Dev.dmaCounted (d : Dev) (n tag : Nat) : Dev :=
  (d.setF (DC_CNT n) HI32 ((d.f (DC_CNT n) HI32 + 1) % 2 ^ 32)).wrN (DC_LAST n) (d.rdN (DC_CUR n) % 2 ^ 48 + tag % 256 * 2 ^ 48)

/-- A descriptor ends in an error and the channel stops in ERROR (R355). -/
def Dev.dmaFail (d : Dev) (n err : Nat) : Dev :=
  let tag := (d.ch n).tag
  ((((d.setCh n {}).dmaCounted n tag).setF (DC_STAT n) DC_STAT_ERR err).setF (DC_STAT n) DC_STAT_STATE DMA_ERROR).dmaEoc n

/-- The channel stops in ERROR with no descriptor in progress. -/
def Dev.dmaStop (d : Dev) (n err : Nat) : Dev :=
  (((d.setCh n {}).setF (DC_STAT n) DC_STAT_ERR err).setF (DC_STAT n) DC_STAT_STATE DMA_ERROR).dmaEoc n

/-- Bytes 24 to 31 of the tail read again (R353, R354): none for an error response or poison. -/
def reread (n : Nat) (s : State) : Option Nat × State :=
  let r := busRead (dmaPort n) (s.dev.rdN (DC_CUR n) + 24) 8 s
  (if r.1.kind == .ok && !r.1.poison then some (leNat r.1.data) else none, r.2)

/-- RESUME by the channel's state (R354). -/
def dmaResume (n : Nat) (s : State) : State :=
  let d := s.dev
  let x := d.ch n
  if x.endCheck then { s with dev := d.setCh n { x with heldResume := true } }
  else if d.chState n = DMA_AT_END then
    let r := reread n s
    match r.1 with
    | none => { r.2 with dev := r.2.dev.dmaStop n 1 }
    | some w =>
      if bit w 48 then r.2
      else { r.2 with dev := ((r.2.dev.setCh n {}).wrN (DC_CUR n) (w % 2 ^ 48)).setF (DC_STAT n) DC_STAT_STATE DMA_RUNNING }
  else { s with dev := d.cntF (DC_RES n) LO32 1 }

/-! Writing registers. -/

/-- Registers that Table 12.3 opens to the host: CPL_STAT, JOB_DONE, INT_EN, INT_MOD and INT_CAUSE. -/
def hostOpen (a : Nat) : Bool :=
  a == CPL_STAT || a == INT_EN || a == INT_MOD || a == INT_CAUSE || (decide (JOB_DONE_BITS 0 ≤ a ∧ a ≤ JOB_DONE_BITS 31))

/-- The bits of a register that a writer may change (R7, R188, R327, R333, R347 and chapter 13): firmware all, and the owner or the
core itself what its chapter opens. -/
def Dev.writable (d : Dev) (r : RegRow) (who a : Nat) : Nat :=
  let all := 2 ^ 64 - 1
  let page := (a - 0x40F00000) / 0x10000
  if who = 0 then (if a = SC_WDOG then all - 1 else all)
  else if who = 10 && hostOpen a then all
  else match r.opn with
  | .none => 0
  | .core =>
    if r.base = CR_INT 0 0 then (if (a - CR_INT page 0) / 4 ≥ 40 then 8 else 0)
    else if who < 4 ∧ d.physOf who = page then (if r.base = CR_WDOG 0 then 2 ^ 31 else all) else 0
  | .dma =>
    let ch := (a - DC_CTRL 0) / 0x100
    if (who = 1 ∨ who = 2) ∧ d.f (DC_CTRL ch) DC_CTRL_OWNER = who then (if a = DC_CTRL ch then 0xF else all) else 0
  | .cvu =>
    let u := (a - CV_CFG 0) / 0x100
    if d.cvOpen u who then all else 0
  | .beam => if d.beamOpen who then all else 0

/-- A plain write by access code (Table 0.4): RW fields take the value, W1C bits clear, W1S bits set, others ignore it. -/
def plainWrite (r : RegRow) (old mask v : Nat) : Nat :=
  let rw := r.rw &&& mask
  let x := (old &&& ((2 ^ 64 - 1) ^^^ rw)) ||| (v &&& rw)
  let y := x &&& ((2 ^ 64 - 1) ^^^ (v &&& r.w1c &&& mask))
  y ||| (v &&& r.w1s &&& mask)

/-- Work of a write that no field holds, by register, once the plain write is made: the writes that have rows of their own. -/
def writeActs (who : Nat) (r : RegRow) (a mask v : Nat) (old : State) (s : State) : State :=
  let d := s.dev
  let on := fun (i : Nat) => bit (v &&& mask) i
  let page := (a - 0x40F00000) / 0x10000
  let ch := (a - DC_CTRL 0) / 0x100
  let cv := (a - CV_CFG 0) / 0x100
  let ln := (a - LN_CTRL 0) / 0x1000
  if r.base = LN_CTRL 0 then (if on 31 then { s with dev := d.clearRegs (laneCounters ln) } else s)
  else if r.base = LN_EYE 0 then (if old.dev.f a LN_EYE_EN = 0 ∧ d.f a LN_EYE_EN = 1 then { s with dev := d.eyeStart ln } else s)
  else if r.base = LN_PRBS 0 then (if on 16 then { s with dev := d.injGo ln } else s)
  else if r.base = XC_CTRL then (if on 5 then { s with dev := d.btSwapReq } else s)
  else if r.base = BM_WCTRL then (if on 3 then { s with dev := (d.setF BM_WCTRL BM_WCTRL_SWAP (old.dev.f BM_WCTRL BM_WCTRL_SWAP)).swapRequest } else s)
  else if r.base = TIM_PHASE then { s with dev := d.phaseStep (sext 32 v, bit v 32) }
  else if r.base = TIM_XO_TEMP then { s with dev := d.xoTempWrite v }
  else if r.base = ER_CMD then
    let d1 := if on 0 then d.errPop else d
    let d2 := if on 1 then d1.errClrFirst else d1
    { s with dev := if on 2 then d2.errClrLost else d2 }
  else if r.base = CV_CFG 0 then (if on 16 then { s with dev := d.cvStart cv } else s)
  else if r.base = CV_FEED_B_R 0 then { s with dev := d.cvFeed cv (.b (v % 2 ^ 8)) }
  else if r.base = CV_FEED_H_R 0 then { s with dev := d.cvFeed cv (.h (v % 2 ^ 16)) }
  else if r.base = CV_FEED_W_R 0 then { s with dev := d.cvFeed cv (.w (v % 2 ^ 32)) }
  else if r.base = CV_ALIVE_GO_R 0 then { s with dev := d.cvAlive cv v }
  else if r.base = CR_WDOG 0 then (if on 31 then { s with dev := d.setCore page { d.core page with wdogAt := d.now } } else s)
  else if r.base = CR_INT 0 0 then
    let l := (a - CR_INT page 0) / 4
    { s with dev := if on 3 && decide (l ≥ 40) then (d.setF a CR_INT_SWSET 0).lineOn page l else d.setF a CR_INT_SWSET 0 }
  else if r.base = SC_REMAP then (if who = 0 then s else { s with dev := d.wr a (old.dev.rd a) })
  else if r.base = DC_CTRL 0 then
    let s1 := if on 0 then { s with dev := d.dmaStart ch } else s
    let s2 := if on 1 then dmaResume ch s1 else s1
    if on 2 && s2.dev.chState ch == DMA_RUNNING then
      { s2 with dev := if (s2.dev.ch ch).copying then s2.dev.dmaFail ch 7 else s2.dev.dmaStop ch 7 }
    else s2
  else if r.base = CR_CTRL 0 then { s with dev := d.coreCmd page (bits (v &&& mask) 1 0) }
  else s

/-- Writes that are dropped and logged with a code of their own (R137, R344, R347). -/
def Dev.dropWrite (d : Dev) (r : RegRow) (a who : Nat) : Dev :=
  if r.opn = .dma then d.raise 0x0802 ((a - DC_CTRL 0) / 0x100) a who
  else if r.opn = .beam then d.raise 0x0601 0xFF a who
  else if r.base = SC_REMAP then d.raise 0x0003 0xFF a who
  else d.regDrop a who

/-- A write of a block window or of the host-interface memory by a writer (R7, R18, R21, R22): whether it is answered well. -/
def regWrite (who a n v : Nat) (s : State) : Bool × State :=
  let put := fun (r : RegRow) (base half v : Nat) =>
    let m := s.dev.writable r who base
    let mask := m &&& half
    if m = 0 then (true, { s with dev := s.dev.dropWrite r base who })
    else if r.base = BT_ENTRY 0 0 0 ∧ (base - BT_ENTRY 0 0 0) / 0x10000 = s.dev.btCopy then
      (true, { s with dev := s.dev.raise 0x0504 0xFF base who })
    else
      let s1 := { s with dev := s.dev.wrN base (plainWrite r (s.dev.rdN base) mask v) }
      (true, writeActs who r base mask v s s1)
  if !(n == 4 || n == 8) || a % n != 0 then (false, s)
  else match regRow a with
  | some r => if n * 8 > r.width then (false, s) else put r a (2 ^ (8 * n) - 1) (v % 2 ^ (8 * n))
  | none =>
    match if n = 4 ∧ a % 8 = 4 then regRow (a - 4) else none with
    | some r => if r.width ≠ 64 then (true, s) else put r (a - 4) (2 ^ 64 - 2 ^ 32) (v % 2 ^ 32 * 2 ^ 32)
    | none => (true, s)

/-- A write by a master through the matrix, with the lanes that carry poison (R338, R339, R343, R346). -/
def busWrite (m a : Nat) (bs : List Nat) (lanes : List Bool) (s : State) : Bool × State :=
  let t := s.dev.route a
  let n := bs.length
  let psn := lanes.any id
  if !connected m t.1 then (false, { s with dev := s.dev.noteDefault m a true true })
  else match t.1 with
  | .none | .rom => (false, { s with dev := s.dev.noteDefault m a true false })
  | .blocks | .hostmem =>
    if psn then (false, { s with dev := s.dev.raise 0x0C02 m a 0 }) else regWrite (s.dev.whoOf m) a n (leNat bs) s
  | .out => let w := memWrite s.dev s.mem a bs psn; (w.1, { s with mem := w.2 })
  | .sram | .core | .hbm | .ddr =>
    let dead := (t.1 == .hbm || t.1 == .ddr) && (granulesOf t.2 n).any s.dev.dead
    let x := if dead then (s.dev.noteDead a, s.mem) else eccWrite (s.dev, s.mem) t.2 n psn
    let w := memWrite s.dev x.2 a bs false
    let hit := (granulesOf t.2 n).filter fun g => lanes.zipIdx.any fun (p, i) => p && decide (g ≤ t.2 + i ∧ t.2 + i < g + granule g)
    (w.1, { s with dev := x.1, mem := hit.foldl (fun q g => q.mark g true) w.2 })

/-! The copy of a descriptor (R348 to R350). -/

/-- One element of a list (Table 11.6). -/
structure SgElem where
  addr : Nat
  len : Nat
  link : Bool
  last : Bool
  bad : Bool

/-- An element read from memory; none for an error response or poison. -/
def sgRead (n a : Nat) (s : State) : Option SgElem × State :=
  let r := busRead (dmaPort n) a 16 s
  let w := leNat (r.1.data.take 8)
  (if r.1.kind == .ok && !r.1.poison then
    some { addr := w % 2 ^ 48, len := at' r.1.data 8 4, link := bit w 62, last := bit w 63,
           bad := bits w 61 48 != 0 || at' r.1.data 12 4 != 0 } else none, r.2)

/-- The runs of one side of a descriptor until LEN bytes are named, or the error that its list meets. -/
def sgRuns (n : Nat) : Nat → Nat → Nat → List (Nat × Nat) → State → List (Nat × Nat) × Nat × State
  | 0, _, _, acc, s => (acc.reverse, 1, s)
  | f + 1, a, left, acc, s =>
    if left = 0 then (acc.reverse, 0, s)
    else
      let r := sgRead n a s
      match r.1 with
      | none => (acc.reverse, 1, r.2)
      | some e =>
        if e.bad then (acc.reverse, 2, r.2)
        else if e.link then sgRuns n f e.addr left acc r.2
        else if e.len = 0 then (acc.reverse, 2, r.2)
        else
          let k := min e.len left
          if e.last && decide (k < left) then (((e.addr, k) :: acc).reverse, 5, r.2)
          else sgRuns n f (a + 16) (left - k) ((e.addr, k) :: acc) r.2

/-- Two lists of runs cut into common pieces: source, destination and length. -/
def pairRuns : Nat → List (Nat × Nat) → List (Nat × Nat) → List (Nat × Nat × Nat)
  | 0, _, _ => []
  | f + 1, (a, n) :: xs, (b, m) :: ys =>
    let k := min n m
    (a, b, k) :: pairRuns f (if n = k then xs else (a + k, n - k) :: xs) (if m = k then ys else (b + k, m - k) :: ys)
  | _, _, _ => []

/-- Pieces that are contiguous on both sides made one (R349). -/
def joinPieces : List (Nat × Nat × Nat) → List (Nat × Nat × Nat)
  | [] => []
  | p :: ps =>
    match joinPieces ps with
    | [] => [p]
    | q :: qs => if p.1 + p.2.2 = q.1 ∧ p.2.1 + p.2.2 = q.2.1 then (p.1, p.2.1, p.2.2 + q.2.2) :: qs else p :: q :: qs

/-- The bursts of a piece in the order of its copy: at most 64 bytes within a 64-byte block of the source, downward where the
destination starts inside the source, else upward (R349). -/
def bursts (p : Nat × Nat × Nat) : List (Nat × Nat × Nat) :=
  let up := (List.range (ceilDiv (p.1 % 64 + p.2.2) 64)).map fun i =>
    let lo := max p.1 ((p.1 / 64 + i) * 64)
    let hi := min (p.1 + p.2.2) ((p.1 / 64 + i + 1) * 64)
    (lo, p.2.1 + (lo - p.1), hi - lo)
  if p.1 < p.2.1 ∧ p.2.1 < p.1 + p.2.2 then up.reverse else up

/-- Bursts copied until all are done, an error comes or the byte budget of an ABORT runs out: bytes moved and the error. -/
def copyBursts (n : Nat) : List (Nat × Nat × Nat) → Nat → Nat → State → Nat × Nat × State
  | [], _, moved, s => (moved, 0, s)
  | (a, b, k) :: r, left, moved, s =>
    if left < k then (moved, 0, s)
    else
      let lanes := poisonLanes s a k
      let x := busRead (dmaPort n) a k s
      if x.1.kind ≠ .ok then (moved, 3, x.2)
      else
        let s1 := if lanes.any id then { x.2 with dev := x.2.dev.setF (DC_STAT n) DC_STAT_POISON_SEEN 1 } else x.2
        let w := busWrite (dmaPort n) b x.1.data lanes s1
        if !w.1 then (moved, 4, w.2) else copyBursts n r (left - k) (moved + k) w.2

/-- The copy of the descriptor in progress, of at most `budget` bytes: the address of the last byte written, the error, and what it
leaves. A side that is a list is read as far as LEN bytes. -/
def dmaCopy (n budget : Nat) (s : State) : Option Nat × Nat × State :=
  let x := s.dev.ch n
  let fuel := 2 * x.len + 65536
  let a := if x.srcSg then sgRuns n fuel x.src x.len [] s else ([(x.src, x.len)], 0, s)
  let b := if x.dstSg then sgRuns n fuel x.dst x.len [] a.2.2 else ([(x.dst, x.len)], 0, a.2.2)
  let ps := joinPieces (pairRuns (a.1.length + b.1.length) a.1 b.1)
  let c := copyBursts n (ps.flatMap bursts) (min budget x.len) 0 b.2.2
  let d := c.2.2.dev.cnt (DC_BYTES n) c.1
  let err := if c.2.1 ≠ 0 then c.2.1 else if a.2.1 ≠ 0 then a.2.1 else b.2.1
  (ps.getLast?.map fun p => p.2.1 + p.2.2 - 1, err, { c.2.2 with dev := d })

/-- ABORT (R356): the bytes that had been moved by then keep their effect, and the descriptor ends ABORTED. -/
def dmaAbort (n moved : Nat) (s : State) : State :=
  if s.dev.chState n ≠ DMA_RUNNING then s
  else if (s.dev.ch n).copying then
    let c := dmaCopy n moved s
    { c.2.2 with dev := c.2.2.dev.dmaFail n 7 }
  else { s with dev := s.dev.dmaStop n 7 }

/-- DESCRIPTOR_FETCH (R348): the next descriptor is read, counted and checked. -/
def dmaFetch (n : Nat) (s : State) : State :=
  let x := s.dev.ch n
  if s.dev.chState n ≠ DMA_RUNNING ∨ x.copying ∨ x.endCheck then s
  else
    let r := busRead (dmaPort n) (s.dev.rdN (DC_CUR n)) 32 s
    let b := r.1.data
    let s1 := { r.2 with dev := r.2.dev.setF (DC_CNT n) LO32 ((r.2.dev.f (DC_CNT n) LO32 + 1) % 2 ^ 32) }
    if r.1.kind ≠ .ok ∨ r.1.poison then { s1 with dev := s1.dev.dmaFail n 1 }
    else
      let c := at' b 20 4
      let y : DmaCh := { src := at' b 0 6, dst := at' b 8 6, len := at' b 16 4, irq := bit c 0, srcSg := bit c 1, dstSg := bit c 2,
                         tag := bits c 15 8, nxt := at' b 24 6, fin := bit (at' b 30 2) 0, copying := true }
      let inBlocks := fun (a : Nat) => (s.dev.route a).1 == .blocks
      let bad := at' b 6 2 != 0 || at' b 14 2 != 0 || bits c 7 3 != 0 || bits c 31 16 != 0 || at' b 30 2 / 2 != 0 ||
        (!y.fin && y.nxt % 32 != 0) || (y.srcSg && inBlocks y.src) || (y.dstSg && inBlocks y.dst)
      let s2 := { s1 with dev := s1.dev.setCh n y }
      if bad then { s2 with dev := s2.dev.dmaFail n 2 } else s2

/-- The read-back of the block that holds the last byte written (R351): a destination in target 2 has none. -/
def readBack (n : Nat) (last : Option Nat) (s : State) : Bool × State :=
  match last with
  | none => (true, s)
  | some a =>
    match (s.dev.route a).1 with
    | .blocks => (true, s)
    | .out => let r := busRead (dmaPort n) (a / 4 * 4) 4 s; (r.1.kind == .ok, r.2)
    | _ => let r := busRead (dmaPort n) (a / 64 * 64) 64 s; (r.1.kind == .ok && !r.1.poison, r.2)

/-- DESCRIPTOR_COMPLETE (R351): the copy ends, its last block is read back, and the descriptor counts. -/
def dmaComplete (n : Nat) (s : State) : State :=
  let x := s.dev.ch n
  if s.dev.chState n ≠ DMA_RUNNING ∨ !x.copying then s
  else
    let c := dmaCopy n x.len s
    if c.2.1 ≠ 0 then { c.2.2 with dev := c.2.2.dev.dmaFail n c.2.1 }
    else
      let rb := readBack n c.1 c.2.2
      if !rb.1 then { rb.2 with dev := rb.2.dev.dmaFail n 6 }
      else
        let d := (rb.2.dev.dmaCounted n x.tag).setCh n { x with copying := false, endCheck := x.fin }
        let d1 := if x.fin then d else d.wrN (DC_CUR n) x.nxt
        { rb.2 with dev := if x.irq || x.fin then d1.dmaEoc n else d1 }

/-- END_CHECK (R353): bytes 24 to 31 of a completed tail read again; a held RESUME then acts. -/
def dmaEndCheck (n : Nat) (s : State) : State :=
  let x := s.dev.ch n
  if !x.endCheck then s
  else
    let r := reread n s
    let held := x.heldResume
    let s1 := match r.1 with
      | none => { r.2 with dev := r.2.dev.dmaStop n 1 }
      | some w =>
        let d := r.2.dev.setCh n {}
        if bit w 48 then { r.2 with dev := d.setF (DC_STAT n) DC_STAT_STATE DMA_AT_END }
        else { r.2 with dev := (d.wrN (DC_CUR n) (w % 2 ^ 48)).cntF (DC_RES n) HI32 1 }
    if held then dmaResume n s1 else s1

/-! Rows of the matrix and of the DMA engine. -/

/-- A write of one bit of DC_CTRL by a writer, or its drop (R347). -/
def dmaByOwner (n who : Nat) (f : State → State) (s : State) : State :=
  if n ≥ 16 then s
  else if who = 0 ∨ ((who = 1 ∨ who = 2) ∧ s.dev.f (DC_CTRL n) DC_CTRL_OWNER = who) then f s
  else { s with dev := s.dev.raise 0x0802 n (DC_CTRL n) who }

/-- Meanings of the DMA rows. -/
def execDmaStart (ch who : Nat) (s : State) : Host.Outcome State Fault Refusal :=
  .next (dmaByOwner ch who (fun s => { s with dev := s.dev.dmaStart ch }) s)
def execResume (ch who : Nat) (s : State) : Host.Outcome State Fault Refusal := .next (dmaByOwner ch who (dmaResume ch) s)
def execAbort (ch who moved : Nat) (s : State) : Host.Outcome State Fault Refusal := .next (dmaByOwner ch who (dmaAbort ch moved) s)
def execDescriptorFetch (ch : Nat) (s : State) : Host.Outcome State Fault Refusal := .next (if ch < 16 then dmaFetch ch s else s)
def execDescriptorComplete (ch : Nat) (s : State) : Host.Outcome State Fault Refusal := .next (if ch < 16 then dmaComplete ch s else s)
def execEndCheck (ch : Nat) (s : State) : Host.Outcome State Fault Refusal := .next (if ch < 16 then dmaEndCheck ch s else s)

/-- The answer of an access kept for its master. -/
def State.answer (s : State) (r : Rsp) : State := { s with dev := { s.dev with host := { s.dev.host with rsp := r } } }

/-- The answer of a write. -/
def wrRsp (ok : Bool) : Rsp := { kind := if ok then .ok else .error }

/-- The target of the matrix that an access reaches: 0 to 7 of Table 11.4, or 8, the default target (R339, R343). -/
def Dev.xbTarget (d : Dev) (m a : Nat) : Nat := if connected m (d.route a).1 then (d.route a).1.num else 8

/-- Whether, at a target, the request of one master that has waited `w` cycles goes before that of another (R340). -/
def Dev.goesBefore (d : Dev) (t m w o ow : Nat) : Bool :=
  let age := clampN 16 4096 (d.f XB_CTRL XB_CTRL_AGE)
  let prio := fun (k : Nat) => bits (d.rdN (XB_PRIO k)) (4 * t + 3) (4 * t)
  let turn := fun (k : Nat) => (k + 11 - (tget (fun _ => none) d.xbLast t).getD 11) % 12
  if decide (age ≤ w) != decide (age ≤ ow) then decide (age ≤ w)
  else if age ≤ w ∧ w ≠ ow then decide (ow < w)
  else if w < age ∧ prio m ≠ prio o then decide (prio o < prio m)
  else decide (turn m < turn o)

/-- Whether a target grants the burst of a master while the others request it too (R340). -/
def Dev.xbGrants (d : Dev) (t m w : Nat) (others : List (Nat × Nat)) : Bool :=
  others.all fun o => o.1 == m || o.1 ≥ 12 || d.goesBefore t m w o.1 o.2

/-- A grant: the target's turn moves on, and an aged grant is counted (R340). -/
def Dev.xbGrant (d : Dev) (t m w : Nat) : Dev :=
  let d1 := { d with xbLast := tset (fun _ => none) d.xbLast t (some m) }
  if clampN 16 4096 (d.f XB_CTRL XB_CTRL_AGE) ≤ w then d1.cntF XB_CNT HI32 1 else d1

/-- MATRIX_ACCESS (R340): a burst of a master that has waited `wait` KCLK cycles, with the other masters that request its target and
their waits; it is executed when the target grants it, and waits on otherwise. -/
def execMatrixAccess (master wait : Nat) (others : List (Nat × Nat)) (write : Bool) (addr len : Nat) (bytes : List Nat)
    (lanes : List Bool) (ecc : List (Nat × Nat)) (s : State) : Host.Outcome State Fault Refusal :=
  let n := if write then bytes.length else len
  let t := s.dev.xbTarget master addr
  let s0 := { s with dev := s.dev.xbGrant t master wait, mem := s.mem.upset ecc }
  .next (if master ≥ 12 then s
    else if n > 512 ∨ (n ≠ 0 ∧ addr / 4096 ≠ (addr + n - 1) / 4096) then s.answer (errRsp (if write then 0 else n))
    else if !s.dev.xbGrants t master wait others then s
    else if write then let w := busWrite master addr bytes lanes s0; w.2.answer (wrRsp w.1)
    else let r := busRead master addr n s0; r.2.answer r.1)

/-- REGISTER_WRITE (R7, R18): a write to a register by a writer, 0 for firmware. -/
def execRegisterWrite (who addr size v : Nat) (s : State) : Host.Outcome State Fault Refusal :=
  .next (let w := regWrite who addr size v s; w.2.answer (wrRsp w.1))

/-- WORD_LATCH_READ (R21): a 32-bit read of a word of a register. -/
def execWordLatchRead (addr : Nat) (s : State) : Host.Outcome State Fault Refusal :=
  .next (let r := regAccess addr 4 s; r.2.answer r.1)

/-- REMAP (R344): a write of 1 by the data port of logical core 0 or by QDP, which needs the lock open and logical core 0 halted
(R515); other writers are logged. -/
def execRemap (who : Nat) (s : State) : Host.Outcome State Fault Refusal := nextDev s (
  if who = 0 ∨ (who = 11 ∧ s.dev.f SC_DBG SC_DBG_LEVEL = 0 ∧ s.dev.f (CR_STAT (s.dev.physOf 0)) CR_STAT_STATE = 2) then s.dev.setF SC_REMAP SC_REMAP_REMAP 1 else s.dev.raise 0x0003 0xFF SC_REMAP who)

end Sys2Proof.Machine
end

