-- ==== Sys2Proof/Machine/RDecode.lean ====
section
/-!
DEFINITION. The instructions of the Rhaex cores and their decoding from one or two 24-bit words (10_rhaex_cores Tables 10.7 to
10.10, R324, R326, R331).
-/
namespace Sys2Proof.Machine

/-- A Rhaex instruction with its fields. -/
inductive RIns where
  | nop | rts | rti1 | rti2 | rtt | enddo | sync | wait | trap
  | bra (d : Int) | bsr (d : Int) | bcc (cc : Nat) (d : Int)
  | doLoop (reg : Bool) (v off : Nat) | rep (reg : Bool) (v : Nat)
  | movei (code v : Nat) | mover (dst src : Nat)
  | movem (y store : Bool) (code pn mode : Nat)
  | logic (op dst src : Nat) | bitOp (op code b : Nat) | addi (code : Nat) (v : Int)
  | par (op acc src xm ym : Nat)
  | jmp (link : Bool) (t : Nat) | bccLong (cc t : Nat) | doLong (off count : Nat) | repLong (count : Nat)
  | moveiLong (code v : Nat) | movel (y store : Bool) (a pn mode : Nat) | normf (a code : Nat)
  | macx (a x y op : Nat) | movex (y store : Bool) (code pn : Nat)
  | illegal
  deriving DecidableEq, Repr

/-- The instruction, or illegal where a condition fails. -/
def RIns.if' (b : Bool) (i : RIns) : RIns := if b then i else .illegal

/-- CTRL words. -/
def decCtrl (w : Nat) : RIns :=
  if bits w 11 0 ≠ 0 then .illegal
  else match bits w 19 12 with
  | 0 => .nop | 1 => .rts | 2 => .rti1 | 3 => .rti2 | 4 => .rtt | 5 => .enddo | 6 => .sync | 7 => .wait | 8 => .trap
  | _ => .illegal

/-- BRANCH words: the displacement is signed. -/
def decBranch (w : Nat) : RIns :=
  let d := sext 14 (bits w 13 0)
  match bits w 19 18 with
  | 0 => .bra d
  | 1 => .bsr d
  | 2 => .if' (bits w 17 14 != 0xF) (.bcc (bits w 17 14) d)
  | _ => .illegal

/-- LOOP words. -/
def decLoop (w : Nat) : RIns :=
  let reg := bit w 18
  let v := if reg then bits w 16 14 else bits w 17 10
  let ok := !reg || (!bit w 17 && bits w 13 10 == 0)
  if bit w 19 then .if' (ok && bits w 9 0 == 0) (.rep reg v) else .if' ok (.doLoop reg v (bits w 9 0))

/-- LOGIC words. -/
def decLogic (w : Nat) : RIns :=
  let op := bits w 19 17
  let code := bits w 16 11
  if op < 3 then .if' (codeOk code && codeOk (bits w 10 5) && bits w 4 0 == 0) (.logic op code (bits w 10 5))
  else if op < 6 then .if' (codeOk code && bits w 5 0 == 0) (.bitOp op code (bits w 10 6))
  else if op = 6 then .if' (codeOk code) (.addi code (sext 11 (bits w 10 0)))
  else .illegal

/-- NATIVE words (Table 10.10). -/
def decNative (w w2 : Nat) : RIns :=
  match bits w 19 14 with
  | 0 => .if' (bits w 13 1 == 0 && bits w2 23 18 == 0) (.jmp (bit w 0) (bits w2 17 0))
  | 1 => .if' (bits w 13 4 == 0 && bits w 3 0 != 0xF && bits w2 23 18 == 0) (.bccLong (bits w 3 0) (bits w2 17 0))
  | 2 => .doLong (bits w 13 0) w2
  | 3 => .if' (bits w 13 0 == 0) (.repLong w2)
  | 4 => .if' (codeOk (bits w 13 8) && bits w 7 0 == 0) (.moveiLong (bits w 13 8) w2)
  | 5 => .if' (bits w 4 0 == 0 && w2 == 0) (.movel (bit w 13) (bit w 12) (bits w 11 10) (bits w 9 7) (bits w 6 5))
  | 6 => .if' (codeOk (bits w 11 6) && bits w 5 0 == 0 && w2 == 0) (.normf (bits w 13 12) (bits w 11 6))
  | 7 => .if' (bits w 7 6 != 3 && bits w 5 0 == 0 && w2 == 0) (.macx (bits w 13 12) (bits w 11 10) (bits w 9 8) (bits w 7 6))
  | 8 => .if' (codeOk (bits w 11 6) && bits w 2 0 == 0 && w2 == 0) (.movex (bit w 13) (bit w 12) (bits w 11 6) (bits w 5 3))
  | _ => .illegal

/-- The instruction of a word, with the word after it for a NATIVE one (Table 10.7). -/
def decodeR (cs : Bool) (w w2 : Nat) : RIns :=
  match bits w 23 20 with
  | 0 => decCtrl w
  | 1 => decBranch w
  | 2 => decLoop w
  | 3 => .movei (let k := bits w 19 16; if k < 8 then k else RC_P0 + (k - 8)) (wrapN 24 (sext 16 (bits w 15 0)))
  | 4 => .if' (codeOk (bits w 19 14) && codeOk (bits w 13 8) && bits w 7 0 == 0) (.mover (bits w 19 14) (bits w 13 8))
  | 5 => .if' (codeOk (bits w 17 12) && bits w 6 0 == 0) (.movem (bit w 19) (bit w 18) (bits w 17 12) (bits w 11 9) (bits w 8 7))
  | 6 => decLogic w
  | 7 => if cs then .illegal else decNative w w2
  | _ => .if' (bits w 22 18 < 0x17) (.par (bits w 22 18) (bits w 17 16) (bits w 15 14) (bits w 13 7) (bits w 6 0))

/-- Instructions of two words. -/
def RIns.long : RIns → Bool
  | .jmp .. | .bccLong .. | .doLong .. | .repLong .. | .moveiLong .. | .movel .. | .normf .. | .macx .. | .movex .. => true
  | _ => false

/-- Branches of the BRANCH format and their long forms. -/
def RIns.isBranch : RIns → Bool
  | .bra .. | .bsr .. | .bcc .. | .jmp .. | .bccLong .. => true
  | _ => false

/-- What may stand neither at LE of a loop nor after REP (R324). -/
def RIns.notAtEnd : RIns → Bool
  | .doLoop .. | .rep .. | .enddo | .rti1 | .rti2 | .rtt => true
  | i => i.isBranch || i.long

/-- What may not stand in a delay slot (R326). -/
def RIns.notInSlot : RIns → Bool
  | .rts => true
  | i => i.notAtEnd

end Sys2Proof.Machine
end

