-- ==== Sys2Proof/Machine/Operands.lean ====
section
/-!
DEFINITION. Operand forms of the Rhaex cores: registers as each stage sees them, moves with limiting, address generation, and
the X and Y spaces with their windows (10_rhaex_cores R308 to R310, R315, R318 to R320, R325; 15_dc512_compatibility R446).
-/
namespace Sys2Proof.Machine

/-- What an instruction gives: a state, or the vector of a trap with the state at that point. -/
abbrev RM (α : Type) := Except (Nat × State) (α × State)

/-! Stage times (Table 10.4): instruction n passes D, R, E1 and E2 at n + 2 to n + 5. -/

/-- The core's record. -/
def State.core (s : State) (c : Nat) : RCore := s.dev.core c

/-- The state with a core's record replaced. -/
def State.setCore (s : State) (c : Nat) (x : RCore) : State := { s with dev := s.dev.setCore c x }

def tD (x : RCore) : Nat := x.n + 2
def tR (x : RCore) : Nat := x.n + 3
def tE1 (x : RCore) : Nat := x.n + 4
def tE2 (x : RCore) : Nat := x.n + 5

/-- A register code of the bank in use as a stage sees it. -/
def State.rv (s : State) (c t code : Nat) : Nat := (s.core c).seen t (regKey (s.dev.coreCs c) (s.core c).bank code)

/-- A register code of the bank in use written at the end of a stage. -/
def State.rw (s : State) (c t code v : Nat) : State :=
  s.setCore c ((s.core c).write t (regKey (s.dev.coreCs c) (s.core c).bank code) v)

/-! Accumulators. -/

/-- Accumulator k as a stage sees it: 56 bits. -/
def State.accU (s : State) (c t k : Nat) : Nat :=
  s.rv c t (RC_AG + k) * 2 ^ 48 + s.rv c t (RC_AH + k) * 2 ^ 24 + s.rv c t (RC_AL + k)

/-- The same, signed. -/
def State.acc (s : State) (c t k : Nat) : Int := sext 56 (s.accU c t k)

/-- Accumulator k written at the end of a stage. -/
def State.setAcc (s : State) (c t k : Nat) (v : Int) : State :=
  let u := wrapN 56 v
  ((s.rw c t (RC_AG + k) (bits u 55 48)).rw c t (RC_AH + k) (bits u 47 24)).rw c t (RC_AL + k) (bits u 23 0)

/-- Bits [55:47] of a 56-bit value are all equal (R314, R315). -/
def fits47 (u : Nat) : Bool := bits u 55 47 == 0 || bits u 55 47 == 0x1FF

/-- The value of an accumulator for a destination of `w` bits, 24 or 48, and whether it was clamped (R315). -/
def limited (u : Nat) (sm : Bool) (w : Nat) : Nat × Bool :=
  if sm && !fits47 u then (if bit u 55 then 2 ^ (w - 1) else 2 ^ (w - 1) - 1, true) else (bits u 47 (48 - w), false)

/-- LS set where a move was limited. -/
def State.noteLimit (s : State) (c : Nat) (b : Bool) : State := if b then s.rw c (tE2 (s.core c)) SR_LS 1 else s

/-! Register codes as sources and destinations of moves. -/

/-- The status register as a stage sees it. -/
def State.srAt (s : State) (c t : Nat) : Nat :=
  srOf (s.rv c t) (s.core c).bank (s.dev.coreCs c) (s.core c).ctx.loops.length

/-- A register code read as the source of a move or a store, in stage R; LC, LS and LE with an empty loop stack are free. -/
def readCode (c code : Nat) (s : State) : Nat × State :=
  let t := tR (s.core c)
  let top := (s.core c).ctx.loops.head?
  if RC_AH ≤ code ∧ code < RC_AL then
    let r := limited (s.accU c t (code - RC_AH)) (s.rv c (tE1 (s.core c)) SR_SM == 1) 24
    (r.1, s.noteLimit c r.2)
  else if RC_AG ≤ code ∧ code < RC_TPC then (wrapN 24 (sext 8 (s.rv c t code)), s)
  else if code = RC_SR then (s.srAt c t, s)
  else if RC_LC ≤ code ∧ code ≤ RC_LE then
    match top with
    | some (ls, le, lc) => (if code = RC_LC then lc else if code = RC_LS then ls else le, s)
    | none => (s.dev.free % 2 ^ 24, { s with dev := s.dev.drew })
  else (s.rv c t code, s)

/-- A register code written by a move or a load whose value lands at the end of stage time t; SR always lands at E2. -/
def writeCode (c code t v : Nat) (s : State) : State :=
  if RC_AH ≤ code ∧ code < RC_AL then
    let k := code - RC_AH
    ((s.rw c t code (v % 2 ^ 24)).rw c t (RC_AG + k) (if bit v 23 then 0xFF else 0)).rw c t (RC_AL + k) 0
  else if RC_AG ≤ code ∧ code < RC_TPC then s.rw c t code (v % 256)
  else if code = RC_SR then (srBits v).foldl (fun s b => s.rw c (tE2 (s.core c)) b.1 b.2) s
  else if RC_LC ≤ code ∧ code ≤ RC_LE then
    let x := s.core c
    match x.ctx.loops with
    | (ls, le, lc) :: r =>
      let e := if code = RC_LC then (ls, le, v) else if code = RC_LS then (v, le, lc) else (ls, v, lc)
      s.setCore c { x with ctx := { x.ctx with loops := e :: r } }
    | [] => s
  else s.rw c t code (v % 2 ^ 24)

/-- When a register move lands: X and Y at the end of R, the others at the end of E1 (Table 10.4, log entry 23). -/
def moveTime (x : RCore) (code : Nat) : Nat := if code < 8 then tR x else tE1 x

/-! Addresses (R318 to R320). -/

/-- Pn after an update by a step. -/
def State.stepped (s : State) (c pn : Nat) (step : Int) : Nat :=
  let t := tD (s.core c)
  let p : Int := s.rv c t (RC_P0 + pn)
  let b : Int := s.rv c t (RC_B0 + pn)
  let l := s.rv c t (RC_L0 + pn)
  if s.dev.coreCs c then wrapN 16 (p + step)
  else if l = 0 then wrapN 24 (p + step)
  else wrapN 24 (b + (p - b + step) % (l : Int))

/-- The address in Pn and the state with Pn updated by its mode; `scale` doubles the step of MOVEL. -/
def agu (c pn mode scale : Nat) (s : State) : Nat × State :=
  let t := tD (s.core c)
  let p := s.rv c t (RC_P0 + pn)
  let a := if s.dev.coreCs c then p % 2 ^ 16 else p
  let step : Int := match mode with | 1 => 1 | 2 => -1 | _ => sext 24 (s.rv c t (RC_N0 + pn))
  (a, if mode = 0 then s else s.rw c t (RC_P0 + pn) (s.stepped c pn (step * scale)))

/-! The X and Y spaces. -/

/-- The system address of a core's memory: 0 PM, 1 XM, 2 YM (Table 10.1). -/
def State.localBase (s : State) (c k : Nat) : Nat :=
  0x50000000 + 0x1000000 * s.dev.logicalOf c + (if k = 0 then 0 else if k = 1 then 0x400000 else 0x600000)

/-- The system address of a word of a window (R309): base aligned to the window's size. -/
def winAddr (reg a : Nat) : Nat × Nat :=
  let mode := bits reg 1 0
  let s := if mode = 1 then 2 else if mode = 2 then 1 else 4
  let size := 8 * 2 ^ 20 * s
  ((bits reg 47 23 * 2 ^ 23 / size * size + s * (a - 0x800000)) % 2 ^ 48, s)

/-- The personality whose bank a core of logical number 1 or 2 has in use (Table 15.1). -/
def State.persOf (s : State) (c : Nat) : Nat := 2 * (s.dev.logicalOf c - 1) + (s.core c).bank

/-- A 32-bit register of the personality behind its peripheral page, two words each, low half first (R446, log entry 24): DC_STATUS,
DC_COUNTER, DC_DUMPS, k, the output settings, and from 0x40 the words of slots 6 and 7. -/
def Dev.pageReg (d : Dev) (p i : Nat) : Nat :=
  let x := d.per p
  match i with
  | 0 => d.dcStatus p | 1 => d.rdN (DC_COUNTER p) | 2 => d.rdN (DC_DUMPS p) | 3 => x.k
  | 4 => x.mac % 2 ^ 32 | 5 => x.mac / 2 ^ 32 | 6 => x.src | 7 => x.dst | 8 => x.ports | 9 => x.unit
  | _ => if 0x40 ≤ i ∧ i < 0x60 then d.rdN (DC_SLOT p (96 + (i - 0x40))) else 0

/-- A word of the peripheral page read. -/
def Dev.pageRead (d : Dev) (p a : Nat) : Nat :=
  let v := d.pageReg p ((a - 0xFC00) / 2)
  if a % 2 = 0 then v % 2 ^ 16 else v / 2 ^ 16 % 2 ^ 16

/-- A word of the peripheral page written: the mailbox words alone take it. -/
def Dev.pageWrite (d : Dev) (p a v : Nat) : Dev :=
  let i := (a - 0xFC00) / 2
  if 0x40 ≤ i ∧ i < 0x60 then
    let r := DC_SLOT p (96 + (i - 0x40))
    let o := d.rdN r
    d.wrN r (if a % 2 = 0 then o / 2 ^ 16 * 2 ^ 16 + v % 2 ^ 16 else o % 2 ^ 16 + v % 2 ^ 16 * 2 ^ 16)
  else d

/-- Where a data access goes: a word of a local memory, a window word, a personality's page, or nowhere (R308, R446). -/
inductive Place where
  | word (sys : Nat) | win (sys size : Nat) | page (p a : Nat) | none
  deriving DecidableEq, Repr

/-- The place of an address of a space. -/
def State.place (s : State) (c : Nat) (y : Bool) (a : Nat) : Place :=
  let base := s.localBase c (if y then 2 else 1)
  if s.dev.coreCs c then
    if !y && decide (0xFC00 ≤ a % 2 ^ 16) then .page (s.persOf c) (a % 2 ^ 16)
    else .word (base + 4 * (0x10000 * (s.core c).bank + a % 2 ^ 16))
  else if a < 0x20000 then .word (base + 4 * a)
  else if a < 0x800000 then .none
  else let w := winAddr (s.dev.rdN (if y then CR_WIN_Y c else CR_WIN_X c)) a; .win w.1 w.2

/-- A data access noted for the watchpoints. -/
def State.noteAcc (s : State) (c : Nat) (y : Bool) (a : Nat) (w : Bool) : State :=
  s.setCore c { s.core c with acc := (y, a, w) :: (s.core c).acc }

/-- A word read from X or Y space, or the data-error trap (R308 to R310). A load just behind a store to the same local address reads
the old word (Table 10.4). -/
def dataRead (c : Nat) (y : Bool) (a : Nat) (s0 : State) : RM Nat :=
  let s := s0.noteAcc c y a false
  match s.place c y a with
  | .none => .error (3, s)
  | .page p b => .ok (s.dev.pageRead p b, s)
  | .word sys =>
    let x := eccRead (s.dev, s.mem) sys 4
    let s1 := { s with dev := x.1, mem := x.2 }
    if s1.mem.poisonAt sys then .error (3, s1)
    else match (s1.core c).memOld.find? fun e => e.2.1 == sys && e.1 + 1 == (s1.core c).n with
    | some e => .ok (e.2.2, s1)
    | none => .ok (s1.mem.rdN sys 3, s1)
  | .win sys n =>
    let r := busRead (2 * c + 1) sys n s
    if r.1.kind ≠ .ok ∨ r.1.poison then .error (3, r.2)
    else
      let v := leNat r.1.data
      .ok (if n = 4 then v % 2 ^ 24 else wrapN 24 (sext (8 * n) v), r.2)

/-- A word written to X or Y space, or the data-error trap; a window write is posted, and its error response is yet to come (R310). -/
def dataWrite (c : Nat) (y : Bool) (a v : Nat) (s0 : State) : RM Unit :=
  let s := s0.noteAcc c y a true
  match s.place c y a with
  | .none => .error (3, s)
  | .page p b => .ok ((), { s with dev := s.dev.pageWrite p b v })
  | .word sys =>
    let x := s.core c
    let old := s.mem.rdN sys 3
    let keep := x.memOld.filter fun e => e.1 == x.n && e.2.1 != sys
    let e := eccWrite (s.dev, s.mem) sys 4 false
    .ok ((), { s with dev := e.1.setCore c { x with memOld := (x.n, sys, old) :: keep },
                      mem := e.2.store sys (leBytes 3 v ++ [0]) false })
  | .win sys n =>
    let w := busWrite (2 * c + 1) sys (leBytes n (if n = 4 then wrapN 32 (sext 24 v) else v)) [] s
    .ok ((), if w.1 then w.2 else w.2.setCore c { w.2.core c with werr := (w.2.core c).werr + 1 })

/-- Whether an address of a space can be accessed at all. -/
def State.reachable (s : State) (c : Nat) (y : Bool) (a : Nat) : Bool := s.place c y a != .none

end Sys2Proof.Machine
end

