-- ==== Sys2Proof/Machine/Flags.lean ====
section
/-!
DEFINITION. Accumulator arithmetic of the Rhaex cores and the flags it sets: products, sums, rounding, shifts and normalising
(10_rhaex_cores R313 to R317).
-/
namespace Sys2Proof.Machine

/-- The range of an accumulator: −2^55 to 2^55 − 1 (R314). -/
def in56 (x : Int) : Bool := decide (-(2 ^ 55) ≤ x ∧ x < 2 ^ 55)

/-- An exact result kept modulo 2^56 (R314). -/
def keep56 (x : Int) : Int := sext 56 (wrapN 56 x)

/-- A carry out of bit 55 of a sum (Table 10.3). -/
def carryAdd (a b : Int) : Bool := decide (wrapN 56 a + wrapN 56 b ≥ 2 ^ 56)

/-- A borrow out of bit 55 of a difference. -/
def borrowSub (a b : Int) : Bool := decide (wrapN 56 a < wrapN 56 b)

/-- C, Z, N and E from a kept result, V sticky from the exact ones, landing at E2 (R314). -/
def State.flags (s : State) (c : Nat) (ovf carry : Bool) (kept : Int) : State :=
  let t := tE2 (s.core c)
  let u := wrapN 56 kept
  let s1 := (((s.rw c t SR_C (b2n carry)).rw c t SR_Z (b2n (u == 0))).rw c t SR_N (u / 2 ^ 55)).rw c t SR_E (b2n (!fits47 u))
  if ovf then s1.rw c t SR_V 1 else s1

/-- An accumulator operation: the exact result kept in accumulator k with its flags. -/
def State.arith (s : State) (c k : Nat) (exact : Int) (carry : Bool) : State :=
  (s.flags c (!in56 exact) carry (keep56 exact)).setAcc c (tE2 (s.core c)) k (keep56 exact)

/-- A 24-bit register as a signed operand in stage R. -/
def State.opnd (s : State) (c code : Nat) : Int := sext 24 (s.rv c (tR (s.core c)) code)

/-- The product of two registers as SR.FM aligns it (R313). -/
def State.prod (s : State) (c x y : Nat) : Int :=
  let p := s.opnd c x * s.opnd c y
  if s.rv c (tE1 (s.core c)) SR_FM == 1 then 2 * p else p

/-- The registers of a product by SRC (Table 10.8). -/
def prodRegs (src : Nat) : Nat × Nat :=
  match src with
  | 0 => (RC_X0, RC_Y0) | 1 => (RC_X0 + 1, RC_Y0 + 1) | 2 => (RC_X0, RC_Y0 + 1) | _ => (RC_X0 + 1, RC_Y0)

/-- The register of an operand by SRC (Table 10.8). -/
def opndReg (src : Nat) : Nat :=
  match src with | 0 => RC_X0 | 1 => RC_X0 + 1 | 2 => RC_Y0 | _ => RC_Y0 + 1

/-- Rounding to a multiple of 2^24 (R316): ties to even in bit 24, or half up. -/
def rnd24 (rm : Nat) (v : Int) : Int := if rm = 1 then (v + 0x800000) / 2 ^ 24 * 2 ^ 24 else roundDiv v (2 ^ 24) * 2 ^ 24

/-- RM as an instruction uses it. -/
def State.rm (s : State) (c : Nat) : Nat := s.rv c (tE1 (s.core c)) SR_RM

/-- A result with RND applied to it, its flags those of the whole (R316). -/
def State.arithRnd (s : State) (c k : Nat) (exact : Int) (carry : Bool) : State :=
  let a := keep56 exact
  let r := rnd24 (s.rm c) a
  let cy := carry || (decide (a < 0) && decide (r ≥ 0))
  (s.flags c (!in56 exact || !in56 r) cy (keep56 r)).setAcc c (tE2 (s.core c)) k (keep56 r)

/-- Accumulator k as its operations see it, forwarded (Table 10.4). -/
def State.accNow (s : State) (c k : Nat) : Int := s.acc c (tE2 (s.core c)) k

/-- The redundant sign bits of an accumulator: bits from bit 54 downward equal to bit 55 (R317). -/
def redundant (u : Nat) : Nat :=
  let sgn := bit u 55
  match (List.range 55).find? fun i => bit u (54 - i) != sgn with
  | some i => i
  | none => 55

/-- The shift that normalises an accumulator, positive to the left; zero for zero (R317). -/
def normShift (v : Int) : Int := if v = 0 then 0 else (redundant (wrapN 56 v) : Int) - 8

/-- One step of NORM: the accumulator after it and what is added to the exponent register (R317). -/
def normStep (v : Int) : Int × Int :=
  let u := wrapN 56 v
  if !fits47 u then (v / 2, 1)
  else if v ≠ 0 ∧ bit u 47 = bit u 46 then (2 * v, -1)
  else (v, 0)

/-- A condition of Table 10.9 in stage D. -/
def State.cond (s : State) (c cc : Nat) : Bool :=
  let f := fun (b : Nat) => s.rv c (tD (s.core c)) b == 1
  match cc with
  | 0 => true | 1 => !f SR_C | 2 => f SR_C | 3 => f SR_Z | 4 => !f SR_Z | 5 => !f SR_N | 6 => f SR_N | 7 => false
  | 8 => f SR_E | 9 => !f SR_E | 10 => f SR_V | 11 => !f SR_V | 12 => f SR_LS
  | 13 => !f SR_N && !f SR_Z | 14 => f SR_N || f SR_Z | _ => false

end Sys2Proof.Machine
end

