-- ==== Sys2Proof/Machine/Rhaex.lean ====
section
/-!
DEFINITION. How a Rhaex core executes one instruction: fetch, the places where an instruction is illegal, loops, repetitions and
delay slots, traps, interrupts, breakpoints and watchpoints (10_rhaex_cores R308, R321 to R330, R332; 19_debug_and_test R513).
-/
namespace Sys2Proof.Machine

/-- Where execution goes after an instruction: on, to a branch target after two delay slots with the SR that a return restores, to
an address at once, or to the next instruction a number of times. -/
inductive Flow where
  | next
  | branch (target back : Nat)
  | goto (a : Nat)
  | rep (n : Nat)
  deriving DecidableEq, Repr

/-! Traps (R330). -/

/-- The event DOUBLE_TRAP: the core halts (R330). -/
def Dev.doubleTrap (d : Dev) (c : Nat) : Dev := ((d.setCore c (d.core c).drain).setCoreState c CORE_DOUBLE).raise 0x0F01 c 0 0

/-- Taking a trap: TPC, TSR and, in a delay slot, TTGT are saved, IPL becomes 2 and execution goes to the vector; a trap before RTT
halts the core (R330). A loop stack overflow sets LSO first (R322). In the compatibility state a trap halts only the personality's bank (R447). -/
def State.trap (s : State) (c v : Nat) : State :=
  let d := s.dev
  let cs := d.coreCs c
  let x0 := (d.core c).drain
  let x := if v = 4 then x0.force cs SR_LSO 1 else x0
  let d0 := d.setCore c x
  if cs then
    let p := s.persOf c
    let y := { x with ctx := { x.ctx with runs := false, slots := none, rep := none, waiting := false } }
    { s with dev := (d0.setCore c y).setPer p { d0.per p with fault := true } }
  else if d.on (CR_STAT c) CR_STAT_INTRAP then { s with dev := d0.doubleTrap c }
  else
    let ds := x.ctx.slots.isSome
    let y := ((x.force cs RC_TPC x.ctx.pc).force cs RC_TSR (d0.coreSr c + b2n ds * 2 ^ 17)).force cs SR_IPL 2
    let z := match x.ctx.slots with
      | some (n, t, back) =>
        let w := y.force cs RC_TTGT t
        { w with ctx := { w.ctx with trapSlots := n, trapBack := back } }
      | none => y
    let u := { z.ctx with pc := 2 * v, slots := none, rep := none, trapRep := x.ctx.rep.isSome }
    { s with dev := (d0.setCore c { z with ctx := u }).setF (CR_STAT c) CR_STAT_INTRAP 1 }

/-! Fetch (R308, R446). -/

/-- The address of the instruction after one of n words. -/
def pcAfter (cs : Bool) (pc n : Nat) : Nat := if cs then (pc + n) % 2 ^ 14 else (pc + n) % 2 ^ 18

/-- One instruction word, the vector of the trap that its fetch takes, and what the fetch leaves. -/
def fetchWord (c a : Nat) (s : State) : Nat × Option Nat × State :=
  if s.dev.coreCs c then
    let sys := s.localBase c 0 + 4 * (0x4000 * (s.core c).bank + a % 2 ^ 14)
    let x := eccRead (s.dev, s.mem) sys 4
    let s1 := { s with dev := x.1, mem := x.2 }
    (s1.mem.rdN sys 3, if s1.mem.poisonAt sys then some 2 else none, s1)
  else if s.dev.on (CR_CTRL c) CR_CTRL_FETCH_SYS then
    let r := busRead (2 * c) (4 * a) 4 s
    (leNat r.1.data % 2 ^ 24, if r.1.kind ≠ .ok ∨ r.1.poison then some 2 else none, r.2)
  else if a > 0x3FFFF then (0, some 1, s)
  else
    let sys := s.localBase c 0 + 4 * a
    let x := eccRead (s.dev, s.mem) sys 4
    let s1 := { s with dev := x.1, mem := x.2 }
    (s1.mem.rdN sys 3, if s1.mem.poisonAt sys then some 2 else none, s1)

/-- The instruction at the core's PC, illegal where its place forbids it (R324, R326). -/
def fetchR (c : Nat) (s : State) : RIns × Option Nat × State :=
  let t := (s.core c).ctx
  let cs := s.dev.coreCs c
  let a := fetchWord c t.pc s
  match a.2.1 with
  | some v => (.illegal, some v, a.2.2)
  | none =>
    let b := if bits a.1 23 20 = 7 ∧ !cs then fetchWord c (pcAfter cs t.pc 1) a.2.2 else (0, none, a.2.2)
    let i := decodeR cs a.1 b.1
    let atEnd := t.loops.any (fun l => l.2.1 == t.pc) || t.rep.isSome
    if (atEnd && i.notAtEnd) || (t.slots.isSome && i.notInSlot) then (.illegal, none, a.2.2)
    else if i.long then (i, b.2.1, b.2.2) else (i, none, a.2.2)

/-! Completion of an instruction. -/

/-- The loop stack when the instruction at `pc` has completed: where the next fetch comes from, `seq` when no pass is left (R321). -/
def loopEnd (pc seq : Nat) : List (Nat × Nat × Nat) → List (Nat × Nat × Nat) × Nat
  | [] => ([], seq)
  | (ls, le, lc) :: r =>
    if le ≠ pc then ((ls, le, lc) :: r, seq)
    else if lc > 1 then ((ls, le, lc - 1) :: r, ls)
    else loopEnd pc seq r

/-- What a return restores when its delay slots are done: SR, and for RTT the slots of the instruction that trapped (R328 to R330). -/
def State.returned (s : State) (c back : Nat) : State :=
  let cs := s.dev.coreCs c
  let x := (s.core c).drain
  let get := fun (k : Nat) => tget coreReset x.regs (regKey cs x.bank k)
  match back with
  | 1 => s.setCore c (x.restoreSr cs (get RC_SSR))
  | 2 => s.setCore c (x.restoreSr cs (get RC_ISR2))
  | 3 =>
    let tsr := get RC_TSR
    let slots := if bit tsr 17 then some (max 1 x.ctx.trapSlots, get RC_TTGT, x.ctx.trapBack) else none
    let y := x.restoreSr cs tsr
    let s1 := s.setCore c { y with ctx := { y.ctx with slots := slots, trapRep := false } }
    { s1 with dev := s1.dev.setF (CR_STAT c) CR_STAT_INTRAP 0 }
  | _ => s

/-- The PC, loop stack, slots and repetition after an instruction of n words at the core's PC. -/
def State.advance (s : State) (c n : Nat) (f : Flow) : State :=
  let x := s.core c
  let t := x.ctx
  let cs := s.dev.coreCs c
  let seq := pcAfter cs t.pc n
  let put := fun (u : RCtx) => s.setCore c { x with ctx := u }
  match f with
  | .goto a => put { t with pc := a }
  | .branch tgt back => put { t with pc := seq, slots := some (2, tgt, back) }
  | .rep k =>
    if k = 0 then
      let l := loopEnd seq (pcAfter cs seq 1) t.loops
      put { t with pc := l.2, loops := l.1 }
    else put { t with pc := seq, rep := some k }
  | .next =>
    match t.rep with
    | some (k + 2) => put { t with rep := some (k + 1) }
    | _ =>
      let l := loopEnd t.pc seq t.loops
      let u := { t with pc := l.2, loops := l.1, rep := none }
      match t.slots with
      | some (1, tgt, back) => (put { u with pc := tgt, slots := none }).returned c back
      | some (k + 2, tgt, back) => put { u with slots := some (k + 1, tgt, back) }
      | _ => put u

/-- An instruction has been executed: the writes that every later stage sees land. -/
def State.tick (s : State) (c : Nat) : State :=
  let x := { s.core c with n := (s.core c).n + 1 }
  s.setCore c (x.land (tD x))

/-- A watchpoint of the core matches an access of the instruction (Table 19.2). -/
def Dev.watchHit (d : Dev) (c : Nat) : Bool :=
  [0, 1].any fun k =>
    let w := d.rdN (QD_WP c k 3)
    bit w 31 && (d.core c).acc.any fun (y, a, wr) =>
      (if y then bit w 1 else bit w 0) && (if wr then bit w 3 else bit w 2) &&
        decide (d.rdN (QD_WP c k 0) % 2 ^ 24 ≤ a ∧ a ≤ d.rdN (QD_WP c k 1) % 2 ^ 24)

/-- A breakpoint of the core names an address. -/
def Dev.breakAt (d : Dev) (c pc : Nat) : Bool :=
  (List.range 4).any fun k => let w := d.rdN (QD_BP c k); bit w 31 && w % 2 ^ 18 == pc

/-- QD_STAT of the core that QDP selects notes a deferred breakpoint. -/
def Dev.lateBp (d : Dev) : Dev := d.setF QD_STAT QD_STAT_LATE_BP 1

/-- Halts that are due once the instruction is done (R513, CR_CTRL.CMD). -/
def State.halts (s : State) (c : Nat) : State :=
  let d := s.dev
  if d.coreState c ≠ CORE_RUN then s
  else if d.watchHit c then { s with dev := d.coreHalt c 3 }
  else if (d.core c).due ≠ 0 ∧ (d.core c).ctx.boundary then { s with dev := d.coreHalt c (d.core c).due }
  else s

/-- The core executes its next instruction now: it runs, does not wait and, in the compatibility state, its bank's program runs. -/
def Dev.coreReady (d : Dev) (c : Nat) : Bool :=
  c < 4 && d.coreState c == CORE_RUN && !(d.core c).ctx.waiting && (!d.coreCs c || (d.core c).ctx.runs)

/-- A breakpoint at the next instruction (R513): at an allowed boundary the core halts before it, elsewhere the halt waits. -/
def State.breakCheck (s : State) (c : Nat) : Option State :=
  let x := s.core c
  if x.skipBp || !s.dev.breakAt c x.ctx.pc then none
  else if x.ctx.boundary then some { s with dev := s.dev.coreHalt c 2 }
  else if x.due ≠ 0 then none
  else some { s with dev := (s.dev.lateBp).setCore c { x with due := 2, skipBp := true } }

/-- One instruction of a core: `pick` gives its work when the instruction at the PC is the one the row is about; on another the row
has no effect. A trap leaves nothing of the instruction in the core. -/
def runR (c : Nat) (pick : RIns → Option (State → RM Flow)) (s : State) : State :=
  if !s.dev.coreReady c then s
  else
    let f := fetchR c s
    match f.2.1 with
    | some v => (f.2.2.trap c v)
    | none =>
      match pick f.1 with
      | none => s
      | some work =>
        match s.breakCheck c with
        | some h => h
        | none =>
          let s1 := f.2.2.setCore c { f.2.2.core c with acc := [], skipBp := false }
          match work s1 with
          | .error (v, s2) => (s2.setCore c (s1.core c)).trap c v
          | .ok (fl, s2) => ((s2.advance c (if f.1.long then 2 else 1) fl).tick c).halts c

/-- A row about one kind of instruction, for the meanings of the rows. -/
def rowR (c : Nat) (s : State) (pick : RIns → Option (State → RM Flow)) : Host.Outcome State Fault Refusal := .next (runR c pick s)

/-- Work that only changes the state. -/
def work (f : State → State) : Option (State → RM Flow) := some fun s => .ok (.next, f s)

/-! Control (R321 to R323, R326, R328 to R330). -/

/-- The register code of a count register: X0 to X3, Y0 to Y3. -/
def State.count (s : State) (c : Nat) (reg : Bool) (v : Nat) : Nat :=
  let n := if reg then s.rv c (tR (s.core c)) v else v
  if s.dev.coreCs c ∧ reg then n % 2 ^ 16 else n

/-- A branch, taken or not; its two delay slots follow either way. -/
def branchTo (c n : Nat) (taken : Bool) (target : Nat) (s : State) : RM Flow :=
  let cs := s.dev.coreCs c
  let pc := (s.core c).ctx.pc
  .ok (.branch (if taken then pcAfter cs target 0 else pcAfter cs pc (n + 2)) 0, s)

/-- The target of a displacement from the branch address + 1. -/
def State.dispTo (s : State) (c : Nat) (d : Int) : Nat :=
  wrapN (if s.dev.coreCs c then 14 else 18) ((s.core c).ctx.pc + 1 + d)

/-- Where RTT resumes: at TPC, or after the repeated instruction where a repetition trapped (R323, R330). -/
def State.resumeAt (s : State) (c : Nat) : Nat :=
  let x := s.core c
  let a := s.rv c (tD x) RC_TPC
  if x.ctx.trapRep then pcAfter (s.dev.coreCs c) a 1 else a

/-- A call: the address after the delay slots goes to X:(P7 − 1), and P7 drops by one (R326). -/
def callTo (c n target : Nat) (s : State) : RM Flow :=
  let cs := s.dev.coreCs c
  let t := tD (s.core c)
  let p := wrapN (if cs then 16 else 24) ((s.rv c t (RC_P0 + 7) : Int) - 1)
  match dataWrite c false p (pcAfter cs (s.core c).ctx.pc (n + 2)) s with
  | .error e => .error e
  | .ok (_, s1) => branchTo c n true target (s1.rw c t (RC_P0 + 7) p)

/-- DO (R321, R322): the loop is pushed, a count of zero skips the body in the native state and runs it once in the compatibility
state, and a full loop stack traps with LSO set. -/
def doLoop (c n le count : Nat) (s : State) : RM Flow :=
  let x := s.core c
  let cs := s.dev.coreCs c
  if x.ctx.loops.length ≥ 4 then .error (4, s)
  else if count = 0 ∧ !cs then .ok (.goto (pcAfter cs le 1), s)
  else .ok (.next, s.setCore c { x with ctx := { x.ctx with loops := (pcAfter cs x.ctx.pc n, le, max 1 count) :: x.ctx.loops } })

/-- REP (R323): the next instruction is repeated. -/
def repNext (c count : Nat) (s : State) : RM Flow := .ok (.rep (if s.dev.coreCs c then max 1 count else count), s)

end Sys2Proof.Machine
end

