-- ==== Sys2Proof/Machine/RhaexRows.lean ====
section
/-!
DEFINITION. The instructions of the Rhaex cores, one meaning a row: each acts when the core runs and the instruction at its PC is the
one the row names (10_rhaex_cores R313 to R331).
-/
namespace Sys2Proof.Machine

/-! Control words. -/

/-- NOP. -/
def pickRNop (_core : Nat) (_s : State) (i : RIns) : Option (State → RM Flow) :=
  match i with | .nop => work id | _ => none

/-- Meaning of the row: the instruction, when it is the next one. -/
def execRNop (core : Nat) (s : State) : Host.Outcome State Fault Refusal := rowR core s (pickRNop core s)

/-- RTS (R326): the return address is read from X:(P7), and P7 rises by one. -/
def doRts (c : Nat) (s : State) : RM Flow :=
  let t := tD (s.core c)
  let p := s.rv c t (RC_P0 + 7)
  let cs := s.dev.coreCs c
  match dataRead c false (if cs then p % 2 ^ 16 else p) s with
  | .error e => .error e
  | .ok (v, s1) => branchTo c 1 true v (s1.rw c t (RC_P0 + 7) (wrapN (if cs then 16 else 24) (p + 1)))

/-- RTS. -/
def pickRRts (core : Nat) (_s : State) (i : RIns) : Option (State → RM Flow) :=
  match i with | .rts => some (doRts core) | _ => none

/-- Meaning of the row: the instruction, when it is the next one. -/
def execRRts (core : Nat) (s : State) : Host.Outcome State Fault Refusal := rowR core s (pickRRts core s)

/-- A return to the PC in a register, its SR restored once the delay slots are done (R328 to R330). -/
def doReturn (c kind a : Nat) (s : State) : RM Flow := .ok (.branch (pcAfter (s.dev.coreCs c) a 0) kind, s)

/-- RTI1 (R328). -/
def pickRRti1 (core : Nat) (_s : State) (i : RIns) : Option (State → RM Flow) :=
  match i with
  | .rti1 => some fun s => doReturn core 1 (s.rv core (tD (s.core core)) RC_SPC) s
  | _ => none

/-- Meaning of the row: the instruction, when it is the next one. -/
def execRRti1 (core : Nat) (s : State) : Host.Outcome State Fault Refusal := rowR core s (pickRRti1 core s)

/-- RTI2 (R329). -/
def pickRRti2 (core : Nat) (_s : State) (i : RIns) : Option (State → RM Flow) :=
  match i with
  | .rti2 => some fun s => doReturn core 2 (s.rv core (tD (s.core core)) RC_IPC2) s
  | _ => none

/-- Meaning of the row: the instruction, when it is the next one. -/
def execRRti2 (core : Nat) (s : State) : Host.Outcome State Fault Refusal := rowR core s (pickRRti2 core s)

/-- RTT (R330). -/
def pickRRtt (core : Nat) (_s : State) (i : RIns) : Option (State → RM Flow) :=
  match i with | .rtt => some fun s => doReturn core 3 (s.resumeAt core) s | _ => none

/-- Meaning of the row: the instruction, when it is the next one. -/
def execRRtt (core : Nat) (s : State) : Host.Outcome State Fault Refusal := rowR core s (pickRRtt core s)

/-- ENDDO (R321): the top entry of the loop stack is popped. -/
def popLoop (c : Nat) (s : State) : State :=
  let x := s.core c
  s.setCore c { x with ctx := { x.ctx with loops := x.ctx.loops.tail } }

/-- ENDDO. -/
def pickREnddo (core : Nat) (_s : State) (i : RIns) : Option (State → RM Flow) :=
  match i with | .enddo => work (popLoop core) | _ => none

/-- Meaning of the row: the instruction, when it is the next one. -/
def execREnddo (core : Nat) (s : State) : Host.Outcome State Fault Refusal := rowR core s (pickREnddo core s)

/-- SYNC (R310): it waits while a response to a posted write of the core is outstanding. -/
def pickRSync (core : Nat) (s : State) (i : RIns) : Option (State → RM Flow) :=
  match i with | .sync => if (s.core core).werr = 0 then work id else none | _ => none

/-- Meaning of the row: the instruction, when it is the next one. -/
def execRSync (core : Nat) (s : State) : Host.Outcome State Fault Refusal := rowR core s (pickRSync core s)

/-- WAIT: the core waits for an interrupt, or for its turn (R447). -/
def waitFor (c : Nat) (s : State) : State :=
  let x := s.core c
  s.setCore c { x with ctx := { x.ctx with waiting := true } }

/-- WAIT. -/
def pickRWait (core : Nat) (_s : State) (i : RIns) : Option (State → RM Flow) :=
  match i with | .wait => work (waitFor core) | _ => none

/-- Meaning of the row: the instruction, when it is the next one. -/
def execRWait (core : Nat) (s : State) : Host.Outcome State Fault Refusal := rowR core s (pickRWait core s)

/-- TRAP (Table 10.6): vector 5. -/
def pickRTrap (_core : Nat) (_s : State) (i : RIns) : Option (State → RM Flow) :=
  match i with | .trap => some fun s => .error (5, s) | _ => none

/-- Meaning of the row: the instruction, when it is the next one. -/
def execRTrap (core : Nat) (s : State) : Host.Outcome State Fault Refusal := rowR core s (pickRTrap core s)

/-- An illegal instruction takes vector 1 (R331). -/
def pickIllegalInstruction (_core : Nat) (_s : State) (i : RIns) : Option (State → RM Flow) :=
  match i with | .illegal => some fun s => .error (1, s) | _ => none

/-- Meaning of the row: the instruction, when it is the next one. -/
def execIllegalInstruction (core : Nat) (s : State) : Host.Outcome State Fault Refusal := rowR core s (pickIllegalInstruction core s)

/-! Branches. -/

/-- BRA. -/
def pickRBra (core : Nat) (_s : State) (i : RIns) : Option (State → RM Flow) :=
  match i with | .bra d => some fun s => branchTo core 1 true (s.dispTo core d) s | _ => none

/-- Meaning of the row: the instruction, when it is the next one. -/
def execRBra (core : Nat) (s : State) : Host.Outcome State Fault Refusal := rowR core s (pickRBra core s)

/-- BSR. -/
def pickRBsr (core : Nat) (_s : State) (i : RIns) : Option (State → RM Flow) :=
  match i with | .bsr d => some fun s => callTo core 1 (s.dispTo core d) s | _ => none

/-- Meaning of the row: the instruction, when it is the next one. -/
def execRBsr (core : Nat) (s : State) : Host.Outcome State Fault Refusal := rowR core s (pickRBsr core s)

/-- Bcc. -/
def pickRBcc (core : Nat) (_s : State) (i : RIns) : Option (State → RM Flow) :=
  match i with
  | .bcc cc d => some fun s => branchTo core 1 (s.cond core cc) (s.dispTo core d) s
  | _ => none

/-- Meaning of the row: the instruction, when it is the next one. -/
def execRBcc (core : Nat) (s : State) : Host.Outcome State Fault Refusal := rowR core s (pickRBcc core s)

/-- JMP (Table 10.10). -/
def pickRJmp (core : Nat) (_s : State) (i : RIns) : Option (State → RM Flow) :=
  match i with | .jmp false t => some (branchTo core 2 true t) | _ => none

/-- Meaning of the row: the instruction, when it is the next one. -/
def execRJmp (core : Nat) (s : State) : Host.Outcome State Fault Refusal := rowR core s (pickRJmp core s)

/-- JSR. -/
def pickRJsr (core : Nat) (_s : State) (i : RIns) : Option (State → RM Flow) :=
  match i with | .jmp true t => some (callTo core 2 t) | _ => none

/-- Meaning of the row: the instruction, when it is the next one. -/
def execRJsr (core : Nat) (s : State) : Host.Outcome State Fault Refusal := rowR core s (pickRJsr core s)

/-- Bcc long. -/
def pickRBccLong (core : Nat) (_s : State) (i : RIns) : Option (State → RM Flow) :=
  match i with | .bccLong cc t => some fun s => branchTo core 2 (s.cond core cc) t s | _ => none

/-- Meaning of the row: the instruction, when it is the next one. -/
def execRBccLong (core : Nat) (s : State) : Host.Outcome State Fault Refusal := rowR core s (pickRBccLong core s)

/-! Loops. -/

/-- DO: LE is the DO's address + 1 + the offset (Table 10.7). -/
def pickRDo (core : Nat) (_s : State) (i : RIns) : Option (State → RM Flow) :=
  match i with
  | .doLoop reg v off => some fun s =>
    doLoop core 1 (pcAfter (s.dev.coreCs core) (s.core core).ctx.pc (1 + off)) (s.count core reg v) s
  | _ => none

/-- Meaning of the row: the instruction, when it is the next one. -/
def execRDo (core : Nat) (s : State) : Host.Outcome State Fault Refusal := rowR core s (pickRDo core s)

/-- DO in two words: LE is the DO's address + 2 + the offset (Table 10.10). -/
def pickRDoLong (core : Nat) (_s : State) (i : RIns) : Option (State → RM Flow) :=
  match i with
  | .doLong off count => some fun s => doLoop core 2 (pcAfter (s.dev.coreCs core) (s.core core).ctx.pc (2 + off)) count s
  | _ => none

/-- Meaning of the row: the instruction, when it is the next one. -/
def execRDoLong (core : Nat) (s : State) : Host.Outcome State Fault Refusal := rowR core s (pickRDoLong core s)

/-- REP. -/
def pickRRep (core : Nat) (_s : State) (i : RIns) : Option (State → RM Flow) :=
  match i with | .rep reg v => some fun s => repNext core (s.count core reg v) s | _ => none

/-- Meaning of the row: the instruction, when it is the next one. -/
def execRRep (core : Nat) (s : State) : Host.Outcome State Fault Refusal := rowR core s (pickRRep core s)

/-- REP in two words. -/
def pickRRepLong (core : Nat) (_s : State) (i : RIns) : Option (State → RM Flow) :=
  match i with | .repLong count => some (repNext core count) | _ => none

/-- Meaning of the row: the instruction, when it is the next one. -/
def execRRepLong (core : Nat) (s : State) : Host.Outcome State Fault Refusal := rowR core s (pickRRepLong core s)

/-! Moves. -/

/-- A register loaded with a value as a move loads it. -/
def moveTo (c code v : Nat) (s : State) : State := writeCode c code (moveTime (s.core c) code) v s

/-- MOVEI. -/
def pickRMovei (core : Nat) (_s : State) (i : RIns) : Option (State → RM Flow) :=
  match i with | .movei code v => work (moveTo core code v) | _ => none

/-- Meaning of the row: the instruction, when it is the next one. -/
def execRMovei (core : Nat) (s : State) : Host.Outcome State Fault Refusal := rowR core s (pickRMovei core s)

/-- MOVEI in two words. -/
def pickRMoveiLong (core : Nat) (_s : State) (i : RIns) : Option (State → RM Flow) :=
  match i with | .moveiLong code v => work (moveTo core code v) | _ => none

/-- Meaning of the row: the instruction, when it is the next one. -/
def execRMoveiLong (core : Nat) (s : State) : Host.Outcome State Fault Refusal := rowR core s (pickRMoveiLong core s)

/-- A register moved into another. -/
def moveReg (c dst src : Nat) (s : State) : State :=
  let r := readCode c src s
  moveTo c dst r.1 r.2

/-- MOVER. -/
def pickRMover (core : Nat) (_s : State) (i : RIns) : Option (State → RM Flow) :=
  match i with | .mover dst src => work (moveReg core dst src) | _ => none

/-- Meaning of the row: the instruction, when it is the next one. -/
def execRMover (core : Nat) (s : State) : Host.Outcome State Fault Refusal := rowR core s (pickRMover core s)

/-- A register loaded from an address of a space; it lands at the end of E1. -/
def loadReg (c : Nat) (y : Bool) (code a : Nat) (s : State) : RM Unit :=
  match dataRead c y a s with
  | .error e => .error e
  | .ok (v, s1) => .ok ((), writeCode c code (tE1 (s1.core c)) v s1)

/-- A register stored to an address of a space. -/
def storeReg (c : Nat) (y : Bool) (code a : Nat) (s : State) : RM Unit :=
  let r := readCode c code s
  dataWrite c y a r.1 r.2

/-- What follows a move that may trap. -/
def RM.go (r : RM Unit) : RM Flow := match r with | .error e => .error e | .ok (_, s) => .ok (.next, s)

/-- A load or a store. -/
def access (c : Nat) (y store : Bool) (code a : Nat) (s : State) : RM Unit :=
  if store then storeReg c y code a s else loadReg c y code a s

/-- MOVEM (R318). -/
def doMovem (c : Nat) (y store : Bool) (code pn mode : Nat) (s : State) : RM Flow :=
  let a := agu c pn mode 1 s
  (access c y store code a.1 a.2).go

/-- MOVEM. -/
def pickRMovem (core : Nat) (_s : State) (i : RIns) : Option (State → RM Flow) :=
  match i with | .movem y st code pn mode => some (doMovem core y st code pn mode) | _ => none

/-- Meaning of the row: the instruction, when it is the next one. -/
def execRMovem (core : Nat) (s : State) : Host.Outcome State Fault Refusal := rowR core s (pickRMovem core s)

/-- MOVEX: the address is Pn + Nn modulo 2^24 (R318). -/
def doMovex (c : Nat) (y store : Bool) (code pn : Nat) (s : State) : RM Flow :=
  let t := tD (s.core c)
  (access c y store code ((s.rv c t (RC_P0 + pn) + s.rv c t (RC_N0 + pn)) % 2 ^ 24) s).go

/-- MOVEX. -/
def pickRMovex (core : Nat) (_s : State) (i : RIns) : Option (State → RM Flow) :=
  match i with | .movex y st code pn => some (doMovex core y st code pn) | _ => none

/-- Meaning of the row: the instruction, when it is the next one. -/
def execRMovex (core : Nat) (s : State) : Host.Outcome State Fault Refusal := rowR core s (pickRMovex core s)

/-- MOVEL: H at the address and L at the next; steps are doubled (R315, Table 10.10). -/
def doMovel (c : Nat) (y store : Bool) (k pn mode : Nat) (s : State) : RM Flow :=
  let a := agu c pn mode 2 s
  let a2 := (a.1 + 1) % 2 ^ 24
  if store then
    let r := limited (a.2.accU c (tR (a.2.core c)) k) (a.2.rv c (tE1 (a.2.core c)) SR_SM == 1) 48
    let s1 := a.2.noteLimit c r.2
    if !s1.reachable c y a2 then .error (3, s1)
    else match dataWrite c y a.1 (r.1 / 2 ^ 24) s1 with
      | .error e => .error e
      | .ok (_, s2) => (dataWrite c y a2 (r.1 % 2 ^ 24) s2).go
  else match dataRead c y a.1 a.2 with
    | .error e => .error e
    | .ok (h, s1) =>
      match dataRead c y a2 s1 with
      | .error e => .error e
      | .ok (l, s2) => .ok (.next, s2.setAcc c (tE1 (s2.core c)) k (sext 48 (h * 2 ^ 24 + l)))

/-- MOVEL. -/
def pickRMovel (core : Nat) (_s : State) (i : RIns) : Option (State → RM Flow) :=
  match i with | .movel y st k pn mode => some (doMovel core y st k pn mode) | _ => none

/-- Meaning of the row: the instruction, when it is the next one. -/
def execRMovel (core : Nat) (s : State) : Host.Outcome State Fault Refusal := rowR core s (pickRMovel core s)

/-! LOGIC words. -/

/-- A 24-bit operation on two registers. -/
def logicOp (c dst src : Nat) (f : Nat → Nat → Nat) (s : State) : State :=
  let a := readCode c dst s
  let b := readCode c src a.2
  moveTo c dst (f a.1 b.1 % 2 ^ 24) b.2

/-- AND. -/
def pickRAnd (core : Nat) (_s : State) (i : RIns) : Option (State → RM Flow) :=
  match i with | .logic 0 dst src => work (logicOp core dst src (· &&& ·)) | _ => none

/-- Meaning of the row: the instruction, when it is the next one. -/
def execRAnd (core : Nat) (s : State) : Host.Outcome State Fault Refusal := rowR core s (pickRAnd core s)

/-- OR. -/
def pickROr (core : Nat) (_s : State) (i : RIns) : Option (State → RM Flow) :=
  match i with | .logic 1 dst src => work (logicOp core dst src (· ||| ·)) | _ => none

/-- Meaning of the row: the instruction, when it is the next one. -/
def execROr (core : Nat) (s : State) : Host.Outcome State Fault Refusal := rowR core s (pickROr core s)

/-- EOR. -/
def pickREor (core : Nat) (_s : State) (i : RIns) : Option (State → RM Flow) :=
  match i with | .logic 2 dst src => work (logicOp core dst src (· ^^^ ·)) | _ => none

/-- Meaning of the row: the instruction, when it is the next one. -/
def execREor (core : Nat) (s : State) : Host.Outcome State Fault Refusal := rowR core s (pickREor core s)

/-- A register changed in place. -/
def inPlace (c code : Nat) (f : Nat → Nat) (s : State) : State :=
  let a := readCode c code s
  moveTo c code (f a.1 % 2 ^ 24) a.2

/-- BSET. -/
def pickRBset (core : Nat) (_s : State) (i : RIns) : Option (State → RM Flow) :=
  match i with | .bitOp 3 code b => work (inPlace core code (· ||| 2 ^ b)) | _ => none

/-- Meaning of the row: the instruction, when it is the next one. -/
def execRBset (core : Nat) (s : State) : Host.Outcome State Fault Refusal := rowR core s (pickRBset core s)

/-- BCLR. -/
def pickRBclr (core : Nat) (_s : State) (i : RIns) : Option (State → RM Flow) :=
  match i with
  | .bitOp 4 code b => work (inPlace core code fun v => if bit v b then v - 2 ^ b else v)
  | _ => none

/-- Meaning of the row: the instruction, when it is the next one. -/
def execRBclr (core : Nat) (s : State) : Host.Outcome State Fault Refusal := rowR core s (pickRBclr core s)

/-- BTST: the bit goes to Z. -/
def testBit (c code b : Nat) (s : State) : State :=
  let a := readCode c code s
  a.2.rw c (tE2 (a.2.core c)) SR_Z (b2n (bit a.1 b))

/-- BTST. -/
def pickRBtst (core : Nat) (_s : State) (i : RIns) : Option (State → RM Flow) :=
  match i with | .bitOp 5 code b => work (testBit core code b) | _ => none

/-- Meaning of the row: the instruction, when it is the next one. -/
def execRBtst (core : Nat) (s : State) : Host.Outcome State Fault Refusal := rowR core s (pickRBtst core s)

/-- ADDI. -/
def pickRAddi (core : Nat) (_s : State) (i : RIns) : Option (State → RM Flow) :=
  match i with | .addi code v => work (inPlace core code fun x => wrapN 24 (x + v)) | _ => none

/-- Meaning of the row: the instruction, when it is the next one. -/
def execRAddi (core : Nat) (s : State) : Host.Outcome State Fault Refusal := rowR core s (pickRAddi core s)

/-! PAR words: an operation and up to two moves (Tables 10.7 and 10.8). -/

/-- A parallel move: whether it is made, its register, direction, pointer and mode. -/
structure PMove where
  en : Bool
  y : Bool
  code : Nat
  store : Bool
  pn : Nat
  mode : Nat

/-- The move that XMOV or YMOV names. -/
def pmove (y : Bool) (v : Nat) : PMove :=
  { en := bit v 6, y := y, code := (if y then RC_Y0 else RC_X0) + bits v 5 4, store := bit v 3,
    pn := (if y then 4 else 0) + bits v 2 2, mode := bits v 1 0 }

/-- One parallel move, made when it is enabled and of the direction asked for. -/
def PMove.go (m : PMove) (c : Nat) (store : Bool) (s : State) : RM Unit :=
  if !m.en || m.store != store then .ok ((), s)
  else
    let a := agu c m.pn m.mode 1 s
    access c m.y store m.code a.1 a.2

/-- An enabled move can reach its address. -/
def PMove.reach (m : PMove) (c : Nat) (s : State) : Bool := !m.en || s.reachable c m.y (agu c m.pn m.mode 1 s).1

/-- One move after another. -/
def RM.andThen (r : RM Unit) (f : State → RM Unit) : RM Unit := match r with | .error e => .error e | .ok (_, s) => f s

/-- The moves of a PAR word: nothing is stored when one of the addresses or loads traps. -/
def parMoves (c xm ym : Nat) (s : State) : RM Unit :=
  let x := pmove false xm
  let y := pmove true ym
  if !(x.reach c s && y.reach c s) then .error (3, s)
  else (((x.go c false s).andThen (y.go c false)).andThen (x.go c true)).andThen (y.go c true)

/-- A PAR word: the operation reads its operands before the moves write. -/
def parWork (c xm ym : Nat) (op : State → State) : Option (State → RM Flow) :=
  some fun s => ((parMoves c xm ym (op s)).go)

/-- A row of Table 10.8: its operation on the accumulator and the source field. -/
def parPick (core op : Nat) (f : Nat → Nat → State → State) (i : RIns) : Option (State → RM Flow) :=
  match i with
  | .par o k src xm ym => if o = op then parWork core xm ym (f k src) else none
  | _ => none

/-- MOVES_ONLY. -/
def pickRMovesOnly (core : Nat) (_s : State) (i : RIns) : Option (State → RM Flow) :=
  parPick core 0x00 (fun _ _ => id) i

/-- Meaning of the row: the instruction, when it is the next one. -/
def execRMovesOnly (core : Nat) (s : State) : Host.Outcome State Fault Refusal := rowR core s (pickRMovesOnly core s)

/-- The product that SRC names. -/
def State.prodOf (s : State) (c src : Nat) : Int := s.prod c (prodRegs src).1 (prodRegs src).2

/-- A sum into an accumulator. -/
def accAdd (c k : Nat) (p : Int) (s : State) : State := s.arith c k (s.accNow c k + p) (carryAdd (s.accNow c k) p)

/-- A difference into an accumulator. -/
def accSub (c k : Nat) (p : Int) (s : State) : State := s.arith c k (s.accNow c k - p) (borrowSub (s.accNow c k) p)

/-- MPY (R313). -/
def pickRMpy (core : Nat) (_s : State) (i : RIns) : Option (State → RM Flow) :=
  parPick core 0x01 (fun k src s => s.arith core k (s.prodOf core src) false) i

/-- Meaning of the row: the instruction, when it is the next one. -/
def execRMpy (core : Nat) (s : State) : Host.Outcome State Fault Refusal := rowR core s (pickRMpy core s)

/-- MAC. -/
def pickRMac (core : Nat) (_s : State) (i : RIns) : Option (State → RM Flow) :=
  parPick core 0x02 (fun k src s => accAdd core k (s.prodOf core src) s) i

/-- Meaning of the row: the instruction, when it is the next one. -/
def execRMac (core : Nat) (s : State) : Host.Outcome State Fault Refusal := rowR core s (pickRMac core s)

/-- MSU. -/
def pickRMsu (core : Nat) (_s : State) (i : RIns) : Option (State → RM Flow) :=
  parPick core 0x03 (fun k src s => accSub core k (s.prodOf core src) s) i

/-- Meaning of the row: the instruction, when it is the next one. -/
def execRMsu (core : Nat) (s : State) : Host.Outcome State Fault Refusal := rowR core s (pickRMsu core s)

/-- MPYR (R316). -/
def pickRMpyr (core : Nat) (_s : State) (i : RIns) : Option (State → RM Flow) :=
  parPick core 0x04 (fun k src s => s.arithRnd core k (s.prodOf core src) false) i

/-- Meaning of the row: the instruction, when it is the next one. -/
def execRMpyr (core : Nat) (s : State) : Host.Outcome State Fault Refusal := rowR core s (pickRMpyr core s)

/-- MACR. -/
def pickRMacr (core : Nat) (_s : State) (i : RIns) : Option (State → RM Flow) :=
  parPick core 0x05 (fun k src s =>
    s.arithRnd core k (s.accNow core k + s.prodOf core src) (carryAdd (s.accNow core k) (s.prodOf core src))) i

/-- Meaning of the row: the instruction, when it is the next one. -/
def execRMacr (core : Nat) (s : State) : Host.Outcome State Fault Refusal := rowR core s (pickRMacr core s)

/-- Two products into two accumulators (Table 10.8). C, Z, N and E come from one of the two results, which one the manual does
not say; V is set by either. -/
def twoProducts (c k : Nat) (sub : Bool) (s : State) : State :=
  let p := s.prodOf c 0
  let q := s.prodOf c 1
  let j := k ^^^ 1
  let a := s.accNow c k
  let b := s.accNow c j
  let x := if sub then a - p else a + p
  let y := if sub then b - q else b + q
  let cx := if sub then borrowSub a p else carryAdd a p
  let cy := if sub then borrowSub b q else carryAdd b q
  let first := s.dev.free % 2 == 0
  let s1 := { s with dev := s.dev.drew }
  let s2 := s1.flags c (!in56 x || !in56 y) (if first then cx else cy) (keep56 (if first then x else y))
  (s2.setAcc c (tE2 (s2.core c)) k (keep56 x)).setAcc c (tE2 (s2.core c)) j (keep56 y)

/-- MAC2. -/
def pickRMac2 (core : Nat) (_s : State) (i : RIns) : Option (State → RM Flow) :=
  parPick core 0x06 (fun k _ => twoProducts core k false) i

/-- Meaning of the row: the instruction, when it is the next one. -/
def execRMac2 (core : Nat) (s : State) : Host.Outcome State Fault Refusal := rowR core s (pickRMac2 core s)

/-- MSU2. -/
def pickRMsu2 (core : Nat) (_s : State) (i : RIns) : Option (State → RM Flow) :=
  parPick core 0x07 (fun k _ => twoProducts core k true) i

/-- Meaning of the row: the instruction, when it is the next one. -/
def execRMsu2 (core : Nat) (s : State) : Host.Outcome State Fault Refusal := rowR core s (pickRMsu2 core s)

/-- The operand S·2^24. -/
def State.opndHigh (s : State) (c src : Nat) : Int := s.opnd c (opndReg src) * 2 ^ 24

/-- ADD. -/
def pickRAdd (core : Nat) (_s : State) (i : RIns) : Option (State → RM Flow) :=
  parPick core 0x08 (fun k src s => accAdd core k (s.opndHigh core src) s) i

/-- Meaning of the row: the instruction, when it is the next one. -/
def execRAdd (core : Nat) (s : State) : Host.Outcome State Fault Refusal := rowR core s (pickRAdd core s)

/-- SUB. -/
def pickRSub (core : Nat) (_s : State) (i : RIns) : Option (State → RM Flow) :=
  parPick core 0x09 (fun k src s => accSub core k (s.opndHigh core src) s) i

/-- Meaning of the row: the instruction, when it is the next one. -/
def execRSub (core : Nat) (s : State) : Host.Outcome State Fault Refusal := rowR core s (pickRSub core s)

/-- ADDA. -/
def pickRAdda (core : Nat) (_s : State) (i : RIns) : Option (State → RM Flow) :=
  parPick core 0x0A (fun k src s => accAdd core k (s.accNow core src) s) i

/-- Meaning of the row: the instruction, when it is the next one. -/
def execRAdda (core : Nat) (s : State) : Host.Outcome State Fault Refusal := rowR core s (pickRAdda core s)

/-- SUBA. -/
def pickRSuba (core : Nat) (_s : State) (i : RIns) : Option (State → RM Flow) :=
  parPick core 0x0B (fun k src s => accSub core k (s.accNow core src) s) i

/-- Meaning of the row: the instruction, when it is the next one. -/
def execRSuba (core : Nat) (s : State) : Host.Outcome State Fault Refusal := rowR core s (pickRSuba core s)

/-- CMP: the flags of a difference. -/
def pickRCmp (core : Nat) (_s : State) (i : RIns) : Option (State → RM Flow) :=
  parPick core 0x0C (fun k src s =>
    let d := s.accNow core k - s.opndHigh core src
    s.flags core (!in56 d) (borrowSub (s.accNow core k) (s.opndHigh core src)) (keep56 d)) i

/-- Meaning of the row: the instruction, when it is the next one. -/
def execRCmp (core : Nat) (s : State) : Host.Outcome State Fault Refusal := rowR core s (pickRCmp core s)

/-- TST. -/
def pickRTst (core : Nat) (_s : State) (i : RIns) : Option (State → RM Flow) :=
  parPick core 0x0D (fun k _ s => s.flags core false false (s.accNow core k)) i

/-- Meaning of the row: the instruction, when it is the next one. -/
def execRTst (core : Nat) (s : State) : Host.Outcome State Fault Refusal := rowR core s (pickRTst core s)

/-- CLR. -/
def pickRClr (core : Nat) (_s : State) (i : RIns) : Option (State → RM Flow) :=
  parPick core 0x0E (fun k _ s => s.arith core k 0 false) i

/-- Meaning of the row: the instruction, when it is the next one. -/
def execRClr (core : Nat) (s : State) : Host.Outcome State Fault Refusal := rowR core s (pickRClr core s)

/-- An accumulator taken from zero. -/
def accNeg (c k : Nat) (s : State) : State := s.arith c k (0 - s.accNow c k) (borrowSub 0 (s.accNow c k))

/-- NEG. -/
def pickRNeg (core : Nat) (_s : State) (i : RIns) : Option (State → RM Flow) :=
  parPick core 0x0F (fun k _ => accNeg core k) i

/-- Meaning of the row: the instruction, when it is the next one. -/
def execRNeg (core : Nat) (s : State) : Host.Outcome State Fault Refusal := rowR core s (pickRNeg core s)

/-- ABS. -/
def pickRAbs (core : Nat) (_s : State) (i : RIns) : Option (State → RM Flow) :=
  parPick core 0x10 (fun k _ s => if s.accNow core k < 0 then accNeg core k s else s.arith core k (s.accNow core k) false) i

/-- Meaning of the row: the instruction, when it is the next one. -/
def execRAbs (core : Nat) (s : State) : Host.Outcome State Fault Refusal := rowR core s (pickRAbs core s)

/-- TFR. -/
def pickRTfr (core : Nat) (_s : State) (i : RIns) : Option (State → RM Flow) :=
  parPick core 0x11 (fun k src s => s.arith core k (s.accNow core src) false) i

/-- Meaning of the row: the instruction, when it is the next one. -/
def execRTfr (core : Nat) (s : State) : Host.Outcome State Fault Refusal := rowR core s (pickRTfr core s)

/-- RND (R316). -/
def pickRRnd (core : Nat) (_s : State) (i : RIns) : Option (State → RM Flow) :=
  parPick core 0x12 (fun k _ s => s.arithRnd core k (s.accNow core k) false) i

/-- Meaning of the row: the instruction, when it is the next one. -/
def execRRnd (core : Nat) (s : State) : Host.Outcome State Fault Refusal := rowR core s (pickRRnd core s)

/-- ASL by one: the carry is the bit that leaves bit 55. -/
def pickRAsl (core : Nat) (_s : State) (i : RIns) : Option (State → RM Flow) :=
  parPick core 0x13 (fun k _ s => s.arith core k (2 * s.accNow core k) (decide (s.accNow core k < 0))) i

/-- Meaning of the row: the instruction, when it is the next one. -/
def execRAsl (core : Nat) (s : State) : Host.Outcome State Fault Refusal := rowR core s (pickRAsl core s)

/-- ASR by one. -/
def pickRAsr (core : Nat) (_s : State) (i : RIns) : Option (State → RM Flow) :=
  parPick core 0x14 (fun k _ s => s.arith core k (s.accNow core k / 2) false) i

/-- Meaning of the row: the instruction, when it is the next one. -/
def execRAsr (core : Nat) (s : State) : Host.Outcome State Fault Refusal := rowR core s (pickRAsr core s)

/-- NORM (R317): one step, the exponent register following. -/
def doNorm (c k reg : Nat) (s : State) : State :=
  let v := s.accNow c k
  let r := normStep v
  let x := s.rv c (tE2 (s.core c)) reg
  let s1 := s.arith c k r.1 (decide (r.2 < 0) && decide (v < 0))
  if r.2 = 0 then s1 else s1.rw c (tE2 (s1.core c)) reg (wrapN 24 (x + r.2))

/-- NORM. -/
def pickRNorm (core : Nat) (_s : State) (i : RIns) : Option (State → RM Flow) :=
  parPick core 0x15 (fun k src => doNorm core k (opndReg src)) i

/-- Meaning of the row: the instruction, when it is the next one. -/
def execRNorm (core : Nat) (s : State) : Host.Outcome State Fault Refusal := rowR core s (pickRNorm core s)

/-- EXP (R317): the normalising shift goes to its destination, and Z says whether the accumulator is zero. -/
def doExp (c k reg : Nat) (s : State) : State :=
  let v := s.accNow c k
  let t := tE2 (s.core c)
  (s.rw c t reg (wrapN 24 (normShift v))).rw c t SR_Z (b2n (decide (v = 0)))

/-- EXP. -/
def pickRExp (core : Nat) (_s : State) (i : RIns) : Option (State → RM Flow) :=
  parPick core 0x16 (fun k src => doExp core k (opndReg src)) i

/-- Meaning of the row: the instruction, when it is the next one. -/
def execRExp (core : Nat) (s : State) : Host.Outcome State Fault Refusal := rowR core s (pickRExp core s)

/-- NORMF (R317): the whole shift at once, the exponent register less the shift. -/
def doNormf (c k code : Nat) (s : State) : State :=
  let v := s.accNow c k
  let n := normShift v
  let x := readCode c code s
  let r : Int := if n < 0 then v / 2 ^ (-n).toNat else v * 2 ^ n.toNat
  let s1 := x.2.arith c k r (decide (0 < n) && decide (v < 0))
  writeCode c code (tE2 (s1.core c)) (wrapN 24 (x.1 - n)) s1

/-- NORMF. -/
def pickRNormf (core : Nat) (_s : State) (i : RIns) : Option (State → RM Flow) :=
  match i with | .normf k code => work (doNormf core k code) | _ => none

/-- Meaning of the row: the instruction, when it is the next one. -/
def execRNormf (core : Nat) (s : State) : Host.Outcome State Fault Refusal := rowR core s (pickRNormf core s)

/-- MACX: a product of any X and Y register (Table 10.10). -/
def doMacx (c k x y op : Nat) (s : State) : State :=
  let p := s.prod c (RC_X0 + x) (RC_Y0 + y)
  match op with | 0 => s.arith c k p false | 1 => accAdd c k p s | _ => accSub c k p s

/-- MACX. -/
def pickRMacx (core : Nat) (_s : State) (i : RIns) : Option (State → RM Flow) :=
  match i with | .macx k x y op => work (doMacx core k x y op) | _ => none

/-- Meaning of the row: the instruction, when it is the next one. -/
def execRMacx (core : Nat) (s : State) : Host.Outcome State Fault Refusal := rowR core s (pickRMacx core s)

/-! One instruction, whichever it is. -/

/-- The work of every instruction. -/
def picks : List (Nat → State → RIns → Option (State → RM Flow)) := [
  pickRNop, pickRRts, pickRRti1, pickRRti2, pickRRtt, pickREnddo, pickRSync, pickRWait,
  pickRTrap, pickIllegalInstruction, pickRBra, pickRBsr, pickRBcc, pickRJmp, pickRJsr, pickRBccLong,
  pickRDo, pickRDoLong, pickRRep, pickRRepLong, pickRMovei, pickRMoveiLong, pickRMover, pickRMovem,
  pickRMovex, pickRMovel, pickRAnd, pickROr, pickREor, pickRBset, pickRBclr, pickRBtst,
  pickRAddi, pickRMovesOnly, pickRMpy, pickRMac, pickRMsu, pickRMpyr, pickRMacr, pickRMac2,
  pickRMsu2, pickRAdd, pickRSub, pickRAdda, pickRSuba, pickRCmp, pickRTst, pickRClr,
  pickRNeg, pickRAbs, pickRTfr, pickRRnd, pickRAsl, pickRAsr, pickRNorm, pickRExp,
  pickRNormf, pickRMacx]

/-- The next instruction of a core executed. -/
def stepCore (c : Nat) (s : State) : State := runR c (fun i => picks.findSome? fun p => p c s i) s

/-- The core runs on to a boundary at which it can be halted, for at most so many instructions (R327). -/
def toBoundary (c : Nat) : Nat → State → State
  | 0, s => s
  | n + 1, s =>
    if s.dev.coreState c ≠ CORE_RUN ∨ (s.core c).ctx.boundary then s else toBoundary c n (stepCore c s)

end Sys2Proof.Machine
end

