-- ==== Sys2Proof/Machine/CoreRows.lean ====
section
/-!
DEFINITION. Interrupts, watchdogs and timers of the Rhaex cores, the commands of their registers, the core commands and the
tuckpointing of a core (10_rhaex_cores R306, R327 to R329, R333 to R337; 19_debug_and_test R513, R514).
-/
namespace Sys2Proof.Machine

/-! Interrupts (R327 to R329). -/

/-- The pending line that a core takes first, with its level: the highest level, then the lowest number. -/
def Dev.bestLine (d : Dev) (c : Nat) : Option (Nat × Nat) :=
  let on := (List.range 48).filter fun l => d.on (CR_INT c l) CR_INT_EN && d.on (CR_INT c l) CR_INT_PEND
  match on.find? fun l => d.on (CR_INT c l) CR_INT_LEVEL with
  | some l => some (l, 1)
  | none => on.head?.map fun l => (l, 2)

/-- A core can take an interrupt now: it runs, at a boundary that R327 allows. -/
def Dev.canTake (d : Dev) (c : Nat) : Bool :=
  c < 4 && d.coreState c == CORE_RUN && (d.core c).ctx.boundary && (!d.coreCs c || (d.core c).ctx.runs)

/-- IPL of a core with every write landed. -/
def Dev.ipl (d : Dev) (c : Nat) : Nat := (d.core c).final (regKey (d.coreCs c) (d.core c).bank SR_IPL)

/-- The entry of an interrupt: the line's pending bit is cleared, the next PC and SR are saved, IPL is set and execution goes to the
line's vector (Table 10.6). Level 1 toggles BANK. -/
def Dev.intEntry (d : Dev) (c line pcReg srReg ipl : Nat) (toggle : Bool) : Dev :=
  let cs := d.coreCs c
  let x := (d.core c).drain
  let y := (x.force cs pcReg x.ctx.pc).force cs srReg (d.coreSr c)
  let z := if toggle then { y with bank := 1 - y.bank } else y
  let w := z.force cs SR_IPL ipl
  let u := { w.ctx with pc := 2 * (16 + line), waiting := false }
  (d.setF (CR_INT c line) CR_INT_PEND 0).setCore c { w with ctx := u }

/-- LEVEL_1_INTERRUPT (R328). -/
def Dev.level1 (d : Dev) (c : Nat) : Dev :=
  match d.bestLine c with
  | some (l, 1) => if d.canTake c && !d.coreCs c && decide (d.ipl c < 2) then d.intEntry c l RC_SPC RC_SSR 2 true else d
  | _ => d

/-- LEVEL_2_INTERRUPT (R329); in the compatibility state a line of either level (R332). -/
def Dev.level2 (d : Dev) (c : Nat) : Dev :=
  match d.bestLine c with
  | some (l, lv) =>
    if d.canTake c && (lv == 2 || d.coreCs c) && d.ipl c == 0 then d.intEntry c l RC_IPC2 RC_ISR2 1 false else d
  | none => d

/-- Meaning of LEVEL_1_INTERRUPT. -/
def execLevel1Interrupt (core : Nat) (s : State) : Host.Outcome State Fault Refusal := nextDev s (s.dev.level1 core)

/-- Meaning of LEVEL_2_INTERRUPT. -/
def execLevel2Interrupt (core : Nat) (s : State) : Host.Outcome State Fault Refusal := nextDev s (s.dev.level2 core)

/-- Meaning of BREAKPOINT (R513): the next instruction is one that a breakpoint names. -/
def execBreakpoint (core : Nat) (s : State) : Host.Outcome State Fault Refusal :=
  .next (if s.dev.coreReady core then (s.breakCheck core).getD s else s)

/-- WINDOW_WRITE_ERROR (R310): the error response of a posted write arrives. -/
def Dev.winError (d : Dev) (c : Nat) : Dev :=
  let x := d.core c
  if c ≥ 4 ∨ x.werr = 0 then d
  else (((d.setCore c { x with werr := x.werr - 1 }).setF (CR_STAT c) CR_STAT_WERR 1).lineOn c 18).raise 0x0F03 c 0 0

/-- Meaning of WINDOW_WRITE_ERROR. -/
def execWindowWriteError (core : Nat) (s : State) : Host.Outcome State Fault Refusal := nextDev s (s.dev.winError core)

/-- The watchdog timeout of a core, in milliseconds (CR_WDOG). -/
def Dev.wdogMs (d : Dev) (c : Nat) : Nat := clampN 1 10000 (d.f (CR_WDOG c) CR_WDOG_TIMEOUT_MS)

/-- WATCHDOG_EXPIRY (R333, R457): the core halts and the expiry is recorded; that of logical core 0 makes a device reset due. The
watchdog of a core that QDP holds is frozen (R514). -/
def Dev.wdogExpire (d : Dev) (c : Nat) : Dev :=
  if c ≥ 4 ∨ !d.on (CR_CTRL c) CR_CTRL_WDOG_EN ∨ (d.core c).qhalt ≠ 0 ∨ d.coreState c ≠ CORE_RUN ∨
      d.now < (d.core c).wdogAt + d.wdogMs c * 10 ^ 6 then d
  else
    let d1 := ((d.coreHalt c 5).setF (CR_STAT c) CR_STAT_WDOG_EXP 1).raise 0x0F04 c 0 0
    if d.logicalOf c ≠ 0 then d1
    else
      let d2 := (d1.setF SC_WDOG SC_WDOG_PENDING 1).setF INT_CAUSE INT_CAUSE_WDOG 1
      ({ d2 with pwr := { d2.pwr with wdogDue := some d.now } } : Dev).cause 4

/-- Meaning of WATCHDOG_EXPIRY. -/
def execWatchdogExpiry (core : Nat) (s : State) : Host.Outcome State Fault Refusal := nextDev s (s.dev.wdogExpire core)

/-- TIMER_COMPARE (CR_TCMP): the timer equals the compare value, whose line is enabled. -/
def Dev.timerHit (d : Dev) (c : Nat) : Dev :=
  let t := d.rdN (CR_TCMP c)
  if c < 4 ∧ bit t 63 ∧ t % 2 ^ 48 = d.crTimer c then d.lineOn c 17 else d

/-- Meaning of TIMER_COMPARE. -/
def execTimerCompare (core : Nat) (s : State) : Host.Outcome State Fault Refusal := nextDev s (s.dev.timerHit core)

/-! Writes of the core's registers that act. -/

/-- A write of CR_CTRL with a command, its other fields as they are. -/
def cmdWrite (core who cmd : Nat) (s : State) : State :=
  if core < 4 then (regWrite who (CR_CTRL core) 4 (s.dev.rdN (CR_CTRL core) / 4 * 4 + cmd) s).2 else s

/-- CMD_START (R306). -/
def execCmdStart (core who : Nat) (s : State) : Host.Outcome State Fault Refusal := .next (cmdWrite core who 1 s)

/-- CMD_HALT (R306). -/
def execCmdHalt (core who : Nat) (s : State) : Host.Outcome State Fault Refusal := .next (cmdWrite core who 2 s)

/-- CMD_RESET (R306). -/
def execCmdReset (core who : Nat) (s : State) : Host.Outcome State Fault Refusal := .next (cmdWrite core who 3 s)

/-- KICK (R333). -/
def execKick (core who : Nat) (s : State) : Host.Outcome State Fault Refusal :=
  .next (if core < 4 then (regWrite who (CR_WDOG core) 4 (s.dev.rdN (CR_WDOG core) % 2 ^ 31 + 2 ^ 31) s).2 else s)

/-- SWSET (R327). -/
def execSwset (core line who : Nat) (s : State) : Host.Outcome State Fault Refusal :=
  .next (if core < 4 ∧ line < 48 then (regWrite who (CR_INT core line) 4 (s.dev.rdN (CR_INT core line) % 4 + 8) s).2 else s)

/-! The core self-test (R334, R517). -/

/-- n bytes from an address upward left with contents that the manual does not give; the fourth byte of each word is zero. -/
def overwritten (s : State) (a n : Nat) : State :=
  let f := s.dev.fresh
  let new : List Host.Cell := ((List.range n).map fun i =>
    (a + i, BitVec.ofNat 8 (if i % 4 = 3 then 0 else Config.freeNat (f + i)))).filter fun c => c.2 != memReset c.1
  let m := s.mem.zero a n
  let bytes := m.bytes.filter (fun c => decide (c.1 < a)) ++ new ++ m.bytes.filter (fun c => decide (a + n ≤ c.1))
  { s with mem := { m with bytes := bytes }, dev := { s.dev with fresh := f + n } }

/-- A core test leaves the memories of the logical core overwritten (R517). -/
def coreTested (l : Nat) (s : State) : State :=
  let b := 0x50000000 + 0x1000000 * l
  overwritten (overwritten (overwritten s b 0x100000) (b + 0x400000) 0x80000) (b + 0x600000) 0x80000

/-- A failed reserve core is retired in the spare map (R334). -/
def Dev.retireReserve (d : Dev) : Dev :=
  let d1 := d.setCoreState (d.physOf 3) CORE_RETIRED
  ((({ d1 with ret := { d1.ret with spare := { d1.ret.spare with resRetired := true } } } : Dev).raise 0x000D 3 0 0).unitFailed).wantCommit
    .spare none

/-- RESERVE_CORE_SELFTEST (R334): the reserve, halted and not retired, is tested. -/
def reserveCoreTest (pass : Bool) (s : State) : State :=
  let st := s.dev.coreState (s.dev.physOf 3)
  if st = CORE_RUN ∨ st = CORE_RETIRED then s
  else
    let s1 := coreTested 3 s
    let d := s1.dev.noteTest 1 3 (b2n (!pass))
    { s1 with dev := if pass then d else d.retireReserve }

/-- Meaning of RESERVE_CORE_SELFTEST. -/
def execReserveCoreSelftest (pass : Bool) (s : State) : Host.Outcome State Fault Refusal := .next (reserveCoreTest pass s)

/-! Tuckpointing (R334, R335). -/

/-- A reserve that can take over: not retired, not QDP's, not in use. -/
def Dev.reserveOk (d : Dev) : Bool :=
  let p := d.physOf 3
  !(d.coreState p == CORE_RETIRED || d.coreState p == CORE_RUN)

/-- A core's memories copied to the reserve's, poison and stored errors with them (R335). -/
def Mem.copyCore (m : Mem) (l : Nat) : Mem :=
  let a := 0x50000000 + 0x1000000 * l
  let b := 0x53000000
  let n := 0x1000000
  let z := m.zero b n
  let cells := m.bytes.filter fun c => decide (a ≤ c.1 ∧ c.1 < a + n)
  let psn := m.poison.filter fun c => decide (a ≤ c.1 ∧ c.1 < a + n)
  let soft := m.soft.filter fun c => decide (softKey 2 a ≤ c.1 ∧ c.1 < softKey 2 (a + n) ∧ c.2 = 2)
  let y := { z with bytes := cells.foldl (fun (t : List Host.Cell) (c : Host.Cell) => tset memReset t (c.1 - a + b) c.2) z.bytes }
  let w := { y with poison := psn.foldl (fun (t : Tbl Bool) (c : Nat × Bool) => tset (fun _ => false) t (c.1 - a + b) c.2) y.poison }
  soft.foldl (fun q c => q.mark (c.1 - softKey 2 a + b) true) w

/-- The windows and lines of a core copied to another. -/
def Dev.copyPage (d : Dev) (src dst : Nat) : Dev :=
  (List.range 48).foldl (fun (e : Dev) l => e.wr (CR_INT dst l) (d.rd (CR_INT src l)))
    ((d.wr (CR_WIN_X dst) (d.rd (CR_WIN_X src))).wr (CR_WIN_Y dst) (d.rd (CR_WIN_Y src)))

/-- Steps 1 to 5 of R335 for a logical core: it halts, or is reset when it has not halted within 1 ms; memories and state go to the
reserve, which takes its number and starts. -/
def tuckCore (l : Nat) (s : State) : State :=
  let c := s.dev.physOf l
  let r := s.dev.physOf 3
  let s1 := toBoundary c 800000 s
  let ran := s.dev.coreState c == CORE_RUN
  let kept := !ran || (s1.core c).ctx.boundary || s1.dev.coreState c != CORE_RUN
  let cs := s.dev.coreCs c
  let d := if kept then s1.dev.setCore c (s1.dev.core c).drain else s1.dev.coreClear c
  let m := s1.mem.copyCore l
  let x : RCore := if kept then { d.core c with timerAt := (d.core r).timerAt, due := 0, qhalt := 0, wdogAt := d.now }
    else { timerAt := (d.core r).timerAt, wdogAt := d.now }
  let d1 := if kept then d.copyPage c r else d
  let v := d1.rdN CR_MAP
  let v1 := v % 4 ^ l + r * 4 ^ l + v / 4 ^ (l + 1) % 4 ^ (2 - l) * 4 ^ (l + 1) + c * 64
  let d2 := (((d1.setCore r x).wrN CR_MAP v1).setCoreState c CORE_RETIRED).setCoreState r (if ran then CORE_RUN else CORE_HALTED)
  let d3 := d2.setF (CR_STAT r) CR_STAT_CS (b2n cs)
  let sp := d3.ret.spare
  let d4 := { d3 with ret := { d3.ret with spare := { sp with crMap := v1, resRetired := true } },
                      tucks := { l := l, src := c, dst := r, kept := kept, timeS := d3.todSec } :: d3.tucks }
  { s1 with mem := m, dev := (d4.unitFailed).tuckpointed l true }

/-! The core commands (Table 10.12; layouts in log entry 8). -/

/-- The core that a command names: logical 1 or 2. -/
def Cmd.coreNum (c : Cmd) : Nat := c.b 0 1 0

/-- It names another. -/
def coreBad (c : Cmd) : Bool := !(c.coreNum == 1 || c.coreNum == 2)

/-- CORE_LOAD: word 0 [1:0] core; words 1 and 2 the address of the images of PM, XM and YM, one after the other in 32-bit words;
words 3 to 5 their lengths in words. -/
def coreLoadDef : CmdDef where
  op := 0x0901
  masks := fun _ => [0x3, 0xFFFFFFFF, 0xFFFF, 0x7FFFF, 0x3FFFF, 0x3FFFF]
  bad := fun c _ => coreBad c || c.p 3 > 0x40000 || c.p 4 > 0x20000 || c.p 5 > 0x20000 || c.q 1 % 4 != 0
  run := onDev fun c s =>
    if s.dev.coreState (s.dev.physOf c.coreNum) = CORE_RUN then noR .badState s.dev
    else asJob c s.dev (0x0901 + 0x10000 * c.coreNum) false

/-- The work of a CORE_LOAD job. -/
def coreLoadWork (s : State) (i : Nat) : State × Option (Code × Nat) :=
  let ps := (s.dev.job i).params
  let l := ps.getD 0 0 % 4
  let base := 0x50000000 + 0x1000000 * l
  let n := fun (k : Nat) => 4 * ps.getD k 0
  if s.dev.coreState (s.dev.physOf l) = CORE_RUN then (s, some (.badState, 0))
  else match readTable s.dev s.mem (s.dev.jobQ i 1) (n 3 + n 4 + n 5) with
    | .error k => (s, some (k, 0))
    | .ok bs =>
      let put := fun (q : Mem) (a : Nat) (b : List Nat) => (memWrite s.dev q a b false).2
      let m := put (put (put s.mem base (bs.take (n 3))) (base + 0x400000) ((bs.drop (n 3)).take (n 4)))
        (base + 0x600000) ((bs.drop (n 3 + n 4)).take (n 5))
      ({ s with mem := m }, some (.ok, bs.length))

/-- CORE_START: word 0 [1:0] core, [2] watchdog on, [25:8] START_PC; words 1 to 4 CR_WIN_X and CR_WIN_Y; word 5 TIMEOUT_MS; words 6
and 7 the lines enabled, words 8 and 9 those of level 1. -/
def coreStartDef : CmdDef where
  op := 0x0902
  masks := fun _ => [0x03FFFF07, 0xFF800003, 0xFFFF, 0xFF800003, 0xFFFF, 0x3FFF, 0xFFFFFFFF, 0xFFFF, 0xFFFFFFFF, 0xFFFF]
  bad := fun c _ => coreBad c || c.p 5 < 1 || c.p 5 > 10000
  run := onDev fun c s =>
    let d := s.dev
    let k := d.physOf c.coreNum
    checks [(d.coreState k == CORE_RUN, .badState), ((d.core k).qhalt != 0, .busy), (d.coreState k == CORE_RETIRED, .noResource)] d
      (let d1 := ((d.wrN (CR_WIN_X k) (c.q 1)).wrN (CR_WIN_Y k) (c.q 3)).setF (CR_WDOG k) CR_WDOG_TIMEOUT_MS (c.p 5)
       let d2 := (d1.setF (CR_CTRL k) CR_CTRL_WDOG_EN (c.b 0 2 2)).setF (CR_CTRL k) CR_CTRL_START_PC (c.b 0 25 8)
       let d3 := (List.range 48).foldl (fun (e : Dev) l =>
         (e.setF (CR_INT k l) CR_INT_EN (b2n (bit (c.q 6) l))).setF (CR_INT k l) CR_INT_LEVEL (b2n (bit (c.q 8) l))) d2
       okR [] (d3.coreStart k))

/-- CORE_STOP: word 0 [1:0] core, [2] reset in place of a halt. A core that does not come to a boundary within 1 ms is reset. -/
def coreStopDef : CmdDef where
  op := 0x0903
  masks := fun _ => [0x7]
  bad := fun c _ => coreBad c
  run := fun c s =>
    let k := s.dev.physOf c.coreNum
    if bit (c.p 0) 2 then okR [] { s with dev := s.dev.coreClear k }
    else
      let s1 := toBoundary k 800000 s
      if s1.dev.coreState k ≠ CORE_RUN then okR [] s1
      else if (s1.core k).ctx.boundary then okR [] { s1 with dev := s1.dev.coreHalt k 5 }
      else noR .timeout { s1 with dev := s1.dev.coreClear k }

/-- CORE_STATUS: word 0 [1:0] core. The result: CR_MAP, the physical core, CR_CTRL, CR_STAT, the windows, CR_WDOG, CR_TIMER, CR_TCMP,
the 48 lines, the PC, TPC, TSR, TTGT, SPC, SSR, IPC2 and ISR2 while halted, and the tuckpointing record. -/
def coreStatusDef : CmdDef where
  op := 0x0904
  masks := fun _ => [0x3]
  bad := fun c _ => coreBad c
  run := onDev fun c s =>
    let d := s.dev
    let k := d.physOf c.coreNum
    let x := d.core k
    let halted := d.coreState k == CORE_HALTED
    let get := fun (r : Nat) => if halted then x.final (regKey (d.coreCs k) x.bank r) else 0
    let tuck := match d.tucks.find? fun t => t.l == c.coreNum with
      | some t => [1, t.src, t.dst, b2n t.kept, t.timeS % 2 ^ 32]
      | none => [0, 0, 0, 0, 0]
    okR ([d.rdN CR_MAP, k, regValue s (CR_CTRL k), regValue s (CR_STAT k)] ++ lohi (d.rdN (CR_WIN_X k)) ++ lohi (d.rdN (CR_WIN_Y k)) ++
      [d.rdN (CR_WDOG k)] ++ lohi (d.crTimer k) ++ lohi (d.rdN (CR_TCMP k)) ++ (List.range 48).map (fun l => d.rdN (CR_INT k l)) ++
      [if halted then x.ctx.pc else 0] ++ [RC_TPC, RC_TSR, RC_TTGT, RC_SPC, RC_SSR, RC_IPC2, RC_ISR2].map get ++ tuck) d

/-- CORE_TUCK: word 0 [1:0] core. -/
def coreTuckDef : CmdDef where
  op := 0x0905
  masks := fun _ => [0x3]
  bad := fun c _ => coreBad c
  run := onDev fun c s =>
    let d := s.dev
    checks [((d.core (d.physOf c.coreNum)).qhalt != 0 || (d.core (d.physOf 3)).qhalt != 0, .busy), (!d.reserveOk, .noResource)] d
      (asJob c d 0x0905 false)

/-- The work of a CORE_TUCK job. -/
def coreTuckWork (s : State) (i : Nat) : State × Option (Code × Nat) :=
  let l := (s.dev.job i).params.getD 0 0 % 4
  if s.dev.reserveOk then (tuckCore l s, some (.ok, 0)) else (s, some (.noResource, 0))

/-- Meaning of CORE_LOAD. -/
def execCoreLoad (slot : Nat) (s : State) : Host.Outcome State Fault Refusal := .next (serve coreLoadDef slot 0 0 s)

/-- Meaning of CORE_START. -/
def execCoreStart (slot : Nat) (s : State) : Host.Outcome State Fault Refusal := .next (serve coreStartDef slot 0 0 s)

/-- Meaning of CORE_STOP. -/
def execCoreStop (slot : Nat) (s : State) : Host.Outcome State Fault Refusal := .next (serve coreStopDef slot 0 0 s)

/-- Meaning of CORE_STATUS. -/
def execCoreStatus (slot : Nat) (s : State) : Host.Outcome State Fault Refusal := .next (serve coreStatusDef slot 0 0 s)

/-- Meaning of CORE_TUCK. -/
def execCoreTuck (slot : Nat) (s : State) : Host.Outcome State Fault Refusal := .next (serve coreTuckDef slot 0 0 s)

end Sys2Proof.Machine
end

