-- ==== Sys2Proof/Machine/Holdup.lean ====
section
/-!
DEFINITION. The hold-up check (16_power_and_startup R467, R468) and the records of the profile (R471).
-/
namespace Sys2Proof.Machine

/-- The test current in mA (SC_HU_CFG.I_L). -/
def Dev.huCurrent (d : Dev) : Nat := match d.f SC_HU_CFG SC_HU_CFG_I_L with | 0 => 25 | 1 => 50 | 2 => 100 | _ => 200

/-- A bank voltage in units of 1/256 µV from µV at HOLDUP_SENSE. -/
def Dev.huBank (d : Dev) (sense : Nat) : Nat := sense * max 256 (d.f SC_HU_CFG SC_HU_CFG_RATIO)

/-- The droop in the same units, at least 1 mV (R468). -/
def huDroop (u0 u1 : Nat) : Nat := max (u0 - u1) 256000

/-- The numerator of the energy estimate: E = this / (512 · 10^9 · droop) in mJ; zero when V1 does not exceed VMIN (R468). -/
def Dev.huNum (d : Dev) (u1 : Nat) : Nat :=
  let v := d.f SC_HU_CFG SC_HU_CFG_VMIN_MV * 256000
  if u1 ≤ v then 0 else d.huCurrent * (u1 * u1 - v * v)

/-- E_COMMIT in mJ, held within its limits. -/
def Dev.eCommit (d : Dev) : Nat := clampN 10 1000 (d.f SC_HU_CFG SC_HU_CFG_E_COMMIT_MJ)

/-- The bank holds enough for a commit, from the two voltages measured at HOLDUP_SENSE in µV. -/
def Dev.huPass (d : Dev) (s0 s1 : Nat) : Bool :=
  d.on SC_HU_CFG SC_HU_CFG_EN &&
    decide (d.eCommit * (512 * 10 ^ 9 * huDroop (d.huBank s0) (d.huBank s1)) ≤ d.huNum (d.huBank s1))

/-- The hold-up check (R468): its result is recorded in SC_HU_RES. -/
def Dev.huCheck (d : Dev) (s0 s1 : Nat) : Bool × Dev :=
  let u0 := d.huBank s0
  let u1 := d.huBank s1
  let ok := d.huPass s0 s1
  let res := if !d.on SC_HU_CFG SC_HU_CFG_EN then 3 else if ok then 1 else 2
  let v := min 0x3FFF (u1 / 256000) + min 0xFFFF ((u0 - u1) / 256) * 2 ^ 14 + res * 2 ^ 30 +
    min 0xFFFF (d.huNum u1 / (512 * 10 ^ 9 * huDroop u0 u1)) * 2 ^ 32
  (ok, { d.wrN SC_HU_RES v with pwr := { d.pwr with huAt := some d.now } })

/-- A command that asks for a commit and answers HOLDUP_LOW (R467): the check runs with the command; the change it made stays in
force, and a commit that fails the check sets ERR_SUM bit 5. -/
def Dev.commitNow (d : Dev) (why : CommitWhy) (s0 s1 : Nat) : Code × Dev :=
  let r := d.huCheck s0 s1
  if r.1 then (.ok, r.2.wantCommit why none true) else (.holdupLow, r.2.errSum 5)

/-! Profile records (R471). -/

/-- A record put into a profile: it replaces one that the test finds, and is appended otherwise. -/
def putRec (same : Nat × List Nat → Bool) (r : Nat × List Nat) (l : List (Nat × List Nat)) : List (Nat × List Nat) :=
  if l.any same then l.map fun x => if same x then r else x else l ++ [r]

/-- The setting of a record of which the profile holds one (Table 16.9, PERS_ASSIGN). -/
def Dev.putSetting (d : Dev) (op : Nat) (ps : List Nat) : Dev :=
  { d with ret := { d.ret with profile := putRec (fun r => r.1 == op) (op, ps) d.ret.profile } }

/-- Bytes of a profile: one word and its parameters for each record. -/
def profileBytes (l : List (Nat × List Nat)) : Nat := (l.map fun r => 4 + 4 * r.2.length).sum

/-- The words of a profile (R471). -/
def profileWords (l : List (Nat × List Nat)) : List Nat := l.flatMap fun r => (r.1 % 2 ^ 16 + r.2.length * 2 ^ 16) :: r.2

/-- Records read from words; none where they do not come out even. -/
def profileRecs : Nat → List Nat → Option (List (Nat × List Nat))
  | _, [] => some []
  | 0, _ => none
  | n + 1, w :: ws =>
    let k := bits w 31 16
    if ws.length < k then none else (profileRecs n (ws.drop k)).map fun r => (bits w 15 0, ws.take k) :: r

end Sys2Proof.Machine
end

