-- ==== Sys2Proof/Machine/LaneCmd.lean ====
section
/-!
DEFINITION. The lane commands (02_lanes_and_links R49, R50, R70, R78, R83 to R86).
-/
namespace Sys2Proof.Machine

/-! LANE_SET (R86). -/

/-- The lane mask in words w to w + 2. -/
def Cmd.laneMask (c : Cmd) (w : Nat) : Nat := c.q w + c.p (w + 2) % 2 ^ 16 * 2 ^ 64

/-- The lanes of a mask in ascending order. -/
def maskLanes (m : Nat) : List Nat := (List.range 80).filter fun n => bit m n

/-- The fields of LANE_SET other than those of one lane. -/
structure LaneSet where
  func : Nat
  rate : Nat
  pll : Nat
  rxEn : Bool
  txEn : Bool
  split : Nat
  txpre : Nat
  dev : Nat
  link : Nat
  fmt : Nat
  win : Nat

/-- The common fields of a LANE_SET (Table 2.13). -/
def laneSetOf (c : Cmd) : LaneSet where
  func := c.b 3 3 0
  rate := c.b 3 7 4
  pll := c.b 3 8 8
  rxEn := bit (c.p 3) 9
  txEn := bit (c.p 3) 10
  split := c.b 3 11 11
  txpre := c.b 3 15 12
  dev := c.b 4 15 0
  link := c.b 4 23 16
  fmt := c.b 4 27 24
  win := c.b 5 11 0 + c.b 5 27 16 * 2 ^ 12 + c.b 6 15 0 * 2 ^ 24 + c.b 6 31 16 * 2 ^ 40

/-- The state a receiver takes when it is configured: OFF, or DETECT when it is enabled, or LOWPOWER while LP is set. -/
def Dev.startState (d : Dev) (n : Nat) (x : LaneSet) : Nat :=
  if x.func = 0 ∨ !x.rxEn then LST_OFF else if d.on (LN_CTRL n) LN_CTRL_LP then LST_LOWPOWER else LST_DETECT

/-- One lane configured; `src`, `rxInv` and `txInv` are its own fields. -/
def Dev.setupLane (d : Dev) (n : Nat) (x : LaneSet) (src rxInv txInv : Nat) : Dev :=
  let keep := d.f (LN_CTRL n) LN_CTRL_GROUP * 2 ^ 16 + d.f (LN_CTRL n) LN_CTRL_LP * 2 ^ 13
  let ctrl := x.func + x.rate * 2 ^ 4 + x.pll * 2 ^ 8 + rxInv * 2 ^ 9 + txInv * 2 ^ 10 + b2n x.rxEn * 2 ^ 11 + b2n x.txEn * 2 ^ 12 +
    x.split * 2 ^ 14 + x.txpre * 2 ^ 24 + keep
  let d1 := ((d.wrN (LN_CTRL n) ctrl).wrN (LN_ACC n) (x.dev + x.link * 2 ^ 16 + src * 2 ^ 24 + x.fmt * 2 ^ 32)).wrN (LN_WIN n) x.win
  let d2 := ((d1.setF (LN_STAT n) LN_STAT_ORDER 0).setF (LN_STAT n) LN_STAT_POL_DET 0).laneMove n (d1.startState n x)
  let sp := d2.ret.spare
  let d3 := { d2 with ret := { d2.ret with spare := { sp with lanes := sp.lanes.filter (· != n) } } }
  d3.setLane n { d3.lane n with tracks := [], rxFailed := false, txFailed := false, txIdle := d3.on (LN_CTRL n) LN_CTRL_LP, adapted := false,
                                retrains := [], lostAt := none }

/-- Base rates for the PLL named, in every lane group the mask touches, with the lanes already on it: none when a group admits
none (R49). -/
def Dev.pllPlan (d : Dev) (ns : List Nat) (x : LaneSet) : Option (List (Nat × Nat)) :=
  ((List.range 10).filter fun g => ns.any fun n => n / 8 == g).mapM fun g =>
    let new := if x.func = 0 then [] else (ns.filter fun n => n / 8 == g).map fun _ => rateUnits x.rate
    (pllFor (d.pllBase g x.pll) (d.pllLoad g x.pll ns ++ new)).map fun b => (g, b)

/-- LANE_SET. -/
def laneSetDef : CmdDef where
  op := 0x0301
  masks := fun _ => [0xFFFFFFFF, 0xFFFFFFFF, 0xFFFF, 0xFFFF, 0x0FFFFFFF, 0x0FFF0FFF, 0xFFFFFFFF, 0xFFFFFFFF, 0xFFFFFFFF, 0xFFFFFFFF, 0xFFFFFFFF,
    0xFFFFFFFF]
  bad := fun c s =>
    let ns := maskLanes (c.laneMask 0)
    let x := laneSetOf c
    ns.isEmpty || ns.length > 16 || !rateOk x.func x.rate || (x.func == 4 && !s.dev.compat)
  run := onDev fun c s =>
    let d := s.dev
    let ns := maskLanes (c.laneMask 0)
    let x := laneSetOf c
    if ns.any d.laneUsed then noR .badState d
    else if ns.any (fun n => d.claimed n || (d.compat && n < 68)) then noR .noResource d
    else match d.pllPlan ns x with
    | none => noR .noResource d
    | some bs =>
      let d1 := bs.foldl (fun (e : Dev) b => e.setPll b.1 x.pll b.2) d
      okR [] (ns.zipIdx.foldl
        (fun (e : Dev) q => e.setupLane q.1 x (c.b (7 + q.2 / 4) (8 * (q.2 % 4) + 7) (8 * (q.2 % 4))) (c.b 11 q.2 q.2) (c.b 11 (16 + q.2) (16 + q.2))) d1)

/-! LANE_STATUS and LANE_POWER. -/

/-- The report on a lane's link: 0 in order, 1 reversed, 2 permuted (R63). -/
def Dev.linkReport (d : Dev) (n : Nat) : Nat :=
  let ns := (List.range 80).filter fun m => d.laneFunc m == 1 && d.on (LN_CTRL m) LN_CTRL_RX_EN && d.linkOf m == d.linkOf n
  if !(ns.any fun m => d.on (LN_STAT m) LN_STAT_ORDER) then 0
  else if ns.map (fun m => d.f (LN_STAT m) LN_STAT_SRC_LANE) = (ns.map fun m => d.f (LN_ACC m) LN_ACC_EXP_SRC_LANE).reverse then 1 else 2

/-- LANE_STATUS: word 0 [7:0] the lane (log entry 8). -/
def laneStatusDef : CmdDef where
  op := 0x0302
  masks := fun _ => [0xFF]
  bad := fun c _ => c.p 0 ≥ 80
  run := onDev fun c s =>
    let d := s.dev
    let n := c.p 0
    okR (([LN_CTRL n, LN_STAT n, LN_ACC n, LN_WIN n] ++ laneCounters n).flatMap (fun a => lohi (d.rdN a)) ++
      [d.linkReport n, b2n ((d.rxGroup n).any fun g => g.skew)]) d

/-- LANE_POWER: words 0 to 2 the mask, word 3 [0] 1 enters LOWPOWER, 0 leaves it (log entry 8). -/
def lanePowerDef : CmdDef where
  op := 0x0303
  masks := fun _ => [0xFFFFFFFF, 0xFFFFFFFF, 0xFFFF, 1]
  bad := fun c _ => (maskLanes (c.laneMask 0)).isEmpty
  run := onDev fun c s =>
    let d := s.dev
    let ns := maskLanes (c.laneMask 0)
    if bit (c.p 3) 0 then okR [] (ns.foldl (fun (e : Dev) n => (e.setF (LN_CTRL n) LN_CTRL_LP 1).enterLow n) d)
    else
      asJob c d (0x0303 + 0x1000000 * d.jobSeq) false fun i e =>
        let e1 := ns.foldl (fun (e : Dev) n => (e.setF (LN_CTRL n) LN_CTRL_LP 0).exitLow n (some i)) e
        if ns.any fun n => (e1.lane n).exitJob == some i then e1 else e1.endJob i .ok 0

/-! EYE_SCAN (R84). -/

/-- EYE_SCAN: an empty or oversized grid, a step of zero or an offset out of range is refused. -/
def eyeScanDef : CmdDef where
  op := 0x0304
  masks := fun _ => [0x000F03FF, 0x00FFFFFF, 0x00FFFFFF]
  bad := fun c _ =>
    let h0 := sext 8 (c.b 1 7 0)
    let h1 := sext 8 (c.b 1 15 8)
    let v0 := sext 8 (c.b 2 7 0)
    let v1 := sext 8 (c.b 2 15 8)
    let hs := c.b 1 23 16
    let vs := c.b 2 23 16
    c.b 0 7 0 ≥ 80 || c.b 0 9 8 == 3 || hs == 0 || hs > 127 || vs == 0 || vs > 254 || decide (h0 > h1 ∨ v0 > v1) || decide (h0 < -64 ∨ h1 > 63) ||
      decide (v0 < -127 ∨ v1 > 127) || decide (((h1 - h0).toNat / hs + 1) * ((v1 - v0).toNat / vs + 1) > 65536)
  run := onDev fun c s => asJob c s.dev (0x030400 + c.b 0 7 0) true

/-! PRBS and ERR_INJECT (R78, R79). -/

/-- PRBS: word 0 [6:0] lane; word 1 [3:0] GEN_PAT, [4] GEN_EN, [11:8] CHK_PAT, [12] CHK_EN; words 2 and 3 the user pattern
(log entry 8). Answers errors and bits; CLEAR clears them. -/
def prbsDef : CmdDef where
  op := 0x0305
  masks := fun _ => [0x7F, 0x1F1F, 0xFFFFFFFF, 0xFFFFFFFF]
  bad := fun c _ => c.p 0 ≥ 80 || c.b 1 3 0 > 11 || c.b 1 11 8 > 11
  run := onDev fun c s =>
    let d := s.dev
    let n := c.p 0
    if bit (c.p 1) 4 && d.laneUsed n && !c.force then noR .badState d
    else
      let d1 := ((((d.setF (LN_PRBS n) LN_PRBS_GEN_PAT (c.b 1 3 0)).setF (LN_PRBS n) LN_PRBS_GEN_EN (c.b 1 4 4)).setF (LN_PRBS n) LN_PRBS_CHK_PAT
        (c.b 1 11 8)).setF (LN_PRBS n) LN_PRBS_CHK_EN (c.b 1 12 12)).wrN (LN_PRBS_USR n) (c.q 2)
      let d2 := if bit (c.p 1) 12 then d1 else d1.setF (LN_PRBS n) LN_PRBS_CHK_LOCK 0
      okR (lohi (d.rdN (LN_PRBS_ERR n)) ++ lohi (d.rdN (LN_PRBS_BITS n)))
        (if c.clear then (d2.wrN (LN_PRBS_ERR n) 0).wrN (LN_PRBS_BITS n) 0 else d2)

/-- ERR_INJECT: word 0 [6:0] lane, [10:8] form (1 PRBS bits, 2 FEC symbols, 3 HCRC, 4 PCRC), [12:11] INJ_MODE, [17:13] INJ_LOG2; word 1
[4:0] the symbols (log entry 8). -/
def errInjectDef : CmdDef where
  op := 0x0306
  masks := fun _ => [0x3FF7F, 0x1F]
  bad := fun c _ =>
    c.b 0 6 0 ≥ 80 || c.b 0 10 8 < 1 || c.b 0 10 8 > 4 || (c.b 0 10 8 == 1 && (c.b 0 12 11 == 3 || c.b 0 17 13 < 10)) ||
      (c.b 0 10 8 == 2 && (c.p 1 < 1 || c.p 1 > 30))
  run := onDev fun c s =>
    let d := s.dev
    let n := c.b 0 6 0
    if d.laneUsed n && !c.force then noR .badState d
    else if c.b 0 10 8 = 1 then
      okR [] (((d.setF (LN_PRBS n) LN_PRBS_INJ_MODE (c.b 0 12 11)).setF (LN_PRBS n) LN_PRBS_INJ_LOG2 (c.b 0 17 13)).injGo n)
    else okR [] (d.setLane n { d.lane n with inj := c.b 0 10 8, injSyms := c.p 1 })

/-! LANE_GROUP (R67, R69). -/

/-- LANE_GROUP: word 0 [5:0] group, [7:6] 0 define, 1 delete, 2 tuckpoint, [8] transmit side, [15:9] parity lane, [18:16] position to
tuckpoint; words 1 to 3 the data lanes; words 4 and 5 the SPN (log entry 8). -/
def laneGroupDef : CmdDef where
  op := 0x0307
  masks := fun _ => [0x7FFFF, 0xFFFFFFFF, 0xFFFFFFFF, 0xFFFF]
  bad := fun c s =>
    let d := s.dev
    let id := c.b 0 5 0
    let tx := bit (c.p 0) 8
    let par := c.b 0 15 9
    let ns := maskLanes (c.laneMask 1)
    let old := d.lgroups.find? fun g => g.id == id && g.tx == tx
    id ≥ 40 || c.b 0 7 6 == 3 ||
      (c.b 0 7 6 == 0 && (ns.length < 2 || ns.length > 7 || par ≥ 80 || ns.contains par ||
        !((par :: ns).all fun n => d.laneFunc n == 1 && d.f (LN_CTRL n) LN_CTRL_RATE == d.f (LN_CTRL par) LN_CTRL_RATE && (!tx || n / 8 == par / 8)) ||
        d.lgroups.any fun g => g.tx == tx && g.id != id && (par :: ns).any g.lanes.contains)) ||
      (c.b 0 7 6 == 1 && old.isNone) ||
      (c.b 0 7 6 == 2 && (!tx || (match old with | some g => decide (g.data.length ≤ c.b 0 18 16) || g.moved.isSome | none => true)))
  run := onDev fun c s =>
    let d := s.dev
    let id := c.b 0 5 0
    let tx := bit (c.p 0) 8
    let ns := maskLanes (c.laneMask 1)
    let rest := d.lgroups.filter fun g => !(g.id == id && g.tx == tx)
    let mark := fun (e : Dev) (xs : List Nat) (v : Nat) => xs.foldl (fun (e : Dev) n => e.setF (LN_CTRL n) LN_CTRL_GROUP v) e
    let old := (d.lgroups.find? fun g => g.id == id && g.tx == tx).map LGroup.lanes
    let d1 := mark d (old.getD []) 0xFF
    match c.b 0 7 6 with
    | 0 => okR [] (mark { d1 with lgroups := rest ++ [{ id := id, tx := tx, data := ns, parity := c.b 0 15 9 }] } (c.b 0 15 9 :: ns) id)
    | 1 => okR [] { d1 with lgroups := rest }
    | _ => okR [] { d with lgroups := d.lgroups.map fun g => if g.id == id && g.tx == tx then { g with tuck := some (c.b 0 18 16, c.q 4) } else g }

/-! JESD_LINK and JESD_ALIGN (R70, R73). -/

/-- JESD_LINK: word 0 [7:0] link, [8] delete, [10:9] subclass, [11] internal SYSREF; words 1 to 3 the lanes; word 4 M, N, N′, S a byte each;
word 5 [7:0] CS, [15:8] E, [31:16] RBD (log entry 8). -/
def jesdLinkDef : CmdDef where
  op := 0x0308
  mode := 1
  masks := fun _ => [0xFFF, 0xFFFFFFFF, 0xFFFFFFFF, 0xFFFF]
  bad := fun c s =>
    let ns := maskLanes (c.laneMask 1)
    let n := c.b 4 15 8
    let np := c.b 4 23 16
    let e := c.b 5 15 8
    c.b 0 7 0 ≥ 80 ||
      (!bit (c.p 0) 8 && (c.b 0 10 9 > 1 || ns.isEmpty || ns.length > 8 || ns.any (fun k => k / 8 != ns.headD 0 / 8 || s.dev.laneFunc k != 3) ||
        ns.any (fun k => (s.dev.jlinksOf k).any fun x => x.1 != c.b 0 7 0) || c.b 4 7 0 < 1 || c.b 4 7 0 > 32 || n < 8 || n > 16 ||
        !(np == 8 || np == 12 || np == 16) || n > np || c.b 4 31 24 < 1 || c.b 4 31 24 > 32 || c.b 5 7 0 > 3 || e < 1 || e > 32 ||
        c.b 5 31 16 > 32 * e - 1))
  run := onDev fun c s =>
    let d := s.dev
    let k := c.b 0 7 0
    if bit (c.p 0) 8 then okR [] (d.setJlink k none)
    else
      let j : Jesd := { lanes := maskLanes (c.laneMask 1), subclass := c.b 0 10 9, m := c.b 4 7 0, n := c.b 4 15 8, np := c.b 4 23 16, s := c.b 4 31 24,
                        cs := c.b 5 7 0, e := c.b 5 15 8, rbd := c.b 5 31 16, internal := bit (c.p 0) 11 }
      okR [] (d.setJlink k (some j))

/-- JESD_ALIGN: word 0 [7:0] link, [8] continuous (log entry 8); the job ends when the first edge is accepted, or TIMEOUT. -/
def jesdAlignDef : CmdDef where
  op := 0x0309
  mode := 1
  masks := fun _ => [0x1FF]
  bad := fun c s => (match s.dev.jlink (c.b 0 7 0) with | some j => j.subclass != 1 | none => true)
  run := onDev fun c s =>
    let d := s.dev
    let k := c.b 0 7 0
    match d.jlink k with
    | none => noR .badParam d
    | some j =>
      asJob c d (0x030900 + k) false fun i e =>
        e.setJlink k (some { j with cont := bit (c.p 0) 8, armed := some e.now, armJob := some i, aligned := false, misalign := false, fault := false })

/-- Meanings of the lane commands. -/
def execLaneSet (slot : Nat) (s : State) : Host.Outcome State Fault Refusal := .next (serve laneSetDef slot 0 0 s)
def execLaneStatus (slot : Nat) (s : State) : Host.Outcome State Fault Refusal := .next (serve laneStatusDef slot 0 0 s)
def execLanePower (slot : Nat) (s : State) : Host.Outcome State Fault Refusal := .next (serve lanePowerDef slot 0 0 s)
def execEyeScan (slot : Nat) (s : State) : Host.Outcome State Fault Refusal := .next (serve eyeScanDef slot 0 0 s)
def execPrbs (slot : Nat) (s : State) : Host.Outcome State Fault Refusal := .next (serve prbsDef slot 0 0 s)
def execErrInject (slot : Nat) (s : State) : Host.Outcome State Fault Refusal := .next (serve errInjectDef slot 0 0 s)
def execLaneGroup (slot : Nat) (s : State) : Host.Outcome State Fault Refusal := .next (serve laneGroupDef slot 0 0 s)
def execJesdLink (slot : Nat) (s : State) : Host.Outcome State Fault Refusal := .next (serve jesdLinkDef slot 0 0 s)
def execJesdAlign (slot : Nat) (s : State) : Host.Outcome State Fault Refusal := .next (serve jesdAlignDef slot 0 0 s)

end Sys2Proof.Machine
end

