-- ==== Sys2Proof/Machine/Compat.lean ====
section
/-!
DEFINITION. DC-512 compatibility mode: the personalities, their frames, dumps and commands, and the internal run that serves them
(15_dc512_compatibility).
-/
namespace Sys2Proof.Machine

/-! Dumps (R439 to R442). -/

/-- Spectra of a dump (R440). -/
def dumpSpan (k : Nat) : Nat := 4096 * 2 ^ k

/-- Packets of a dump of n channels: 129 a channel (R442). -/
def persPackets (n : Nat) : Nat := 129 * n

/-- A dump is done: what it lost is in its record, DC_DUMPS counts it when all its packets have had their turn, and PKT_COUNT has
passed every packet of it (R442). -/
def Dev.persDone (d : Dev) (p : Nat) (o : PDump) : Dev :=
  let x := d.per p
  let left := persPackets x.nch - o.next
  let l : PLog := { c0 := o.c0, k := o.k, lost := o.lost + left, acct := o.acct }
  let d1 := d.setPer p { x with out := none, pkt := (x.pkt + left) % 2 ^ 32, log := l :: x.log }
  if left ≠ 0 then d1
  else
    let d2 := d1.wrN (DC_DUMPS p) ((d1.rdN (DC_DUMPS p) + 1) % 2 ^ 32)
    if bit (d2.rdN (DC_IRQ_EN p)) 1 then d2.emit .msix (8 * (p + 1) + 1) [] else d2

/-- A dump still being sent is cut off. -/
def Dev.persCut (d : Dev) (p : Nat) : Dev := match (d.per p).out with | some o => d.persDone p o | none => d

/-- The exact value of a component of a long accumulator, none for a poisoned or scorched one. -/
def compVal (hi lo : Nat) : Option Int := if hi == NAN_POISON || hi == NAN_SCORCH then none else some (f32Int hi + f32Int lo)

/-- A value added to a 32-bit sum that wraps (R440). -/
def add32 (t : Tbl Nat) (k : Nat) (v : Int) : Tbl Nat :=
  let o : Nat := tget (fun _ => 0) t k
  tset (fun _ => 0) t k (wrapN 32 ((o : Int) + v))

/-- The products of a batch added to a personality's integration (R439 to R441). -/
def Dev.persAdd (d : Dev) (u : Dump) (x : Pers) : Pers :=
  let n := u.par.prods
  (List.range (x.nch * n)).foldl
    (fun (y : Pers) i =>
      let a := (d.run.dumpProd u (x.chan0 + i / n) (i % n)).1
      match compVal a.reHi a.reLo, compVal a.imHi a.imLo with
      | some re, some im => { y with re := add32 y.re i re, im := add32 y.im i im }
      | _, _ => { y with bad := tset (fun _ => false) y.bad i true }) x

/-- The accounting of a batch added to that of the integration (R439). -/
def Dev.persAcct (d : Dev) (u : Dump) (x : Pers) : List Acct :=
  let n := u.par.n
  (List.range (x.nch * n)).map fun i =>
    let a := d.run.acctOf u.start u.stop none (x.chan0 + i / n) (i % n)
    let b := x.acct.getD i {}
    { received := a.received + b.received, substituted := a.substituted + b.substituted,
      correlated := a.correlated + b.correlated, skipped := a.skipped + b.skipped }

/-- The end of a dump: a stop takes effect, or the dump closes and a new exponent comes into force (R440). -/
def Dev.persBoundary (d : Dev) (p stop : Nat) : Dev :=
  let d0 := d.persCut p
  let x := d0.per p
  let y : Pers := { x with start := none, re := [], im := [], bad := [], acct := [] }
  if x.stopping then d0.setPer p { y with running := false, stopping := false }
  else
    let k := x.nextK.getD x.k
    let z : Pers := { y with k := k, nextK := none, first := ceilDiv stop (dumpSpan k) * dumpSpan k }
    match x.start with
    | some c0 => d0.setPer p { z with out := some { c0 := c0, k := x.k, re := x.re, im := x.im, bad := x.bad, acct := x.acct } }
    | none => d0.setPer p z

/-- One batch of the internal run handed to a personality. -/
def Dev.persBatch (d : Dev) (u : Dump) (p : Nat) : Dev :=
  let x := d.per p
  let spn := u.par.s0 + u.start * u.par.t
  if !x.en || !x.running || decide (spn < x.base) then d
  else
    let c := spn - x.base
    let span := dumpSpan x.k
    let begins := decide (x.first ≤ c) && c % span == 0 && !x.stopping
    let y : Pers := if begins then { x with start := some c, re := [], im := [], bad := [], acct := [] } else x
    let z := if y.start.isSome then { d.persAdd u y with acct := d.persAcct u y } else y
    let d1 := d.setPer p z
    if (c + 4096) % span = 0 then d1.persBoundary p (c + 4096) else d1

/-- No personality runs: the internal run ends at the next batch boundary (R435). -/
def Dev.persIdle (d : Dev) : Dev :=
  if d.run.active && [0, 1, 2, 3].all (fun p => !(d.per p).running) && d.run.stopAt.isNone then
    { d with run := { d.run with stopAt := some d.run.closed } }
  else d

/-- In compatibility mode the personalities take each batch that promotion closes. -/
def Dev.persCollect (d : Dev) : Dev :=
  if !d.compat then d
  else
    let d1 := d.run.dumps.foldl (fun (e : Dev) u => [0, 1, 2, 3].foldl (fun (e : Dev) p => e.persBatch u p) e) d
    ({ d1 with run := { d1.run with dumps := [] } } : Dev).persIdle

/-- Meaning of CHUNK_PROMOTE: the chunk, any peek it completes, and the personalities. -/
def execChunkPromote (s : State) : Host.Outcome State Fault Refusal :=
  let s1 := chunkStep s
  .next { s1 with dev := s1.dev.persCollect }

/-! Output (R442). -/

/-- The UDP payload of packet `part` of a channel of a dump (Table 15.3). -/
def PDump.payload (o : PDump) (pkt ch part unit : Nat) : List Nat :=
  let n := if part < 128 then 1024 else 256
  leBytes 4 pkt ++ leBytes 4 o.c0 ++ leBytes 2 ch ++ leBytes 2 part ++ leBytes 2 n ++ [o.k, unit % 256] ++ List.replicate 16 0 ++
    (List.range n).flatMap fun i =>
      let key := 131328 * ch + 1024 * part + i
      if tget (fun _ => false) o.bad key then leBytes 4 0x80000000 ++ leBytes 4 0x80000000
      else leBytes 4 (tget (fun _ => 0) o.re key) ++ leBytes 4 (tget (fun _ => 0) o.im key)

/-- A personality's next packet leaves its output lane, or is discarded while the link is down. What goes out is the destination MAC,
source and destination address, the two ports and the UDP payload. -/
def Dev.persSend (d : Dev) (p : Nat) : Dev :=
  let x := d.per p
  match x.out with
  | none => d
  | some o =>
    let body := o.payload x.pkt (o.next / 129) (o.next % 129) x.unit
    let d1 := if x.link then d.emit .dc512 p (leBytes 6 x.mac ++ leBytes 4 x.src ++ leBytes 4 x.dst ++ leBytes 4 x.ports ++ body) else d
    let o1 := { o with next := o.next + 1, lost := o.lost + b2n (!x.link) }
    let d2 := d1.setPer p { x with out := some o1, pkt := (x.pkt + 1) % 2 ^ 32 }
    if o1.next ≥ persPackets x.nch then d2.persDone p o1 else d2

/-! Frames (R436 to R438). -/

/-- CRC-32 of IEEE 802.3. -/
def crc32 (bs : List Nat) : Nat := crc 32 0x04C11DB7 0xFFFFFFFF 0xFFFFFFFF true true bs

/-- The 64-bit counter of a 32-bit one: the value nearest the expected counter (R438). -/
def Dev.counter64 (d : Dev) (p v : Nat) : Int :=
  let e : Int := (d.expSpn : Int) - (d.per p).base
  e + serialDiff v (wrapN 32 e) 32

/-- DC512_FRAME_RECEIVED: a frame on a lane of an enabled personality. -/
def Dev.dcFrame (d : Dev) (lane : Nat) (b : List Nat) : Dev :=
  let p := lane / 16
  let x := d.per p
  if !d.compat ∨ lane ≥ 64 ∨ !x.en ∨ d.laneFunc lane ≠ 4 then d
  else if b.length ≠ 268 ∨ crc32 (b.take 264) ≠ at' b 264 4 then d.cnt (LN_PCRC_ERR lane) 1
  else if at' b 0 4 % 8 ≠ 0 then d.cnt (LN_FMT_ERR lane) 1
  else if at' b 4 2 ≥ x.nch ∨ at' b 6 1 > 15 then d.cnt (LN_ID_RANGE lane) 1
  else
    let l := at' b 6 1
    let c := d.counter64 p (at' b 0 4)
    let d1 := d.cnt (LN_FRAMES_OK lane) 1
    let d2 := if l ≠ lane % 16 then d1.setF (LN_STAT lane) LN_STAT_ORDER 1 else d1
    let spn := ((x.base : Int) + c).toNat
    let r := d2.align false spn (32 * l) 5 (x.chan0 + at' b 4 2) 0 ((b.drop 8).take 256)
    let d3 := r.1.alignCounts lane r.2
    let top := max (x.newest.getD 0) (c + 7).toNat
    (d3.setPer p { d3.per p with newest := some top }).wrN (DC_COUNTER p) (top % 2 ^ 32)

/-- Meaning of DC512_FRAME_RECEIVED. -/
def execDc512FrameReceived (lane : Nat) (bytes : List Nat) (s : State) : Host.Outcome State Fault Refusal :=
  nextDev s (s.dev.dcFrame lane bytes)

/-! The internal run (R435). -/

/-- The channels of the enabled personalities. -/
def Dev.persNch (d : Dev) : Nat := ([0, 1, 2, 3].map fun p => if (d.per p).en then (d.per p).nch else 0).sum

/-- The RUN_START that firmware would give itself: Np 512, C4, T 4,096, W 1,024, integers, audit on, from spectrum s0. -/
def Dev.persCmd (d : Dev) (nch s0 : Nat) : Cmd :=
  { slot := 33, op := 0x0507, noIrq := true, force := false, clear := false, rdest := false, rsv := 0, seq := 0, ext := 0, s0 := 0, s1 := 0,
    ps := [512 + 2 ^ 14, nch, 0, 15 + 3 * 2 ^ 8 + 2 * 2 ^ 16 + 9 * 2 ^ 18] ++ lohi s0 ++ lohi (d.persRun.getD 0 1) ++
      lohi (d.persRun.getD 1 0) ++ [d.persRun.getD 2 0, 1] }

/-- The plan of the internal run, and the cycles of a spectrum. -/
def Dev.persPlan (d : Dev) (nch period : Nat) : Plan × Nat :=
  let mhz := d.f TIM_CLK TIM_CLK_TCLK_MHZ
  let avail := mhz * period / (2 ^ 16 * 10 ^ 6)
  (planOf 512 false nch 0 avail mhz d.lanePayload, avail)

/-- The internal run can be served: its cycles with the margin of R435, its regions and its traffic (R48). -/
def Dev.persFits (d : Dev) (nch period : Nat) : Bool :=
  nch == 0 ||
    let pl := d.persPlan nch period
    let p : RunPar := { runPar (d.persCmd nch 0) with period := period, k := max pl.1.k 1, c := pl.1.c, cLast := pl.1.cLast }
    pl.1.k != 0 && decide (16 * pl.1.need ≤ pl.2) && decide (regionMib (runRegions p 1) ≤ d.hbmMib) && d.demandOk (d.demand p 1)

/-- The internal run starts: at the next batch boundary of the common grid. -/
def persRunStart (s : State) : State :=
  let d := s.dev
  if d.run.active then { s with dev := { d with run := { d.run with stopAt := none } } }
  else
    let nch := d.persNch
    let p0 := runPar (d.persCmd nch 0)
    let e := ({ d with run := { d.run with par := p0 } } : Dev).expSpn
    let c := d.persCmd nch ((e / 4096 + 1) * 4096)
    let pl := (d.persPlan nch p0.period).1
    let p := { runPar c with k := max pl.k 1, c := pl.c, cLast := pl.cLast }
    let s1 := drainRun (d.run.mortar.length + d.run.promq.length) s
    { s1 with dev := (s1.dev.persCollect).runBegin c p pl.depth }

/-! Slots (R444). -/

/-- The number of a personality's slot in the order of doorbells. -/
def dcSlot (p k : Nat) : Nat := 64 + 8 * p + k

/-- Word w of a slot. -/
def Dev.dcWord (d : Dev) (p k w : Nat) : Nat := d.rdN (DC_SLOT p (16 * k + w))

/-- A write of a personality's BAR0 other than of its doorbell (Table 15.4, R362): a slot that the device owns takes none. -/
def Dev.dcWrite (d : Dev) (p off v : Nat) : Dev :=
  if off = 0x0C then d.wrN (DC_DONE p) (d.rdN (DC_DONE p) &&& (0xFFFFFFFF ^^^ v))
  else if off = 0x10 then d.wrN (DC_IRQ_EN p) (v % 4)
  else if 0x100 ≤ off ∧ off < 0x300 ∧ off % 4 = 0 then
    if bit (d.rdN (DC_DOORBELL p)) ((off - 0x100) / 0x40) then
      (d.cntF HI_CNT HI_CNT_MB_VIOL 1).raise 0x1001 (8 * (p + 1) + (off - 0x100) / 0x40) off 0
    else d.wrN (DC_SLOT p ((off - 0x100) / 4)) (v % 2 ^ 32)
  else d

/-- A write of DC_DOORBELL (R363): each bit that reads 0 hands its slot over, and each that reads 1 counts in DB_IGN. -/
def Dev.dcDoorbell (d : Dev) (p v : Nat) : Dev :=
  let own := d.rdN (DC_DOORBELL p)
  let new := (List.range 8).filter fun k => bit v k && !bit own k
  let ign := (List.range 8).countP fun k => bit v k && bit own k
  let d1 := d.wrN (DC_DOORBELL p) (own ||| v % 256)
  let d2 := { d1 with host := { d1.host with fwq := d1.host.fwq ++ new.map (dcSlot p) } }
  if ign = 0 then d2 else d2.cntF HI_CNT HI_CNT_DB_IGN ign

/-- DC512_DOORBELL: writes of BAR0, offset and value, then the doorbell. -/
def execDc512Doorbell (pers v : Nat) (writes : List (Nat × Nat)) (s : State) : Host.Outcome State Fault Refusal :=
  nextDev s (if !s.dev.compat || pers ≥ 4 then s.dev
    else (writes.foldl (fun (e : Dev) w => e.dcWrite pers w.1 w.2) s.dev).dcDoorbell pers v)

/-- Status codes of a slot. -/
def DC_OK : Nat := 0x00
def DC_BAD_CMD : Nat := 0x01
def DC_BAD_PARAM : Nat := 0x02
def DC_BUSY : Nat := 0x03
def DC_RATE : Nat := 0x06

/-- A slot released with a status and result words. -/
def Dev.dcRelease (d : Dev) (p k status : Nat) (res : List Nat) : Dev :=
  let w := d.dcWord p k 0
  let d1 := (d.wrN (DC_SLOT p (16 * k)) (w % 2 ^ 24 + status * 2 ^ 24)).wrWords (DC_SLOT p (16 * k + 1)) (res.take 15)
  let d2 := (d1.wrN (DC_DOORBELL p) (d1.rdN (DC_DOORBELL p) &&& (0xFF ^^^ 2 ^ k))).wrN (DC_DONE p) (d1.rdN (DC_DONE p) ||| 2 ^ k)
  let d3 := { d2 with host := { d2.host with fwq := d2.host.fwq.filter (· != dcSlot p k) } }
  if bit (d3.rdN (DC_IRQ_EN p)) 0 then d3.emit .msix (8 * (p + 1)) [] else d3

/-- Firmware takes up a personality's slot when it is the next one and holds this command word: the effect answers a status and
result words. -/
def serveDc (op p k : Nat) (run : State → (Nat × List Nat) × State) (s : State) : State :=
  if s.dev.compat && p < 4 && k < 8 && s.dev.host.fwq.head? == some (dcSlot p k) && s.dev.dcWord p k 0 % 2 ^ 16 == op &&
      (s.dev.per p).en && s.dev.serving && !s.dev.fwStuck then
    let r := run s
    { r.2 with dev := r.2.dev.dcRelease p k r.1.1 r.1.2 }
  else s

/-- A command that only changes the device. -/
def onPers (f : Dev → (Nat × List Nat) × Dev) (s : State) : (Nat × List Nat) × State := ((f s.dev).1, { s with dev := (f s.dev).2 })

/-- The context of a personality's bank changed. -/
def Dev.setPersCtx (d : Dev) (p : Nat) (f : RCtx → RCtx) : Dev :=
  let c := d.physOf (1 + p / 2)
  let x := d.core c
  d.setCore c (if x.bank = p % 2 then { x with ctx := f x.ctx } else { x with alt := f x.alt })

/-- RESET (Table 15.5). -/
def Dev.persReset (d : Dev) (p : Nat) : Dev :=
  let d1 := (d.persCut p).setPersCtx p fun t => { t with runs := false }
  let x := d1.per p
  (d1.setPer p { x with running := false, stopping := false, start := none, re := [], im := [], bad := [], acct := [], k := 0, nextK := none,
                        first := 0, mac := 0, src := 0, dst := 0, ports := 0, unit := 0, fault := false }).persIdle

/-- The dump rate on the wire exceeds 9.9 Gb/s (R442). -/
def Dev.persRateBad (d : Dev) (p : Nat) : Bool :=
  let x := d.per p
  let bitsPerDump := x.nch * (128 * (8252 + 38) + 2108 + 38) * 8
  decide (bitsPerDump * 10000 * 2 ^ 16 > 99 * (dumpSpan x.k * d.persRun.getD 0 1))

/-- START (R440): from the first dump boundary at or after the counter named. -/
def persStart (p v : Nat) (s : State) : (Nat × List Nat) × State :=
  if s.dev.persRateBad p then ((DC_RATE, []), s)
  else
    let s1 := persRunStart s
    let x := s1.dev.per p
    let c := (s1.dev.counter64 p v).toNat
    let y : Pers := { x with running := true, stopping := false, start := none, re := [], im := [], bad := [], acct := [],
                             first := ceilDiv c (dumpSpan x.k) * dumpSpan x.k }
    ((DC_OK, []), { s1 with dev := s1.dev.setPer p y })

/-- STOP (R440): the partial integration is discarded. -/
def Dev.persStop (d : Dev) (p : Nat) : Dev :=
  let x := d.per p
  if x.running then d.setPer p { x with stopping := true, start := none, re := [], im := [], bad := [], acct := [] } else d

/-- SET_DUMP (R440): at the next boundary of the old exponent while the personality runs. -/
def Dev.persSetDump (d : Dev) (p k : Nat) : (Nat × List Nat) × Dev :=
  let x := d.per p
  if k > 15 then ((DC_BAD_PARAM, []), d)
  else ((DC_OK, []), d.setPer p (if x.running then { x with nextK := some k } else { x with k := k }))

/-- SET_OUTPUT: words 1 and 2 the MAC, 3 and 4 the addresses, 5 the ports, 6 UNIT (log entry 8). -/
def Dev.persSetOutput (d : Dev) (p k : Nat) : (Nat × List Nat) × Dev :=
  let x := d.per p
  let w := d.dcWord p k
  if x.running then ((DC_BUSY, []), d)
  else ((DC_OK, []), d.setPer p { x with mac := w 1 + w 2 % 2 ^ 16 * 2 ^ 32, src := w 3, dst := w 4, ports := w 5, unit := w 6 % 256 })

/-- LOAD_DSP: word 1 the space (0 P, 1 X, 2 Y), word 2 the address, word 3 the count, 1 to 12, then the words (log entry 8). -/
def persLoadDsp (p k : Nat) (s : State) : (Nat × List Nat) × State :=
  let w := s.dev.dcWord p k
  let sp := w 1
  let top := if sp = 0 then 0x4000 else if sp = 1 then 0xFC00 else 0x10000
  if sp > 2 ∨ w 3 < 1 ∨ w 3 > 12 ∨ w 2 + w 3 > top then ((DC_BAD_PARAM, []), s)
  else
    let c := s.dev.physOf (1 + p / 2)
    let base := s.localBase c sp + 4 * ((if sp = 0 then 0x4000 else 0x10000) * (p % 2) + w 2)
    let bs := (List.range (w 3)).flatMap fun i => leBytes 3 (w (4 + i)) ++ [0]
    ((DC_OK, []), { s with mem := (memWrite s.dev s.mem base bs false).2 })

/-- RUN_DSP: word 1 the start address; the core is started when it does not run yet. -/
def Dev.persRunDsp (d : Dev) (p a : Nat) : (Nat × List Nat) × Dev :=
  let c := d.physOf (1 + p / 2)
  if a ≥ 2 ^ 14 then ((DC_BAD_PARAM, []), d)
  else
    let st := d.coreState c
    let d1 := if st = CORE_RESET then (d.setCoreState c CORE_RUN).setF (CR_STAT c) CR_STAT_CS 1 else d
    let d2 := d1.setPersCtx p fun t => { t with pc := a, slots := none, rep := none, waiting := false, runs := true }
    ((DC_OK, []), d2.setPer p { d2.per p with fault := false })

/-- HALT_DSP. -/
def Dev.persHaltDsp (d : Dev) (p : Nat) : Dev := d.setPersCtx p fun t => { t with runs := false }

/-- GET_STATUS: DC_STATUS, DC_COUNTER and the frame errors of the lanes, two 16-bit saturated counts a word (log entry 8). -/
def Dev.persStatus (d : Dev) (p : Nat) : List Nat :=
  let errs := fun (l : Nat) => min 0xFFFF (d.rdN (LN_PCRC_ERR l) + d.rdN (LN_FMT_ERR l) + d.rdN (LN_ID_RANGE l))
  [d.dcStatus p, d.rdN (DC_COUNTER p)] ++ (List.range 8).map fun j => errs (16 * p + 2 * j) + errs (16 * p + 2 * j + 1) * 2 ^ 16

/-- Meanings of the DC-512 command words (Table 15.5). -/
def execDc512Reset (pers slot : Nat) (s : State) : Host.Outcome State Fault Refusal :=
  .next (serveDc 0x0001 pers slot (onPers fun d => ((DC_OK, []), d.persReset pers)) s)
def execDc512Start (pers slot : Nat) (s : State) : Host.Outcome State Fault Refusal :=
  .next (serveDc 0x0010 pers slot (persStart pers (s.dev.dcWord pers slot 1)) s)
def execDc512Stop (pers slot : Nat) (s : State) : Host.Outcome State Fault Refusal :=
  .next (serveDc 0x0011 pers slot (onPers fun d => ((DC_OK, []), d.persStop pers)) s)
def execSetDump (pers slot : Nat) (s : State) : Host.Outcome State Fault Refusal :=
  .next (serveDc 0x0020 pers slot (onPers fun d => d.persSetDump pers (d.dcWord pers slot 1)) s)
def execSetOutput (pers slot : Nat) (s : State) : Host.Outcome State Fault Refusal :=
  .next (serveDc 0x0030 pers slot (onPers fun d => d.persSetOutput pers slot) s)
def execLoadDsp (pers slot : Nat) (s : State) : Host.Outcome State Fault Refusal :=
  .next (serveDc 0x0040 pers slot (persLoadDsp pers slot) s)
def execRunDsp (pers slot : Nat) (s : State) : Host.Outcome State Fault Refusal :=
  .next (serveDc 0x0041 pers slot (onPers fun d => d.persRunDsp pers (d.dcWord pers slot 1)) s)
def execHaltDsp (pers slot : Nat) (s : State) : Host.Outcome State Fault Refusal :=
  .next (serveDc 0x0042 pers slot (onPers fun d => ((DC_OK, []), d.persHaltDsp pers)) s)
def execGetStatus (pers slot : Nat) (s : State) : Host.Outcome State Fault Refusal :=
  .next (serveDc 0x0050 pers slot (onPers fun d => ((DC_OK, d.persStatus pers), d)) s)

/-- The command words of Table 15.5. -/
def dcWords : List Nat := [0x0001, 0x0010, 0x0011, 0x0020, 0x0030, 0x0040, 0x0041, 0x0042, 0x0050]

/-- DC512_FLR (R445): RESET, and the eight slots return to the host. -/
def execDc512Flr (pers : Nat) (s : State) : Host.Outcome State Fault Refusal :=
  nextDev s (if !s.dev.compat || pers ≥ 4 then s.dev
    else
      let d := (s.dev.persReset pers).wrN (DC_DOORBELL pers) 0
      { d with host := { d.host with fwq := d.host.fwq.filter fun q => !decide (dcSlot pers 0 ≤ q ∧ q ≤ dcSlot pers 7) } })

/-- PERSONALITY_SWITCH (R332, R447): a core that serves two enabled personalities exchanges its banks at a boundary. -/
def execPersonalitySwitch (core : Nat) (s : State) : Host.Outcome State Fault Refusal :=
  let d := s.dev
  let x := (d.core core).drain
  let p := 2 * (d.logicalOf core - 1)
  nextDev s (if core ≥ 4 || !d.compat || !d.coreCs core || d.coreState core != CORE_RUN || !x.ctx.boundary || !(d.per p).en || !(d.per (p + 1)).en
    then d else d.setCore core { x with bank := 1 - x.bank, ctx := x.alt, alt := x.ctx })

/-! Supervision on PF0 (R448). -/

/-- PERS_STATUS: for each personality its state (enabled, running, stopping), DC_STATUS, k, DC_COUNTER, DC_DUMPS, PKT_COUNT and the
output link. -/
def persStatusDef : CmdDef where
  op := 0x0110
  mode := 2
  run := onDev fun _ s =>
    let d := s.dev
    okR ([0, 1, 2, 3].flatMap fun p =>
      let x := d.per p
      [b2n x.en + 2 * b2n x.running + 4 * b2n x.stopping, d.dcStatus p, x.k, d.rdN (DC_COUNTER p), d.rdN (DC_DUMPS p), x.pkt, b2n x.link]) d

/-- The lanes of personality p configured for DC-512 frames, or off (R433, R434); its output lane sends when it is enabled. -/
def Dev.persLanes (d : Dev) (p : Nat) (en : Bool) : Dev :=
  let x : LaneSet := { func := if en then 4 else 0, rate := 2, pll := 0, rxEn := en, txEn := false, split := 0, txpre := 0, dev := 0, link := 0,
                       fmt := 0, win := 0 }
  let d1 := (List.range 16).foldl (fun (e : Dev) l => e.setupLane (16 * p + l) x 0 0 0) d
  let d2 := d1.setupLane (64 + p) { x with rxEn := false, txEn := en } 0 0 0
  let d3 := d2.setLane (64 + p) { d2.lane (64 + p) with txIdle := !en }
  if en then (((d3.setPll (2 * p) 0 330).setPll (2 * p + 1) 0 330).setPll 8 0 330) else d3

/-- PERS_ASSIGN put into force (Table 15.7). -/
def Dev.persAssign (d : Dev) (c : Cmd) : Dev :=
  let nch := fun (p : Nat) => if bit (c.p 0) p then c.b (1 + p) 15 0 else 0
  [0, 1, 2, 3].foldl
    (fun (e : Dev) p =>
      let en := bit (c.p 0) p
      let x : Pers := { en := en, nch := c.b (1 + p) 15 0, base := c.q (7 + 2 * p), chan0 := ((List.range p).map nch).sum, log := (e.per p).log }
      ((e.setPer p x).persLanes p en).setPersCtx p fun t => { t with runs := false })
    { d with persRun := [c.q 5 % 2 ^ 48, c.q 15 % 2 ^ 48, c.p 17] }

/-- PERS_ASSIGN: the assignment goes into force and into the profile, and a commit is requested. -/
def persAssignDef : CmdDef where
  op := 0x0111
  mode := 2
  masks := fun _ => [0xF, 0xFFFF, 0xFFFF, 0xFFFF, 0xFFFF, 0xFFFFFFFF, 0xFFFF, 0xFFFFFFFF, 0xFFFFFFFF, 0xFFFFFFFF, 0xFFFFFFFF, 0xFFFFFFFF,
    0xFFFFFFFF, 0xFFFFFFFF, 0xFFFFFFFF, 0xFFFFFFFF, 0xFFFF, 0xFFFFFFFF]
  bad := fun c _ => [0, 1, 2, 3].any (fun p => c.p (1 + p) < 1 || c.p (1 + p) > 4096 || c.q (7 + 2 * p) % 4096 != 0) ||
    c.q 5 == 0 || c.p 17 ≥ 10 ^ 9
  run := onDev fun c s =>
    let d := s.dev
    let nch := ([0, 1, 2, 3].map fun p => if bit (c.p 0) p then c.p (1 + p) else 0).sum
    checks [([0, 1, 2, 3].any (fun p => (d.per p).running), .badState), (!d.persFits nch (c.q 5), .noResource)] d
      (let r := ((d.persAssign c).putSetting 0x0111 (c.ps.take 18)).commitNow .pers c.s0 c.s1
       ({ code := r.1 }, r.2))

/-- PERS_RESET: word 0 [1:0] the personality. -/
def persResetDef : CmdDef where
  op := 0x0112
  mode := 2
  masks := fun _ => [3]
  run := onDev fun c s => okR [] (s.dev.persReset (c.b 0 1 0))

/-- PERS_LOG: word 0 [1:0] the personality, words 1 and 2 the address. -/
def persLogDef : CmdDef where
  op := 0x0113
  mode := 2
  masks := fun _ => [3, 0xFFFFFFFF, 0xFFFF]
  bad := fun c _ => c.q 1 % 8 != 0
  run := onDev fun c s => asJob c s.dev 0x0113 false

/-- The work of a PERS_LOG job: for each dump, newest first, its first spectrum (8 bytes), k (4), the packets lost (4), and the four
counts of each input and channel. -/
def persLogWork (s : State) (i : Nat) : State × Option (Code × Nat) :=
  let bs := (s.dev.per ((s.dev.job i).params.getD 0 0 % 4)).log.flatMap fun l =>
    leBytes 8 l.c0 ++ leBytes 4 l.k ++ leBytes 4 l.lost ++ l.acct.flatMap Acct.bytes
  let w := memWrite s.dev s.mem (s.dev.jobQ i 1) bs false
  ({ s with mem := w.2 }, some (if w.1 then .ok else .hwFault, if w.1 then bs.length else 0))

/-- Meanings of the supervisory commands. -/
def execPersStatus (slot : Nat) (s : State) : Host.Outcome State Fault Refusal := .next (serve persStatusDef slot 0 0 s)
def execPersAssign (slot s0 s1 : Nat) (s : State) : Host.Outcome State Fault Refusal := .next (serve persAssignDef slot s0 s1 s)
def execPersReset (slot : Nat) (s : State) : Host.Outcome State Fault Refusal := .next (serve persResetDef slot 0 0 s)
def execPersLog (slot : Nat) (s : State) : Host.Outcome State Fault Refusal := .next (serve persLogDef slot 0 0 s)

end Sys2Proof.Machine
end

