-- ==== Sys2Proof/Machine/Memory.lean ====
section
/-!
DEFINITION. The memory controllers: scheduling by urgency, refresh and neighbour refresh, retraining, replay and channel failure,
and their commands (07_memories R207 to R224, R238, R239).
-/
namespace Sys2Proof.Machine

/-! Units and channels. -/

/-- The scheduler of a unit: pseudo-channels 0 to 127, DDR channels 128 to 135. -/
def Dev.munit (d : Dev) (u : Nat) : MUnit := tget (fun _ => {}) d.memc.units u

/-- The device with a scheduler replaced. -/
def Dev.setMunit (d : Dev) (u : Nat) (x : MUnit) : Dev := { d with memc := { d.memc with units := tset (fun _ => {}) d.memc.units u x } }

/-- The retraining and replay state of a channel: 0 to 63 HBM, 64 to 71 DDR. -/
def Dev.mchan (d : Dev) (c : Nat) : MChan := tget (fun _ => {}) d.memc.chans c

/-- The device with a channel's state replaced. -/
def Dev.setMchan (d : Dev) (c : Nat) (x : MChan) : Dev := { d with memc := { d.memc with chans := tset (fun _ => {}) d.memc.chans c x } }

/-- The units of a channel. -/
def chanUnits (c : Nat) : List Nat := if c < 64 then [2 * c, 2 * c + 1] else [64 + c]

/-- The channel of a unit. -/
def unitChan (u : Nat) : Nat := if u < 128 then u / 2 else u - 64

/-! Urgency and order (R207, R211, R212, R215). -/

/-- The latency target of a port of rank p, in ns. -/
def Dev.target (d : Dev) (p : Nat) : Nat := max 1 (d.f (MC_QOS (p - 1)) MC_QOS_TARGET_NS)

/-- Urgency of a request: 0 to 3 by the fraction of its target already spent (R211). -/
def Dev.urgency (d : Dev) (q : MReq) : Nat :=
  let t := d.target q.port
  if q.age ≥ t then 3 else if 4 * q.age ≥ 3 * t then 2 else if 2 * q.age ≥ t then 1 else 0

/-- Requests that hold a transaction slot, in order of arrival: real-time ports may use every slot, the others all but those held
for them (R207, Table 7.1). -/
def slotted (all other : Nat) : List MReq → List MReq
  | [] => []
  | q :: qs =>
    if all = 0 then []
    else if q.port ≤ 3 then q :: slotted (all - 1) other qs
    else if other = 0 then slotted all 0 qs
    else q :: slotted (all - 1) (other - 1) qs

/-- A request may not go before an earlier one to the same bank and row of which one is a write (R215). -/
def blocked (before : List MReq) (q : MReq) : Bool :=
  before.any fun x => x.bank == q.bank && x.row == q.row && (x.write || q.write)

/-- Requests that no order holds back, with their places. -/
def freeReqs : List MReq → List MReq → List MReq
  | _, [] => []
  | before, q :: qs => if blocked before q then freeReqs (before ++ [q]) qs else q :: freeReqs (before ++ [q]) qs

/-- The request to serve among some in order of arrival: the highest urgency, then the lowest rank, then the oldest (R212). -/
def Dev.bestReq (d : Dev) (qs : List MReq) : Option MReq :=
  qs.foldl
    (fun acc q => match acc with
      | none => some q
      | some b =>
        if d.urgency q > d.urgency b ∨ (d.urgency q = d.urgency b ∧ (q.port < b.port ∨ (q.port = b.port ∧ q.age > b.age))) then some q
        else some b) none

/-- URG of each port: the highest urgency of its waiting requests anywhere. -/
def Dev.syncUrg (d : Dev) : Dev :=
  let qs := d.memc.units.flatMap fun p => p.2.queue
  (List.range 9).foldl
    (fun (e : Dev) p => e.setF (MC_QOS p) MC_QOS_URG (((qs.filter fun q => q.port == p + 1).map d.urgency).foldl max 0)) d

/-! Activates (R217). -/

/-- MC_CTRL.RH_TH held to its range. -/
def Dev.rhTh (d : Dev) : Nat := clampN 512 16384 (d.f MC_CTRL MC_CTRL_RH_TH)

/-- An activate of a row counted in the 32 entries of its bank. -/
def countAct (acts : List (Nat × Nat × Nat)) (bank row : Nat) : List (Nat × Nat × Nat) × Nat :=
  match acts.find? fun x => x.1 == bank && x.2.1 == row with
  | some x => (acts.map fun y => if y = x then (bank, row, x.2.2 + 1) else y, x.2.2 + 1)
  | none =>
    let own := acts.filter fun x => x.1 == bank
    if own.length < 32 then (acts ++ [(bank, row, 1)], 1)
    else
      let low := own.foldl (fun (b : Nat × Nat × Nat) x => if x.2.2 < b.2.2 then x else b) (own.headD (bank, row, 0))
      ((acts.filter (· ≠ low)) ++ [(bank, row, low.2.2 + 1)], low.2.2 + 1)

/-- A row of a unit activated; at RH_TH its neighbours are refreshed, its count cleared and NREF advanced. -/
def Dev.activate (d : Dev) (u bank row : Nat) : Dev :=
  let x := d.munit u
  let r := countAct x.acts bank row
  let x1 := { x with openRow := tset (fun _ => none) x.openRow bank (some row) }
  if r.2 ≥ d.rhTh then
    (d.setMunit u { x1 with acts := r.1.map fun y => if y.1 = bank ∧ y.2.1 = row then (bank, row, 0) else y }).cnt MC_NREF 1
  else d.setMunit u { x1 with acts := r.1 }

/-- A command issued: its row is opened when it is not, and the command enters the retry buffer of its channel, 64 deep (R220). -/
def Dev.issue (d : Dev) (u : Nat) (q : MReq) : Dev :=
  let d1 := if tget (fun _ => none) (d.munit u).openRow q.bank = some q.row then d else d.activate u q.bank q.row
  let c := d1.mchan (unitChan u)
  d1.setMchan (unitChan u) { c with retry := (c.retry ++ [(u, q)]).drop (c.retry.length + 1 - 64) }

/-- COMMAND_SLOT (R211, R212): requests that have come in join the queue, dt nanoseconds have passed, and one request is served. At
level 0 a row hit may be taken first, which a free value decides. -/
def Dev.commandSlot (d : Dev) (u dt : Nat) (arrivals : List (Nat × Nat × Nat × Bool)) : Dev :=
  let x := d.munit u
  let up := (chanUnits (unitChan u)).contains u && d.f (MC_CHSTAT (unitChan u)) MC_CHSTAT_STATE == 1
  let q0 := x.queue.map (fun q => { q with age := q.age + dt }) ++
    (arrivals.filter fun a => 1 ≤ a.1 && a.1 ≤ 9).map fun (p, b, r, w) => { port := p, bank := b, row := r, write := w, age := 0 }
  if u ≥ 136 then d
  else if !up then (d.setMunit u { x with queue := q0 }).syncUrg
  else
    let cand := freeReqs [] (if u < 128 then slotted 24 16 q0 else slotted 128 80 q0)
    let hits := cand.filter fun q => tget (fun _ => none) x.openRow q.bank == some q.row
    match d.bestReq cand with
    | none => (d.setMunit u { x with queue := q0 }).syncUrg
    | some b =>
      let pick := if d.urgency b = 0 ∧ d.free % 2 = 1 then (d.bestReq hits).getD b else b
      let d1 := if d.urgency b = 0 then d.drew else d
      let d2 := (d1.setMunit u { x with queue := q0.erase pick }).issue u pick
      (if pick.age ≥ d.target pick.port then d2.cntF (MC_QOS (pick.port - 1)) MC_QOS_LAT_MISS 1 else d2).syncUrg

/-- Meaning of COMMAND_SLOT. -/
def execCommandSlot (unit dt : Nat) (arrivals : List (Nat × Nat × Nat × Bool)) (s : State) : Host.Outcome State Fault Refusal :=
  .next { s with dev := s.dev.commandSlot unit dt arrivals }

/-! Refresh, retraining and replay (R216, R219 to R223). -/

/-- A unit holds a request at urgency 1 or above. -/
def Dev.urgent (d : Dev) (u : Nat) (rtOnly : Bool) : Bool :=
  (d.munit u).queue.any fun q => decide (d.urgency q ≥ 1) && (!rtOnly || decide (q.port ≤ 3))

/-- REFRESH (R216): the named rows are refreshed, ahead of every port at the postponement limit and otherwise postponed while a
request to the unit is at urgency 1 or above. -/
def execRefresh (unit : Nat) (atLimit : Bool) (rows : List (Nat × Nat)) (s : State) : Host.Outcome State Fault Refusal := nextDev s (
  let d := s.dev
  let x := d.munit unit
  if unit ≥ 136 then d
  else if d.urgent unit false && !atLimit then d.setMunit unit { x with postponed := x.postponed + 1 }
  else
    let banks := rows.map (·.1)
    d.setMunit unit { x with postponed := 0, acts := x.acts.filter (fun a => !rows.contains (a.1, a.2.1)),
                             openRow := x.openRow.filter fun p => !banks.contains p.1 })

/-- Temperature of a channel: its stack's report, or for DDR the temperature last reported (R219). -/
def Dev.chanTemp (d : Dev) (c : Nat) : Int := if c < 64 then sext 16 (d.f (TH_SENS (52 + c / 16)) TH_SENS_TEMP) else (d.mchan c).lastTemp

/-- A retraining pause taken. -/
def Dev.retrain (d : Dev) (c : Nat) : Dev :=
  (d.setMchan c { d.mchan c with dueAt := none, forceNext := false, lastTemp := d.chanTemp c }).cntF MC_RETRAIN LO32 1

/-- RETRAIN_PAUSE (R219): a due pause is taken, or waits while a real-time request to the channel is at urgency 1 or above. -/
def execRetrainPause (channel : Nat) (s : State) : Host.Outcome State Fault Refusal := nextDev s (
  let d := s.dev
  if channel ≥ 72 ∨ d.f (MC_CHSTAT channel) MC_CHSTAT_STATE ≠ 1 then d
  else if (chanUnits channel).any fun u => d.urgent u true then
    d.setMchan channel { d.mchan channel with dueAt := some ((d.mchan channel).dueAt.getD d.now) }
  else d.retrain channel)

/-- RETRAIN_FORCED (R219): a pause that has waited 10 ms is taken regardless. -/
def execRetrainForced (channel : Nat) (s : State) : Host.Outcome State Fault Refusal := nextDev s (
  let d := s.dev
  if channel ≥ 72 ∨ (d.mchan channel).dueAt.isNone then d else (d.retrain channel).cntF MC_RETRAIN HI32 1)

/-- A channel fails: its state reads failed, its units are dead, and the event is in ERRC; an HBM failure ends a run at the next
batch boundary and sets DEGRADED (R221, R222). -/
def Dev.chanFailed (d : Dev) (c : Nat) : Dev :=
  let d1 := ((d.setF (MC_CHSTAT c) MC_CHSTAT_STATE 3).setF (MC_CHSTAT c) MC_CHSTAT_PC_DEAD (if c < 64 then 3 else 0)).raise 0x0702 c 0 0
  if c < 64 then (if d.run.active then d1.endRunSoon.degrade else d1) else d1

/-- PARITY_ALERT (R220, R221): the banks are precharged and the commands within the alert latency reissued; a new alert during the
replay makes it a failed one, and the third in a row fails the channel. -/
def Dev.parityAlert (d : Dev) (c : Nat) (again : Bool) : Dev :=
  let x := d.mchan c
  if c ≥ 72 ∨ d.f (MC_CHSTAT c) MC_CHSTAT_STATE = 3 then d
  else
    let d1 := (chanUnits c).foldl (fun (e : Dev) u => e.setMunit u { e.munit u with openRow := [] }) d
    let replayed := x.retry.drop (x.retry.length - x.latency)
    let d2 := (replayed.foldl (fun (e : Dev) (u, q) => e.activate u q.bank q.row) d1).cntF MC_REPLAYS LO32 1
    if !again then d2.setF (MC_CHSTAT c) MC_CHSTAT_FAILED_REPLAYS 0
    else
      let n := d.f (MC_CHSTAT c) MC_CHSTAT_FAILED_REPLAYS + 1
      let d3 := (d2.cntF MC_REPLAYS HI32 1).setF (MC_CHSTAT c) MC_CHSTAT_FAILED_REPLAYS (min n 3)
      if n ≥ 3 then d3.chanFailed c else d3

/-- Meaning of PARITY_ALERT. -/
def execParityAlert (channel : Nat) (again : Bool) (s : State) : Host.Outcome State Fault Refusal :=
  .next { s with dev := s.dev.parityAlert channel again }

/-! Commands. -/

/-- The memory counters of Table 7.7 outside the capture ring. -/
def memCounters : List Nat := [MC_NREF, MC_REPLAYS, MC_RETRAIN, MC_DEAD_ACC]

/-- MEM_STATUS: MC registers, counters, channel states with the dead units, and the region plan; CLEAR clears the counters and
LAT_MISS (R238). -/
def memStatusDef : CmdDef where
  op := 0x0701
  run := onDev fun c s =>
    let d := s.dev
    let qos := (List.range 9).map MC_QOS
    let d1 := if c.clear then (List.range 9).foldl (fun (e : Dev) p => e.setF (MC_QOS p) MC_QOS_LAT_MISS 0) (d.clearRegs memCounters) else d
    okR ([d.rdN MC_CTRL, d.rdN MC_MAP] ++ (qos ++ memCounters).flatMap (fun a => lohi (d.rdN a)) ++
        (List.range 72).map (fun k => d.rdN (MC_CHSTAT k)) ++ d.run.regions.flatMap fun (k, a, n) => [k] ++ lohi a ++ lohi n) d1

/-- MEM_QOS: word 0 [5:0] the ports of rank 4 to 9, words 1 to 6 their targets in ns (R213, log entry 8). -/
def memQosDef : CmdDef where
  op := 0x0702
  masks := fun _ => [0x3F, 0xFFFFF, 0xFFFFF, 0xFFFFF, 0xFFFFF, 0xFFFFF, 0xFFFFF]
  bad := fun c _ => (List.range 6).any fun k => bit (c.p 0) k && (c.p (1 + k) < 1000 || c.p (1 + k) > 1000000)
  run := onDev fun c s =>
    okR [] ((List.range 6).foldl
      (fun (e : Dev) k => if bit (c.p 0) k then e.setF (MC_QOS (3 + k)) MC_QOS_TARGET_NS (c.p (1 + k)) else e) s.dev)

/-- MEM_RETRAIN: word 0 [6:0] the channel (log entry 8). -/
def memRetrainDef : CmdDef where
  op := 0x0703
  masks := fun _ => [0x7F]
  bad := fun c _ => c.b 0 6 0 ≥ 72
  run := onDev fun c s => okR [] (s.dev.setMchan (c.b 0 6 0) { s.dev.mchan (c.b 0 6 0) with forceNext := true })

/-- Meanings of the memory commands. -/
def execMemStatus (slot : Nat) (s : State) : Host.Outcome State Fault Refusal := .next (serve memStatusDef slot 0 0 s)
def execMemQos (slot : Nat) (s : State) : Host.Outcome State Fault Refusal := .next (serve memQosDef slot 0 0 s)
def execMemRetrain (slot : Nat) (s : State) : Host.Outcome State Fault Refusal := .next (serve memRetrainDef slot 0 0 s)

end Sys2Proof.Machine
end

