-- ==== Sys2Proof/Machine/HostCmd.lean ====
section
/-!
DEFINITION. The system commands of the mailbox (12_host_and_mailboxes R369 to R375, R380): PING to SYS_RESET, and the work of a
COPY job.
-/
namespace Sys2Proof.Machine

/-- The 32-bit word at an address of the host-interface memory. -/
def Dev.hostWord (d : Dev) (a : Nat) : Nat :=
  match regRow a with
  | some _ => d.rdN a % 2 ^ 32
  | none => if (regRow (a - 4)).isSome && a % 8 == 4 then d.rdN (a - 4) / 2 ^ 32 else 0

/-- PING: the four words come back, followed by DEVSTAT. -/
def pingDef : CmdDef where
  op := 0x0101
  run := onDev fun c s => okR ([c.p 0, c.p 1, c.p 2, c.p 3].map (· % 2 ^ 32) ++ lohi (s.dev.rdN DEVSTAT)) s.dev

/-- The generation of the selected slot, zero where none is selected. -/
def Flash.gen (f : Flash) : Nat :=
  if !f.selValid then 0 else match if f.sel then f.slot1 else f.slot0 with | .ok g _ _ => g | _ => 0

/-- FW_VER in the header of an image slot (Table 16.5). -/
def imgVersion (img : List Nat) : Nat := leNat ((img.drop 4).take 4)

/-- DEV_INFO: the identity block from 0x0008 on (62 words), FW_VER of both image slots, and the profile's generation. -/
def devInfoDef : CmdDef where
  op := 0x0102
  run := onDev fun _ s =>
    okR ((List.range 62).map (fun i => s.dev.hostWord (ID_MAGIC + 4 * i)) ++
      [imgVersion s.flash.imgA, imgVersion s.flash.imgB, s.flash.gen % 2 ^ 32]) s.dev

/-- The index that the ticket of a command names. -/
def Cmd.index (c : Cmd) : Nat := c.p 0 % 1024

/-- JOB_QUERY: the status word, the area's address and the bytes valid. -/
def jobQueryDef : CmdDef where
  op := 0x0103
  masks := fun _ => [0xFFFF]
  bad := fun c s => !s.dev.ticketOk (c.p 0)
  run := onDev fun c s =>
    let d := s.dev
    let i := c.index
    let j := d.job i
    okR ((List.range 4).map (fun k => d.rdN (JOB_WORD (4 * i + k))) ++
      (match j.area with | some k => lohi (d.areaAddr k) | none => [0, 0]) ++ lohi (if j.area.isSome then j.bytes else 0)) d

/-- Jobs that are not cancellable once they run (R372): RUN_STOP, DUMP_NOW, BOND_SET, CORE_TUCK, COMMIT and FW_IMAGE. -/
def noCancel : List Nat := [0x0503, 0x0508, 0x050B, 0x0905, 0x0C03, 0x0C05]

/-- JOB_CANCEL by the job's state (R372). -/
def Dev.jobCancel (d : Dev) (i : Nat) : Reply × Dev :=
  match d.jobState i with
  | 1 => okR [] (d.endJob i .partialDone 0)
  | 2 =>
    if noCancel.contains (d.jobOp i) then noR .badState d
    else okR [] (d.setJobWord i (d.ticket i) 4 0x01 (d.jobOp i) 0xFFFF (d.jobCount i)).syncJobs
  | 0 => noR .badState d
  | _ => okR [] d

/-- JOB_CANCEL. -/
def jobCancelDef : CmdDef where
  op := 0x0104
  masks := fun _ => [0xFFFF]
  bad := fun c s => !s.dev.ticketOk (c.p 0)
  run := onDev fun c s => s.dev.jobCancel c.index

/-- JOB_RELEASE: a DONE job's index and area are free again. -/
def Dev.jobRelease (d : Dev) (i : Nat) : Reply × Dev :=
  if d.jobState i ≠ 3 then noR .badState d
  else
    let d1 := d.setJobWord i (d.ticket i) 0 (bits (d.rdN (JOB_WORD (4 * i))) 31 24) (d.jobOp i) 1000 (d.jobCount i)
    okR [] (d1.setJob i { d1.job i with area := none })

/-- JOB_RELEASE. -/
def jobReleaseDef : CmdDef where
  op := 0x0105
  masks := fun _ => [0xFFFF]
  bad := fun c s => !s.dev.ticketOk (c.p 0)
  run := onDev fun c s => s.dev.jobRelease c.index

/-- What 64 MiB from an address upward may be for an aperture: 0 nothing, 1 read-only, 2 writable too (R373). -/
def Dev.aperKind (d : Dev) (a : Nat) : Nat :=
  let hb := d.rdN ID_HOSTBUF_BASE
  if hb ≤ a ∧ a + 0x4000000 ≤ hb + 0x40000000 then 2
  else match (d.route a).1, (d.route (a + 0x3FFFFFF)).1 with
  | .hbm, .hbm => 1
  | .ddr, .ddr => 1
  | _, _ => if a = 0x50000000 then 1 else 0

/-- APER_SET (R373). -/
def aperSetDef : CmdDef where
  op := 0x0106
  masks := fun _ => [0xF, 0xFFFFFFFF, 0xFFFF]
  bad := fun c s =>
    let k := s.dev.aperKind (c.q 1)
    c.q 1 % 0x4000000 != 0 || (bit (c.p 0) 2 && (k == 0 || (bit (c.p 0) 3 && k != 2)))
  run := onDev fun c s =>
    let v := c.b 0 2 2 + c.b 0 3 3 * 2 + c.q 1 % 2 ^ 48
    okR [] (s.dev.wrN (APER (c.b 0 1 0)) v)

/-- COPY: a job of the firmware channel. -/
def copyDef : CmdDef where
  op := 0x0107
  masks := fun _ => [0xFFFFFFFF, 0xFFFF, 0xFFFFFFFF, 0xFFFF, 0xFFFFFFFF]
  run := onDev fun c s => asJob c s.dev 0x0107 false

/-- The bursts of a COPY: bytes moved, whether poison was read, and the access that failed, if one did. -/
def copyMove : List (Nat × Nat × Nat) → Nat → Bool → State → Nat × Bool × Option Nat × State
  | [], n, p, s => (n, p, none, s)
  | (a, b, k) :: r, n, p, s =>
    let lanes := poisonLanes s a k
    let x := busRead 8 a k s
    if x.1.kind ≠ .ok then (n, p, some a, x.2)
    else
      let q := p || lanes.any id || x.1.poison
      let w := busWrite 8 b x.1.data lanes x.2
      if !w.1 then (n, q, some b, w.2) else copyMove r (n + k) q w.2

/-- The work of a COPY job (R349, R350): one descriptor with both sides linear. An outbound access without Bus Master Enable ends
it PARTIAL (R360). -/
def copyWork (s : State) (i : Nat) : State × Option (Code × Nat) :=
  let d := s.dev
  let len := (d.job i).params.getD 4 0
  let r := copyMove (bursts (d.jobQ i 0, d.jobQ i 2, len)) 0 false s
  let code := match r.2.2.1 with
    | some a => if (d.route a).1 == .out && !d.host.busMaster then Code.partialDone else .hwFault
    | none => if r.2.1 then .poisoned else .ok
  (r.2.2.2, some (code, r.1))

/-- ROLE_SET (R2): no batch may be open. -/
def roleSetDef : CmdDef where
  op := 0x0108
  mode := 1
  masks := fun _ => [3]
  bad := fun c _ => c.p 0 == 0
  run := onDev fun c s =>
    if s.dev.batchOpen then noR .badState s.dev else okR [] (s.dev.setF ID_MODE ID_MODE_ROLE (c.b 0 1 0))

/-- MODE_SET (R1): recorded for the next boot, with a commit. -/
def modeSetDef : CmdDef where
  op := 0x0109
  masks := fun _ => [1]
  run := onDev fun c s =>
    let r := (s.dev.putSetting 0xFF00 [c.b 0 0 0]).commitNow .mode c.s0 c.s1
    ({ code := r.1 }, r.2)

/-- HOST_CONFIG (R375). -/
def hostConfigDef : CmdDef where
  op := 0x010A
  masks := fun _ => [0, 0xFFFF8000]
  run := onDev fun c s => okR [] (s.dev.wrN OB_BASE (c.q 0))

/-- SYS_RESET: the device reset follows 10 ms after the release of the slot, which `finish` notes. -/
def sysResetDef : CmdDef where
  op := 0x010B
  masks := fun _ => [0xFFFF]
  bad := fun c _ => c.b 0 15 0 != 0xA5C3
  run := onDev fun _ s => okR [] s.dev

/-- Meanings of the system commands. -/
def execPing (slot : Nat) (s : State) : Host.Outcome State Fault Refusal := .next (serve pingDef slot 0 0 s)
def execDevInfo (slot : Nat) (s : State) : Host.Outcome State Fault Refusal := .next (serve devInfoDef slot 0 0 s)
def execJobQuery (slot : Nat) (s : State) : Host.Outcome State Fault Refusal := .next (serve jobQueryDef slot 0 0 s)
def execJobCancel (slot : Nat) (s : State) : Host.Outcome State Fault Refusal := .next (serve jobCancelDef slot 0 0 s)
def execJobRelease (slot : Nat) (s : State) : Host.Outcome State Fault Refusal := .next (serve jobReleaseDef slot 0 0 s)
def execAperSet (slot : Nat) (s : State) : Host.Outcome State Fault Refusal := .next (serve aperSetDef slot 0 0 s)
def execCopy (slot : Nat) (s : State) : Host.Outcome State Fault Refusal := .next (serve copyDef slot 0 0 s)
def execRoleSet (slot : Nat) (s : State) : Host.Outcome State Fault Refusal := .next (serve roleSetDef slot 0 0 s)
def execModeSet (slot s0 s1 : Nat) (s : State) : Host.Outcome State Fault Refusal := .next (serve modeSetDef slot s0 s1 s)
def execHostConfig (slot : Nat) (s : State) : Host.Outcome State Fault Refusal := .next (serve hostConfigDef slot 0 0 s)
def execSysReset (slot : Nat) (s : State) : Host.Outcome State Fault Refusal := .next (serve sysResetDef slot 0 0 s)

end Sys2Proof.Machine
end

