-- ==== Sys2Proof/Machine/Image.lean ====
section
/-!
DEFINITION. Firmware images (16_power_and_startup R460, Table 16.5): SHA-384 and the ECDSA P-384 check, as FIPS 180-4 and FIPS
186-5 define them (PRESUMED, log entry 25), and the verification of an image.
-/
namespace Sys2Proof.Machine

/-! SHA-384. -/

/-- Round constants, part 0. -/
def shaK0 : List Nat := [
  0x428A2F98D728AE22, 0x7137449123EF65CD, 0xB5C0FBCFEC4D3B2F, 0xE9B5DBA58189DBBC,
  0x3956C25BF348B538, 0x59F111F1B605D019, 0x923F82A4AF194F9B, 0xAB1C5ED5DA6D8118,
  0xD807AA98A3030242, 0x12835B0145706FBE, 0x243185BE4EE4B28C, 0x550C7DC3D5FFB4E2,
  0x72BE5D74F27B896F, 0x80DEB1FE3B1696B1, 0x9BDC06A725C71235, 0xC19BF174CF692694,
  0xE49B69C19EF14AD2, 0xEFBE4786384F25E3, 0x0FC19DC68B8CD5B5, 0x240CA1CC77AC9C65]

/-- Round constants, part 1. -/
def shaK1 : List Nat := [
  0x2DE92C6F592B0275, 0x4A7484AA6EA6E483, 0x5CB0A9DCBD41FBD4, 0x76F988DA831153B5,
  0x983E5152EE66DFAB, 0xA831C66D2DB43210, 0xB00327C898FB213F, 0xBF597FC7BEEF0EE4,
  0xC6E00BF33DA88FC2, 0xD5A79147930AA725, 0x06CA6351E003826F, 0x142929670A0E6E70,
  0x27B70A8546D22FFC, 0x2E1B21385C26C926, 0x4D2C6DFC5AC42AED, 0x53380D139D95B3DF,
  0x650A73548BAF63DE, 0x766A0ABB3C77B2A8, 0x81C2C92E47EDAEE6, 0x92722C851482353B]

/-- Round constants, part 2. -/
def shaK2 : List Nat := [
  0xA2BFE8A14CF10364, 0xA81A664BBC423001, 0xC24B8B70D0F89791, 0xC76C51A30654BE30,
  0xD192E819D6EF5218, 0xD69906245565A910, 0xF40E35855771202A, 0x106AA07032BBD1B8,
  0x19A4C116B8D2D0C8, 0x1E376C085141AB53, 0x2748774CDF8EEB99, 0x34B0BCB5E19B48A8,
  0x391C0CB3C5C95A63, 0x4ED8AA4AE3418ACB, 0x5B9CCA4F7763E373, 0x682E6FF3D6B2B8A3,
  0x748F82EE5DEFB2FC, 0x78A5636F43172F60, 0x84C87814A1F0AB72, 0x8CC702081A6439EC]

/-- Round constants, part 3. -/
def shaK3 : List Nat := [
  0x90BEFFFA23631E28, 0xA4506CEBDE82BDE9, 0xBEF9A3F7B2C67915, 0xC67178F2E372532B,
  0xCA273ECEEA26619C, 0xD186B8C721C0C207, 0xEADA7DD6CDE0EB1E, 0xF57D4F7FEE6ED178,
  0x06F067AA72176FBA, 0x0A637DC5A2C898A6, 0x113F9804BEF90DAE, 0x1B710B35131C471B,
  0x28DB77F523047D84, 0x32CAAB7B40C72493, 0x3C9EBE0A15C9BEBC, 0x431D67C49C100D4C,
  0x4CC5D4BECB3E42B6, 0x597F299CFC657E2A, 0x5FCB6FAB3AD6FAEC, 0x6C44198C4A475817]

/-- The eighty round constants. -/
def shaK : List Nat := shaK0 ++ shaK1 ++ shaK2 ++ shaK3

/-- The initial hash value of SHA-384. -/
def sha384Init : List Nat := [
  0xCBBB9D5DC1059ED8, 0x629A292A367CD507, 0x9159015A3070DD17, 0x152FECD8F70E5939,
  0x67332667FFC00B31, 0x8EB44A8768581511, 0xDB0C2E0D64F98FA7, 0x47B5481DBEFA4FA4]

/-- A 64-bit word rotated right. -/
def rotr64 (x k : Nat) : Nat := (x / 2 ^ k + x * 2 ^ (64 - k)) % 2 ^ 64

/-- The message schedule, newest word first, extended n times. -/
def shaSched : Nat → List Nat → List Nat
  | 0, w => w
  | n + 1, w =>
    let a := w.getD 1 0
    let b := w.getD 14 0
    let s1 := rotr64 a 19 ^^^ rotr64 a 61 ^^^ (a / 2 ^ 6)
    let s0 := rotr64 b 1 ^^^ rotr64 b 8 ^^^ (b / 2 ^ 7)
    shaSched n ((s1 + w.getD 6 0 + s0 + w.getD 15 0) % 2 ^ 64 :: w)

/-- One round over the eight working variables. -/
def shaRound (v : List Nat) (kw : Nat) : List Nat :=
  let a := v.getD 0 0
  let b := v.getD 1 0
  let c := v.getD 2 0
  let e := v.getD 4 0
  let t1 := v.getD 7 0 + (rotr64 e 14 ^^^ rotr64 e 18 ^^^ rotr64 e 41) +
    ((e &&& v.getD 5 0) ^^^ ((2 ^ 64 - 1 - e) &&& v.getD 6 0)) + kw
  let t2 := (rotr64 a 28 ^^^ rotr64 a 34 ^^^ rotr64 a 39) + ((a &&& b) ^^^ (a &&& c) ^^^ (b &&& c))
  [(t1 + t2) % 2 ^ 64, a, b, c, (v.getD 3 0 + t1) % 2 ^ 64, e, v.getD 5 0, v.getD 6 0]

/-- A big-endian number of bytes. -/
def beNum (bs : List Nat) : Nat := bs.foldl (fun n b => n * 256 + b % 256) 0

/-- One block of 128 bytes. -/
def shaBlock (h : List Nat) (blk : List Nat) : List Nat :=
  let w := (List.range 16).map fun i => beNum ((blk.drop (8 * i)).take 8)
  let ws := (shaSched 64 w.reverse).reverse
  let v := ((shaK.zip ws).map fun p => p.1 + p.2).foldl shaRound h
  (h.zip v).map fun p => (p.1 + p.2) % 2 ^ 64

/-- Blocks of a padded message taken in order. -/
def shaBlocks : Nat → List Nat → List Nat → List Nat
  | 0, _, h => h
  | n + 1, bs, h => shaBlocks n (bs.drop 128) (shaBlock h (bs.take 128))

/-- n bytes of a number, most significant first. -/
def bytesBe (n x : Nat) : List Nat := (leBytes n x).reverse

/-- SHA-384 of a message, as a number of 384 bits. -/
def sha384 (m : List Nat) : Nat :=
  let z := (111 + 128 - m.length % 128) % 128
  let p := m ++ [0x80] ++ List.replicate z 0 ++ bytesBe 16 (8 * m.length)
  ((shaBlocks (p.length / 128) p sha384Init).take 6).foldl (fun n w => n * 2 ^ 64 + w) 0

/-! ECDSA over P-384. -/

/-- The field prime, the group order, the coefficient b and the base point of the curve. -/
def ecP : Nat :=
  0xFFFFFFFFFFFFFFFFFFFFFFFFFFFFFFFFFFFFFFFFFFFFFFFFFFFFFFFFFFFFFFFEFFFFFFFF0000000000000000FFFFFFFF
def ecN : Nat :=
  0xFFFFFFFFFFFFFFFFFFFFFFFFFFFFFFFFFFFFFFFFFFFFFFFFC7634D81F4372DDF581A0DB248B0A77AECEC196ACCC52973
def ecB : Nat :=
  0xB3312FA7E23EE7E4988E056BE3F82D19181D9C6EFE8141120314088F5013875AC656398D8A2ED19D2A85C8EDD3EC2AEF
def ecGx : Nat :=
  0xAA87CA22BE8B05378EB1C71EF320AD746E1D3B628BA79B9859F741E082542A385502F25DBF55296C3A545E3872760AB7
def ecGy : Nat :=
  0x3617DE4A96262C6F5D9E98BF9292DC29F8F41DBD289A147CE9DA3113B5F0B8C00A60B1CE1D7E819D7A431D7C90EA0E5F

/-- x^e modulo m, over the f lowest bits of e. -/
def powMod (m : Nat) : Nat → Nat → Nat → Nat
  | 0, _, _ => 1
  | f + 1, x, e =>
    let r := powMod m f (x * x % m) (e / 2)
    if e % 2 = 1 then r * x % m else r

/-- The inverse modulo a prime of 384 bits. -/
def invMod (m x : Nat) : Nat := powMod m 384 (x % m) (m - 2)

/-- The sum of two points; none is the point at infinity. -/
def ecAdd : Option (Nat × Nat) → Option (Nat × Nat) → Option (Nat × Nat)
  | none, q => q
  | q, none => q
  | some (x1, y1), some (x2, y2) =>
    let line := fun (l : Nat) =>
      let x := (l * l + 2 * ecP - x1 - x2) % ecP
      some (x, (l * (x1 + ecP - x) + ecP - y1) % ecP)
    if x1 = x2 then
      (if (y1 + y2) % ecP = 0 then none
       else line ((3 * x1 * x1 + ecP - 3) % ecP * invMod ecP (2 * y1) % ecP))
    else line ((y2 + ecP - y1) % ecP * invMod ecP (x2 + ecP - x1) % ecP)

/-- k times a point, over the f lowest bits of k. -/
def ecMul : Nat → Nat → Option (Nat × Nat) → Option (Nat × Nat)
  | 0, _, _ => none
  | f + 1, k, q =>
    let r := ecMul f (k / 2) (ecAdd q q)
    if k % 2 = 1 then ecAdd r q else r

/-- A signature (r, s) of a hash verifies under a public key. -/
def ecdsaOk (hash r s qx qy : Nat) : Bool :=
  if r = 0 || r ≥ ecN || s = 0 || s ≥ ecN || qx ≥ ecP || qy ≥ ecP || (qy * qy) % ecP ≠ (qx * qx * qx + (ecP - 3) * qx + ecB) % ecP then false
  else
    let w := invMod ecN s
    match ecAdd (ecMul 384 (hash * w % ecN) (some (ecGx, ecGy))) (ecMul 384 (r * w % ecN) (some (qx, qy))) with
    | none => false
    | some (x, _) => x % ecN == r

/-! The image (Table 16.5). -/

/-- Little-endian field of an image header. -/
def imgField (img : List Nat) (off n : Nat) : Nat := leNat ((img.drop off).take n)

/-- BODY_LEN bytes of body after the header. -/
def imgBody (img : List Nat) : List Nat := (img.drop 512).take (imgField img 8 4)

/-- An image verifies (R460). Numbers of the signature and of the key are big-endian. -/
def imageOk (img : List Nat) : Bool :=
  let key := (img.drop 20).take 97
  imgField img 0 2 == 0xA7BA && imgField img 2 1 == 1 &&
    decide (imgField img 8 4 ≤ 8388096 ∧ 512 + imgField img 8 4 ≤ img.length ∧ imgField img 12 4 ≤ 3 * 2 ^ 20) &&
    sha384 key == Config.fuseKeyHash && key.getD 0 0 == 4 &&
    ecdsaOk (sha384 (img.take 320 ++ imgBody img)) (beNum ((img.drop 320).take 48)) (beNum ((img.drop 368).take 48))
      (beNum ((key.drop 1).take 48)) (beNum ((key.drop 49).take 48)) &&
    decide (Config.fuseMinSvn ≤ imgField img 3 1)

end Sys2Proof.Machine
end

