-- ==== Sys2Proof/Machine/PowerCmd.lean ====
section
/-!
DEFINITION. The retained-state commands (16_power_and_startup R467, R468, R471, R473, R474) and the work of an FW_IMAGE job (R461).
Parameter layouts that the manual does not give are in log entry 8.
-/
namespace Sys2Proof.Machine

/-- The bytes of the stored profile (R471). -/
def Dev.profileBytes' (d : Dev) : List Nat := wordsToBytes (profileWords d.ret.profile)

/-- PROFILE_READ: words 0 and 1 the address, words 2 and 3 the length there. -/
def profileReadDef : CmdDef where
  op := 0x0C01
  mode := 0
  masks := fun _ => [0xFFFFFFFF, 0xFFFF, 0xFFFFFFFF, 0xFFFFFFFF]
  run := fun c s =>
    let bs := s.dev.profileBytes'
    if c.q 2 < bs.length then noR .noResource s
    else
      let w := memWrite s.dev s.mem (c.q 0) bs false
      if !bs.isEmpty && !w.1 then noR .badParam s
      else okR [bs.length, s.flash.gen % 2 ^ 32] { s with mem := if bs.isEmpty then s.mem else w.2 }

/-- Two records are one setting: the same opcode and the same parameter word 0 (R471). -/
def sameRec (r x : Nat × List Nat) : Bool := x.1 == r.1 && x.2.head? == r.2.head?

/-- The record in words 1 onward of a PROFILE_WRITE; none where its length does not fit the slot. -/
def Cmd.record (c : Cmd) : Option (Nat × List Nat) :=
  let n := c.b 1 31 16
  if n > 60 then none else some (c.b 1 15 0, (c.ps.drop 2).take n)

/-- The profile after a PROFILE_WRITE: OP 0 puts a record, 1 deletes it, 2 takes the whole profile from memory. -/
def profileAfter (c : Cmd) (s : State) : Except Code (List (Nat × List Nat)) :=
  let old := s.dev.ret.profile
  if c.b 0 1 0 = 2 then
    if c.q 3 > 8192 then .error .noResource
    else if c.q 3 % 4 ≠ 0 then .error .badParam
    else match readTable s.dev s.mem (c.q 1) (c.q 3) with
    | .error k => .error k
    | .ok bs =>
      let ws := (List.range (c.q 3 / 4)).map fun i => at' bs (4 * i) 4
      match profileRecs ws.length ws with
      | none => .error .badParam
      | some l => .ok l
  else match c.record with
  | none => .error .badParam
  | some r =>
    let l := if c.b 0 1 0 = 0 then putRec (sameRec r) r old else old.filter fun x => !sameRec r x
    if profileBytes l > 8192 then .error .noResource else .ok l

/-- PROFILE_WRITE (R471): the profile changes, and a commit is requested. -/
def profileWriteDef : CmdDef where
  op := 0x0C02
  mode := 0
  masks := fun c => if c.b 0 1 0 = 2 then [3, 0xFFFFFFFF, 0xFFFF, 0xFFFFFFFF, 0xFFFFFFFF] else [3]
  bad := fun c _ => c.b 0 1 0 == 3
  run := onDev fun c s =>
    let d := s.dev
    if d.run.active then noR .badState d
    else match profileAfter c s with
    | .error k => noR k d
    | .ok l =>
      let r := ({ d with ret := { d.ret with profile := l } } : Dev).commitNow .profile c.s0 c.s1
      ({ code := r.1 }, r.2)

/-- COMMIT: a job that the commit engine ends. -/
def commitDef : CmdDef where
  op := 0x0C03
  run := onDev fun c s => asJob c s.dev 0x0C03 false fun i e => e.wantCommit .user (some i)

/-- GEN and validity of a slot (R464). -/
def RSlot.status : RSlot → List Nat
  | .ok g _ _ => [g % 2 ^ 32, 1]
  | _ => [0, 0]

/-- HOLDUP_STATUS: SC_HU_RES, SC_RS_STAT, then GEN and validity of slot 0 and of slot 1. -/
def holdupStatusDef : CmdDef where
  op := 0x0C04
  masks := fun _ => [1]
  run := onDev fun c s =>
    if bit (c.p 0) 0 && s.flash.engine != .idle then noR .busy s.dev
    else
      let d := if bit (c.p 0) 0 then (s.dev.huCheck c.s0 c.s1).2 else s.dev
      okR (lohi d.huRes ++ lohi (rsStat { s with dev := d }) ++ s.flash.slot0.status ++ s.flash.slot1.status) d

/-- The image slot an FW_IMAGE writes: the one not running, or in HALTED the one it names (R461). -/
def Dev.imageSlot (d : Dev) (w3 : Nat) : Nat := if d.fwState = FW_HALTED then w3 % 2 else 1 - d.f SC_BOOT SC_BOOT_SLOT

/-- FW_IMAGE: words 0 and 1 the source in the host buffer, word 2 the length, word 3 [0] the slot in HALTED and [1] TRIAL. -/
def fwImageDef : CmdDef where
  op := 0x0C05
  masks := fun _ => [0xFFFFFFFF, 0xFFFF, 0xFFFFFFFF, 3]
  bad := fun c s =>
    let hb := if s.dev.rdN ID_HOSTBUF_BASE = 0 then 0x102300000000 else s.dev.rdN ID_HOSTBUF_BASE
    decide (c.q 0 < hb ∨ hb + 0x40000000 < c.q 0 + c.p 2 ∨ 0x800000 < c.p 2)
  run := onDev fun c s => asJob c s.dev 0x0C05 false

/-- The work of an FW_IMAGE job (R461): the image is read, the slot is written and verified, and BOOT_PREF is committed; the commit
ends the job. -/
def fwImageWork (s : State) (i : Nat) : State × Option (Code × Nat) :=
  let d := s.dev
  let j := d.job i
  if j.tally ≠ 0 then (s, none)
  else match readTable d s.mem (d.jobQ i 0) (j.params.getD 2 0) with
  | .error _ => (s, some (.badParam, 0))
  | .ok img =>
    let w3 := j.params.getD 3 0
    let slot := d.imageSlot w3
    let f := if slot = 0 then { s.flash with imgA := img } else { s.flash with imgB := img }
    if !imageOk img then ({ s with flash := f }, some (.badParam, 0))
    else
      let d1 := (d.setJob i { j with tally := 1 }).putSetting 0xFF02 [slot + bits w3 1 1 * 2]
      ({ s with flash := f, dev := d1.wantCommit .image (some i) }, none)

/-- FACTORY_DEFAULTS (R473). -/
def factoryDefaultsDef : CmdDef where
  op := 0x0C06
  masks := fun _ => [0xFFFF]
  bad := fun c _ => c.b 0 15 0 != 0xA5C3
  run := onDev fun c s =>
    let d := s.dev
    if d.run.active then noR .badState d
    else
      let r := ({ d with ret := { d.ret with profile := [], lease := {} } } : Dev).commitNow .factory c.s0 c.s1
      ({ code := r.1 }, r.2)

/-- Meanings of the retained-state commands. -/
def execProfileRead (slot : Nat) (s : State) : Host.Outcome State Fault Refusal := .next (serve profileReadDef slot 0 0 s)
def execProfileWrite (slot s0 s1 : Nat) (s : State) : Host.Outcome State Fault Refusal := .next (serve profileWriteDef slot s0 s1 s)
def execCommit (slot : Nat) (s : State) : Host.Outcome State Fault Refusal := .next (serve commitDef slot 0 0 s)
def execHoldupStatus (slot s0 s1 : Nat) (s : State) : Host.Outcome State Fault Refusal := .next (serve holdupStatusDef slot s0 s1 s)
def execFwImage (slot : Nat) (s : State) : Host.Outcome State Fault Refusal := .next (serve fwImageDef slot 0 0 s)
def execFactoryDefaults (slot s0 s1 : Nat) (s : State) : Host.Outcome State Fault Refusal := .next (serve factoryDefaultsDef slot s0 s1 s)

end Sys2Proof.Machine
end

