-- ==== Sys2Proof/Machine/Resets.lean ====
section
/-!
DEFINITION. Device resets and what they keep (16_power_and_startup R450 to R457, Table 16.3; 17_package_and_signals R483 to R490).
-/
namespace Sys2Proof.Machine

/-- A register lies in the VDD_AUX domain. -/
def auxReg (a : Nat) : Bool := match regRow a with | some r => r.aux | none => false

/-- A shutdown is latched (R408). -/
def Dev.latched (d : Dev) : Bool := d.on TH_LATCH TH_LATCH_DIGITAL || d.on TH_LATCH TH_LATCH_ANALOGUE

/-- The device with everything outside the VDD_AUX domain at its reset value (Table 16.3, R455). The model's own clock, free values
and record of outputs go on. A latched shutdown still shows (R408). -/
def Dev.afterReset (d : Dev) : Dev :=
  let h := d.host
  let e : Dev :=
    { now := d.now, fresh := d.fresh, out := d.out, regs := d.regs.filter fun r => auxReg r.1,
      tap := { ir := d.tap.ir, testEn := d.tap.testEn },
      host := { pecErr := h.pecErr, smbAlert := h.smbAlert, smbTimeouts := h.smbTimeouts },
      pwr := { huAt := d.pwr.huAt, auxOn := d.pwr.auxOn, inReset := d.pwr.inReset, causes := d.pwr.causes,
               smbAddr := d.pwr.smbAddr, auxShut := d.pwr.auxShut } }
  if d.latched then (e.setF DEVSTAT DEVSTAT_FW_STATE FW_SHUTDOWN).setF DEVSTAT DEVSTAT_THERMAL 4 else e

/-- A device reset begins, with one more cause present (Table 16.3): the memories of the device lose what they hold. It needs
VDD_AUX. -/
def beginReset (cause : Nat) (s : State) : State :=
  let d := s.dev
  if !d.pwr.auxOn then s
  else
    let old := if d.pwr.inReset then d.pwr.causes else 0
    let e := d.afterReset
    { s with mem := { host := s.mem.host }, dev := { e with pwr := { e.pwr with inReset := true, causes := old ||| 2 ^ cause } } }

/-- Bits of SC_RSTCAUSE. -/
def CAUSE_PIN : Nat := 1
def CAUSE_SUPPLY : Nat := 2
def CAUSE_SYS : Nat := 3
def CAUSE_WDOG : Nat := 4
def CAUSE_QDP : Nat := 5

/-- RESET_N (R455): a low pulse of at least 10 µs starts a device reset. -/
def execResetN (lowNs : Nat) (s : State) : Host.Outcome State Fault Refusal :=
  .next (if lowNs < 10000 then s else beginReset CAUSE_PIN s)

/-- SUPPLY_MONITOR_LOW (R450): a supply other than VDD_AUX, by its row of Table 16.1, below its threshold for more than 2 µs. -/
def execSupplyMonitorLow (supply ns : Nat) (s : State) : Host.Outcome State Fault Refusal :=
  .next (if supply = 0 ∨ supply > 10 ∨ ns ≤ 2000 then s else beginReset CAUSE_SUPPLY s)

/-- The first ordering rule broken since it was last armed is recorded (R453). -/
def Dev.noteSeq (d : Dev) (step supply : Nat) : Dev :=
  if d.on SC_PWRSEQ SC_PWRSEQ_VALID then d
  else ((d.setF SC_PWRSEQ SC_PWRSEQ_STEP step).setF SC_PWRSEQ SC_PWRSEQ_SUPPLY supply).setF SC_PWRSEQ SC_PWRSEQ_VALID 1

/-- POWER_SEQ (R452, R453): steps 2, 3 and 5 of Table 16.2 are what the monitors can see. Step 2 is followed by a device reset, and
is recorded when it was broken for more than 1 ms. -/
def execPowerSeq (step supply ns : Nat) (s : State) : Host.Outcome State Fault Refusal :=
  .next (if !s.dev.pwr.auxOn ∨ supply > 10 then s
    else if step = 2 then
      beginReset CAUSE_SUPPLY (if ns > 1000000 then { s with dev := s.dev.noteSeq 2 supply } else s)
    else if step = 3 ∨ step = 5 then { s with dev := s.dev.noteSeq step supply }
    else s)

/-- WATCHDOG_RESET (R457): 100 ms after the watchdog of logical core 0 expired, unless HOLD is 1. -/
def execWatchdogReset (s : State) : Host.Outcome State Fault Refusal :=
  .next (match s.dev.pwr.wdogDue with
    | none => s
    | some t => if decide (s.dev.now < t + 100000000) || s.dev.on SC_WDOG SC_WDOG_HOLD then s else beginReset CAUSE_WDOG s)

/-- DEVICE_RESET_AFTER_RELEASE (R380): 10 ms after the release of a SYS_RESET slot. -/
def execDeviceResetAfterRelease (s : State) : Host.Outcome State Fault Refusal :=
  .next (if s.dev.host.sysReset then beginReset CAUSE_SYS s else s)

/-- A boundary-scan instruction that holds the device in reset (R510). -/
def holdsReset (ir : Nat) : Bool := [0x00, 0x03, 0x04, 0x05, 0x06].contains ir

/-- DEVICE_RESET_END (R455, R456, R484, R490, R294): the straps are sampled, the causes recorded, and the boot ROM may start. XO_IN out
of its range begins with XO_FAULT. -/
def resetEnd (recovery testEn xoOk : Bool) (s : State) : State :=
  let d := s.dev
  if !d.pwr.inReset || !d.pwr.auxOn || holdsReset d.tap.ir then s
  else
    let e := d.afterReset
    let e1 := (e.wrN SC_RSTCAUSE (e.rdN SC_RSTCAUSE ||| d.pwr.causes)).setF SC_ID SC_ID_RECOVERY (b2n recovery)
    let e2 := { e1 with pwr := { e1.pwr with inReset := false, recovery := recovery }, tap := { e1.tap with testEn := testEn } }
    let e3 := e2.setF QD_STAT QD_STAT_TEST_EN (b2n testEn)
    { s with mem := { host := s.mem.host }, dev := if xoOk then e3 else e3.xoFail }

/-- Meaning of DEVICE_RESET_END. -/
def execDeviceResetEnd (recovery testEn xoOk : Bool) (s : State) : Host.Outcome State Fault Refusal :=
  .next (resetEnd recovery testEn xoOk s)

/-- The debug lock as the fuses leave it (R516): LEVEL takes DBG_MIN. -/
def Dev.fuseLock (d : Dev) (old : Dev) : Dev :=
  let m := old.f SC_DBG SC_DBG_DBG_MIN
  (d.setF SC_DBG SC_DBG_DBG_MIN m).setF SC_DBG SC_DBG_LEVEL m

/-- What power leaves of the flash when the engine was stopped (Table 16.8): `whole` says that page 0 had been programmed in full,
or that an erase had not yet spoilt its slot. -/
def Flash.cut (f : Flash) (whole : Bool) : Flash :=
  let one := if f.selValid then !f.sel else false
  let put := fun (x : RSlot) => if one then { f with slot1 := x, engine := .idle } else { f with slot0 := x, engine := .idle }
  match f.engine with
  | .idle => f
  | .programming | .verifying => put (if whole then .ok f.bufGen f.bufCommits f.buf else .bad)
  | .erasing =>
    if whole then { f with engine := .idle }
    else if f.selValid then put .bad
    else { f with slot0 := .bad, slot1 := .bad, engine := .idle }

/-- The whole device without power, or at a power-on reset: only flash, fuses and the outside remain. -/
def powerOff (whole aux : Bool) (straps : Nat) (s : State) : State :=
  let d := s.dev
  let e : Dev := { now := d.now, fresh := d.fresh, out := d.out, pwr := { auxOn := aux, inReset := true, smbAddr := straps } }
  { s with flash := { s.flash.cut whole with sel := false, selValid := false, bufGen := 0, bufCommits := 0, buf := {} },
           mem := { host := s.mem.host }, dev := e.fuseLock d }

/-- VDD_AUX_REMOVED (R470): programming stops, and everything is off. -/
def execVddAuxRemoved (whole : Bool) (s : State) : Host.Outcome State Fault Refusal := .next (powerOff whole false 0 s)

/-- POWER_ON_RESET (R455, R484, R486, R516): everything is reset, the SMB_ADDR straps are sampled and QSPI_RESET_N is driven low for
1 ms. -/
def execPowerOnReset (straps : Nat) (s : State) : Host.Outcome State Fault Refusal :=
  .next (let t := powerOff false true (straps % 4) s; { t with dev := t.dev.emit .pin 36 [0, 1] })

/-! Pins that follow DEVSTAT (R489). -/

/-- DEV_READY. -/
def Dev.devReady (d : Dev) : Bool := d.serving

/-- ERR_N as a level: low while ERR_SUM bit 1, 2 or 3 is set. -/
def Dev.errN (d : Dev) : Bool := d.f DEVSTAT DEVSTAT_ERR_SUM / 2 % 8 == 0

end Sys2Proof.Machine
end

