-- ==== Sys2Proof/Machine/Debug.lean ====
section
/-!
DEFINITION. The debug port, the debug lock and the self-tests (19_debug_and_test R507 to R519).
-/
namespace Sys2Proof.Machine

/-! The debug lock (R512, R516). -/

/-- The lock level in force: 0 OPEN, 1 OBSERVE, 2 CLOSED. -/
def Dev.lockLevel (d : Dev) : Nat := min 2 (d.f SC_DBG SC_DBG_LEVEL)

/-! Halt, resume and step (R513, R514). -/

/-- The core that QDP selects. -/
def Dev.qdpCore (d : Dev) : Nat := d.f QD_CTRL QD_CTRL_CORE

/-- HALT: at the first boundary that R327 allows. -/
def Dev.qdpHalt (d : Dev) (c : Nat) : Dev := d.coreStop c 1

/-- RESUME of a core that QDP halted: at its PC, its watchdog going on from where it was frozen. -/
def Dev.qdpResume (d : Dev) (c : Nat) : Dev :=
  let x := d.core c
  if x.qhalt = 0 ∨ d.coreState c ≠ CORE_HALTED then d
  else (d.setCore c { x with qhalt := 0, skipBp := true, wdogAt := x.wdogAt + (d.now - x.haltAt) }).setCoreState c CORE_RUN

/-- STEP: one instruction, a branch with its delay slots and a REP with its repetitions counting as one. -/
def qdpStep (c : Nat) (s : State) : State :=
  if (s.dev.core c).qhalt = 0 ∨ s.dev.coreState c ≠ CORE_HALTED then s
  else
    let s1 := { s with dev := s.dev.qdpResume c }
    let s2 := toBoundary c (2 ^ 24 + 4) (stepCore c s1)
    if s2.dev.coreState c = CORE_RUN then { s2 with dev := s2.dev.coreHalt c 4 } else s2

/-- QDP is there to be used: its instruction is in the instruction register and the lock is open. -/
def Dev.qdpOpen (d : Dev) : Bool := d.tap.ir == 0x10 && d.lockLevel == 0

/-- HALT. -/
def execHalt (s : State) : Host.Outcome State Fault Refusal :=
  nextDev s (if s.dev.qdpOpen then s.dev.qdpHalt s.dev.qdpCore else s.dev)

/-- QDP_RESUME. -/
def execQdpResume (s : State) : Host.Outcome State Fault Refusal :=
  nextDev s (if s.dev.qdpOpen then s.dev.qdpResume s.dev.qdpCore else s.dev)

/-- STEP. -/
def execStep (s : State) : Host.Outcome State Fault Refusal := .next (if s.dev.qdpOpen then qdpStep s.dev.qdpCore s else s)

/-- DEV_RESET: a device reset with the cause QDP. -/
def execDevReset (s : State) : Host.Outcome State Fault Refusal := .next (if s.dev.qdpOpen then beginReset CAUSE_QDP s else s)

/-! The TAP (R507, R508, R510). -/

/-- The instruction that a code acts as: BYPASS when Table 19.1 does not list it, when the lock forbids it or when supplies are
missing. -/
def Dev.tapCode (d : Dev) (code : Nat) (supplies : Bool) : Nat :=
  if code = 0x02 then code
  else if !supplies then 0xFF
  else if code = 0x01 ∨ code = 0x10 then code
  else if holdsReset code && d.lockLevel == 0 then code
  else 0xFF

/-- IDCODE (R508). -/
def idCode : Nat := 1 + Config.jepKamlys % 2 ^ 11 * 2 + 0xA409 * 2 ^ 12 + 2 * 2 ^ 28

/-- INSTRUCTION_LOAD: a boundary-scan instruction holds the device in reset. -/
def execInstructionLoad (code : Nat) (supplies : Bool) (s : State) : Host.Outcome State Fault Refusal :=
  let d := s.dev
  .next (if !d.pwr.auxOn then s
    else
      let c := d.tapCode (code % 256) supplies
      let d1 := { d with tap := { d.tap with ir := c } }
      let d2 := if c = 0x02 then d1.emit .tdo c [idCode] else d1
      if holdsReset c then beginReset CAUSE_QDP { s with dev := d2 } else { s with dev := d2 })

/-- TAP_RESET: the instruction register holds IDCODE, and no access is under way. -/
def execTapReset (s : State) : Host.Outcome State Fault Refusal :=
  nextDev s { s.dev with tap := { s.dev.tap with ir := 0x02, data := 0, status := 0, late := none } }

/-! QDP accesses (R511 to R515). -/

/-- QD_STAT as it reads. -/
def Dev.qdStat (d : Dev) : Nat :=
  let c := d.qdpCore
  let q := (d.core c).qhalt
  let v := d.rdN QD_STAT
  d.coreState c + b2n (q != 0) * 8 + q * 16 + (v &&& 0x80) + d.f SC_DBG SC_DBG_LEVEL * 256 + (v &&& 0xC00)

/-- A register of the selected core and bank through the core state port (R514): the raw value, with no limiting. -/
def Dev.cregRead (d : Dev) (code : Nat) : Nat :=
  let c := d.qdpCore
  let x := d.core c
  if code = RC_SR then d.coreSr c
  else if RC_LC ≤ code ∧ code ≤ RC_LE then
    match x.ctx.loops with
    | (ls, le, lc) :: _ => if code = RC_LC then lc else if code = RC_LS then ls else le
    | [] => 0
  else x.final (regKey (d.coreCs c) (d.f QD_CTRL QD_CTRL_BANK) code)

/-- The same register written. -/
def Dev.cregWrite (d : Dev) (code v : Nat) : Dev :=
  let c := d.qdpCore
  let x := (d.core c).drain
  let w := v % 2 ^ 24
  if code = RC_SR then d.setCore c (x.restoreSr (d.coreCs c) w)
  else if RC_LC ≤ code ∧ code ≤ RC_LE then
    match x.ctx.loops with
    | (ls, le, lc) :: r =>
      let e := if code = RC_LC then (ls, le, w) else if code = RC_LS then (w, le, lc) else (ls, w, lc)
      d.setCore c { x with ctx := { x.ctx with loops := e :: r } }
    | [] => d
  else
    let m := if RC_AG ≤ code ∧ code < RC_TPC then w % 256 else w
    d.setCore c { x with regs := tset coreReset x.regs (regKey (d.coreCs c) (d.f QD_CTRL QD_CTRL_BANK) code) m }

/-- QD_ADDR as a system address. -/
def Dev.qdAddr (d : Dev) : Nat := d.rdN (QD_ADDR 0) + d.rdN (QD_ADDR 1) % 2 ^ 16 * 2 ^ 32

/-- QD_ADDR advanced by 4 where AUTOINC is set. -/
def Dev.qdAdvance (d : Dev) : Dev :=
  if !d.on QD_CTRL QD_CTRL_AUTOINC then d
  else
    let a := (d.qdAddr + 4) % 2 ^ 48
    (d.wrN (QD_ADDR 0) (a % 2 ^ 32)).wrN (QD_ADDR 1) (a / 2 ^ 32)

/-- A read through QD_DATA (R515): an answer with data, or status 3; poison is noted and its data not returned. -/
def qdRead (s : State) : Nat × Nat × State :=
  let r := busRead 11 (s.dev.qdAddr / 4 * 4) 4 s
  let d := r.2.dev.qdAdvance
  if r.1.kind ≠ .ok then (0, 3, { r.2 with dev := d })
  else if r.1.poison then (0, 3, { r.2 with dev := d.setF QD_STAT QD_STAT_POISON 1 })
  else (leNat r.1.data, 0, { r.2 with dev := d })

/-- The end of a QD_DATA write: its status, a change of the device and the address's advance. -/
def qdDone (f : Dev → Dev) (w : Bool × State) : Nat × State :=
  (if w.1 then 0 else 3, { w.2 with dev := (f w.2.dev).qdAdvance })

/-- The answer of an access that wrote `v`. -/
def qdAnswer (v : Nat) (w : Nat × State) : Nat × Nat × State := (v, w.1, w.2)

/-- A write through QD_DATA (R515): into a block window only while logical core 0 is halted, and then as firmware's own; QDP alone
writes HOLD (R457). -/
def qdWrite (v : Nat) (s : State) : Nat × State :=
  let a := s.dev.qdAddr / 4 * 4
  if (s.dev.route a).1 = .blocks then
    if s.dev.coreState (s.dev.physOf 0) ≠ CORE_HALTED then qdDone (fun d => d.regDrop a 11) (false, s)
    else qdDone (fun d => if a = SC_WDOG then d.setF SC_WDOG SC_WDOG_HOLD (v % 2) else d) (regWrite 0 a 4 v s)
  else qdDone id (busWrite 11 a (leBytes 4 v) [] s)

/-- A write of QD_CTRL. -/
def qdCtrl (v : Nat) (s : State) : State :=
  let d := (s.dev.wrN QD_CTRL (v &&& 0x163)).setF SC_WDOG SC_WDOG_HOLD (bits v 8 8)
  let c := d.qdpCore
  let s1 := { s with dev := if bit v 2 then d.qdpHalt c else d }
  let s2 := if bit v 3 then { s1 with dev := s1.dev.qdpResume c } else s1
  let s3 := if bit v 4 then qdpStep c s2 else s2
  if bit v 7 then beginReset CAUSE_QDP s3 else s3

/-- What an access needs to be allowed at OBSERVE: QD_ID and QD_STAT always, QD_ADDR and reads through QD_DATA of block windows and
working SRAM; at CLOSED the first two (R512). -/
def Dev.qdAllowed (d : Dev) (addr : Nat) (write : Bool) : Bool :=
  let t := (d.route (d.qdAddr / 4 * 4)).1
  addr == 0 || addr == 2 || d.lockLevel == 0 ||
    (d.lockLevel == 1 && (addr == 4 || addr == 5 || (addr == 6 && !write && (t == .blocks || t == .sram))))

/-- One access of Table 19.2: data, status and what it leaves. -/
def qdAccess (addr : Nat) (write : Bool) (v : Nat) (s : State) : Nat × Nat × State :=
  let d := s.dev
  let c := d.qdpCore
  let reg := fun (a : Nat) => if write then (v, 0, { s with dev := d.wrN a v }) else (d.rdN a, 0, s)
  if !d.qdAllowed addr write then (0, 2, s)
  else if addr = 0 then (d.f SC_ID SC_ID_STEPPING + 0x413430 * 256, 0, s)
  else if addr = 1 then
    if write then (v, 0, qdCtrl v s) else (d.rdN QD_CTRL + b2n ((d.core c).qhalt != 0) * 4, 0, s)
  else if addr = 2 then
    if write then (v, 0, { s with dev := d.wrN QD_STAT (d.rdN QD_STAT &&& (0xFFFFFFFF ^^^ (v &&& 0x480))) }) else (d.qdStat, 0, s)
  else if addr = 4 then reg (QD_ADDR 0)
  else if addr = 5 then (if write then (v, 0, { s with dev := d.wrN (QD_ADDR 1) (v % 2 ^ 16) }) else (d.rdN (QD_ADDR 1), 0, s))
  else if addr = 6 then (if write then qdAnswer v (qdWrite v s) else qdRead s)
  else if 0x40 ≤ addr ∧ addr < 0x80 then
    if d.coreState c = CORE_RUN ∨ !codeOk (addr - 0x40) then (0, 3, s)
    else if write then (v, 0, { s with dev := d.cregWrite (addr - 0x40) v }) else (d.cregRead (addr - 0x40), 0, s)
  else if 0x100 ≤ addr ∧ addr < 0x108 then
    if addr % 2 = 0 then reg (QD_BP c ((addr - 0x100) / 2)) else (0, 0, s)
  else if 0x110 ≤ addr ∧ addr < 0x118 then reg (QD_WP c ((addr - 0x110) / 4) (addr % 4))
  else (0, 0, s)

/-- QDP_ACCESS (R511): a scan of 45 bits. Capture-DR gives the data and status of the last completed access; while one still runs it
gives busy, and the access scanned in is discarded. `slow` says that the new access still runs at the next Capture-DR. -/
def qdpScan (scan : Nat) (slow : Bool) (s : State) : State :=
  let d := s.dev
  if d.tap.ir ≠ 0x10 then s
  else match d.tap.late with
  | some (x, st) =>
    { s with dev := { d.emit .tdo 0x10 [d.tap.data, 1] with tap := { d.tap with data := x, status := st, late := none } } }
  | none =>
    let r := qdAccess (bits scan 43 32) (bit scan 44) (scan % 2 ^ 32) { s with dev := d.emit .tdo 0x10 [d.tap.data, d.tap.status] }
    let t := r.2.2.dev.tap
    let x := if r.2.1 = 0 then r.1 else d.tap.data
    let t1 := if slow then { t with late := some (x, r.2.1) } else { t with data := x, status := r.2.1 }
    { r.2.2 with dev := { r.2.2.dev with tap := t1 } }

/-- Meaning of QDP_ACCESS. -/
def execQdpAccess (scan : Nat) (slow : Bool) (s : State) : Host.Outcome State Fault Refusal := .next (qdpScan scan slow s)

/-! DEBUG_LOCK (R516). -/

/-- The level is raised: breakpoints and watchpoints off, cores that QDP halted resume, HOLD cleared, a waiting access denied. -/
def Dev.lockRaised (d : Dev) : Dev :=
  let d1 := [0, 1, 2, 3].foldl (fun (e : Dev) c =>
    let e1 := [0, 1, 2, 3].foldl (fun (x : Dev) k => x.wrN (QD_BP c k) (x.rdN (QD_BP c k) % 2 ^ 31)) e
    ([0, 1].foldl (fun (x : Dev) k => x.wrN (QD_WP c k 3) (x.rdN (QD_WP c k 3) % 2 ^ 31)) e1).qdpResume c) d
  let late := match d1.tap.late with | some _ => some (0, 2) | none => none
  ({ d1 with tap := { d1.tap with late := late } } : Dev).setF SC_WDOG SC_WDOG_HOLD 0

/-- DEBUG_LOCK: word 0 [1:0] LEVEL, [2] BURN, [31:16] CONFIRM. -/
def debugLockDef : CmdDef where
  op := 0x0D03
  masks := fun _ => [0xFFFF0007]
  bad := fun c s =>
    let d := s.dev
    c.b 0 1 0 < d.f SC_DBG SC_DBG_DBG_MIN ||
      ((c.b 0 1 0 < d.f SC_DBG SC_DBG_LEVEL || bit (c.p 0) 2) && c.b 0 31 16 != 0xA5C3)
  run := onDev fun c s =>
    let d := s.dev
    let l := c.b 0 1 0
    let d1 := d.setF SC_DBG SC_DBG_LEVEL l
    let d2 := if bit (c.p 0) 2 then d1.setF SC_DBG SC_DBG_DBG_MIN l else d1
    let d3 := if d.f SC_DBG SC_DBG_LEVEL < l then d2.lockRaised else d2
    okR [] (if d2.rd SC_DBG = d.rd SC_DBG then d3 else d3.raise 0x000E 0xFF 0 l)

/-! Self-tests (R517, R518, R393). -/

/-- A checker that failed its test (R393). -/
def chkFail (k u : Nat) (s : State) : State :=
  let d := s.dev.raise 0x0B05 k 0 u
  if k = 2 ∧ (u = 1 ∨ u = 2) then (if d.reserveOk then tuckCore u { s with dev := d } else { s with dev := d })
  else if k = 3 ∧ u < 68 then
    { s with dev := if d.tileRole u = 0 then (d.tuckTile u).getD (d.retireTile u) else d.retireTile u }
  else if k = 5 ∧ u < 64 then { s with dev := d.chanFailed u }
  else if k = 6 ∧ u < 8 then { s with dev := d.chanFailed (64 + u) }
  else { s with dev := d }

/-- Units a test can name. -/
def testUnits : Nat → List Nat
  | 1 => List.range 4
  | 2 => List.range 68
  | 3 => List.range 7
  | 4 => List.range 80
  | 5 => List.range 52
  | _ => []

/-- The unit is in the state that Table 19.3 requires. -/
def Dev.testReady (d : Dev) (code inst : Nat) : Bool :=
  match code with
  | 1 => inst != 0 && (d.coreState (d.physOf inst) == CORE_RESET || d.coreState (d.physOf inst) == CORE_HALTED)
  | 2 => d.tileRole inst == 1 && d.run.audit.map (·.2) != some inst
  | 4 => d.f (LN_STAT inst) LN_STAT_STATE == 0
  | _ => true

/-- SELFTEST: word 0 [2:0] CODE, [15:8] INST; a job. -/
def selftestDef : CmdDef where
  op := 0x0D01
  masks := fun _ => [0xFF07]
  bad := fun c _ => !(testUnits (c.b 0 2 0)).contains (c.b 0 15 8)
  run := onDev fun c s =>
    if s.dev.testReady (c.b 0 2 0) (c.b 0 15 8) then asJob c s.dev (0x0D0000 + c.b 0 2 0 * 256 + c.b 0 15 8) false else noR .badState s.dev

/-- What a failed self-test does to its unit (Table 19.3); `bad` names the failing units of a memory class. -/
def testFailed (code inst : Nat) (bad : List Nat) (s : State) : State :=
  let d := s.dev.raise 0x000D inst 0 code
  match code with
  | 1 =>
    if inst = 3 then { s with dev := s.dev.retireReserve }
    else if d.reserveOk then tuckCore inst { s with dev := d } else { s with dev := d }
  | 2 => { s with dev := ({ d with run := { d.run with tested := d.run.tested.filter (· != inst) } } : Dev).retireTile inst }
  | 3 =>
    let t := bad.foldl (fun x u => chkFail inst u x) { s with dev := d }
    if inst = 1 ∨ (inst = 2 ∧ bad.contains 0) then { t with dev := t.dev.setFw FW_HALTED } else t
  | 4 => { s with dev := ((d.setLane inst { d.lane inst with rxFailed := true, txFailed := true }).laneFailed inst) }
  | 5 => { s with dev := d.elementFails inst }
  | _ => s

/-- The work of a SELFTEST job: `bad` names the units that failed, none when the test passed. A core test leaves the core's memories
overwritten. -/
def selftestWork (bad : List Nat) (s : State) (i : Nat) : State × Option (Code × Nat) :=
  let w := (s.dev.job i).params.getD 0 0
  let code := bits w 2 0
  let inst := bits w 15 8
  let s1 := if code = 1 then coreTested inst s else s
  let d := s1.dev.noteTest code inst (b2n (!bad.isEmpty))
  let d1 := if code = 2 ∧ bad.isEmpty then { d with run := { d.run with tested := inst :: d.run.tested.filter (· != inst) } } else d
  let s2 := { s1 with dev := d1 }
  if bad.isEmpty then (s2, some (.ok, 0)) else (testFailed code inst bad s2, some (.hwFault, 0))

/-- The record of a test of a unit (R518): 16 bytes. -/
def Dev.testRecord (d : Dev) (code inst : Nat) : List Nat :=
  let r := (tget (fun _ => none) d.pwr.selftests (256 * code + inst)).getD (2, 0, 0)
  [code + inst * 256 + r.1 * 2 ^ 16, r.2.1 % 2 ^ 32] ++ lohi r.2.2

/-- SELFTEST_RESULT. -/
def selftestResultDef : CmdDef where
  op := 0x0D02
  run := onDev fun _ s =>
    okR ([1, 2, 3, 4, 5].flatMap fun t => (testUnits t).flatMap fun u => s.dev.testRecord t u) s.dev

/-- Meanings of the test commands. -/
def execSelftest (slot : Nat) (s : State) : Host.Outcome State Fault Refusal := .next (serve selftestDef slot 0 0 s)
def execSelftestResult (slot : Nat) (s : State) : Host.Outcome State Fault Refusal := .next (serve selftestResultDef slot 0 0 s)
def execDebugLock (slot : Nat) (s : State) : Host.Outcome State Fault Refusal := .next (serve debugLockDef slot 0 0 s)

end Sys2Proof.Machine
end

