-- ==== Sys2Proof/Machine/NetRx.lean ====
section
/-!
DEFINITION. What a port does with a received frame: the filter, flow control, ARP, Neighbour Discovery, echo, PTP, and ACP
receive bindings (08_network_and_time R244 to R247, R254, R257).
-/
namespace Sys2Proof.Machine

/-! Flow control (R245 to R247). -/

/-- The address of MAC control frames, 01-80-C2-00-00-01. -/
def CTRL_MAC : Nat := leNat [0x01, 0x80, 0xC2, 0, 0, 1]

/-- A priority of a port is paused or not. -/
def Dev.setPaused (d : Dev) (m pri : Nat) (on : Bool) (at_ : Option Nat) : Dev :=
  let p := d.port m
  let v := d.f (EM_STAT m) EM_STAT_PAUSED
  (d.setPort m { p with pausedAt := tset (fun _ => none) p.pausedAt pri at_ }).setF (EM_STAT m) EM_STAT_PAUSED
    (if on then v ||| 2 ^ pri else if bit v pri then v - 2 ^ pri else v)

/-- A priority is stormed. -/
def Dev.stormed (d : Dev) (m pri : Nat) : Bool := bit (d.f (EM_STAT m) EM_STAT_STORM) pri

/-- A PFC frame: each priority it names and the port honours is paused for its time or released; a stormed one ignores it
(R245, R246). -/
def Dev.pfcRx (d : Dev) (m : Nat) (b : List Nat) : Dev :=
  let d1 := d.cntF (EMC_PFC m) LO32 1
  if !d.on (EM_CTRL m) EM_CTRL_PFC_RX_EN then d1
  else (List.range 8).foldl
    (fun (e : Dev) pri =>
      if !bit (beAt b 2 2) pri || !bit (d.f (EM_CTRL m) EM_CTRL_PFC_PRI) pri then e
      else if e.stormed m pri then e.setPaused m pri false (some e.now)
      else if beAt b (4 + 2 * pri) 2 = 0 then e.setPaused m pri false none
      else e.setPaused m pri true (some ((tget (fun _ => none) (e.port m).pausedAt pri).getD e.now))) d1

/-- PFC_PAUSE_END: the time of a pause has run out. -/
def execPfcPauseEnd (port pri : Nat) (s : State) : Host.Outcome State Fault Refusal := nextDev s (
  if port < 20 ∧ pri < 8 ∧ !s.dev.stormed port pri then s.dev.setPaused port pri false none else s.dev)

/-- PFC_STORM: a priority has been paused for WDOG_MS without a break (R246). -/
def execPfcStorm (port pri : Nat) (s : State) : Host.Outcome State Fault Refusal := nextDev s (
  let d := s.dev
  if port ≥ 20 ∨ pri ≥ 8 ∨ !bit (d.f (EM_STAT port) EM_STAT_PAUSED) pri then d
  else
    ((((d.setPaused port pri false (some d.now)).setF (EM_STAT port) EM_STAT_STORM
      (d.f (EM_STAT port) EM_STAT_STORM ||| 2 ^ pri)).cnt (EMC_PFC_STORM port) 1).raise 0x0D01 port 0 pri))

/-- STORM_CLEAR: 1 s has passed with no PFC frame for a stormed priority (R246). -/
def execStormClear (port pri : Nat) (s : State) : Host.Outcome State Fault Refusal := nextDev s (
  let d := s.dev
  if port < 20 ∧ d.stormed port pri then
    (d.setF (EM_STAT port) EM_STAT_STORM (d.f (EM_STAT port) EM_STAT_STORM - 2 ^ pri)).setPaused port pri false none
  else d)

/-- A PFC frame for TX_PRI with a quantum leaves the port (R247). -/
def Dev.pfcTx (d : Dev) (m quantum : Nat) : Dev :=
  if !d.portSends m then d
  else
    let pri := d.f (EM_PFC m) EM_PFC_TX_PRI
    (d.sendFrame m (ethHeader CTRL_MAC (d.port m).mac none 0x8808 ++ [1, 1] ++ beBytes 2 (2 ^ pri) ++
      (List.range 8).flatMap fun k => beBytes 2 (if k = pri then quantum else 0))).cntF (EMC_PFC m) HI32 1

/-- The ACP receive buffer of a port takes a fill level, in percent: past 75 it sends a pause, below 50 it releases it (R247). -/
def Dev.setFill (d : Dev) (m fill : Nat) : Dev :=
  let p := d.port m
  let d1 := d.setPort m { p with fill := fill }
  if !d.on (EM_CTRL m) EM_CTRL_PFC_TX_EN then d1
  else if fill > 75 ∧ !p.pfcSent then (d1.setPort m { p with fill := fill, pfcSent := true }).pfcTx m 0xFFFF
  else if fill < 50 ∧ p.pfcSent then (d1.setPort m { p with fill := fill, pfcSent := false }).pfcTx m 0
  else d1

/-- PFC_RENEW: half a quantum after a pause was sent, with the fill level now: the pause is renewed, or released below 50 %. -/
def execPfcRenew (port fill : Nat) (s : State) : Host.Outcome State Fault Refusal := nextDev s (
  let d := s.dev.setFill port fill
  if port < 20 ∧ s.dev.on (EM_CTRL port) EM_CTRL_PFC_TX_EN ∧ (s.dev.port port).pfcSent ∧ fill ≥ 50 then d.pfcTx port 0xFFFF else d)

/-! Bindings (Table 8.9, R257). -/

/-- Bits of a binding's bytes. -/
def Binding.at (b : Binding) (off n : Nat) : Nat := at' b.bytes off n

/-- A binding takes a UDP packet: port, destination port and, where it matches a source, the source address; a group there is
matched with the destination, which a port joins for it (log entry 15). -/
def Binding.takes (b : Binding) (m : Nat) (v6 : Bool) (src dst dport : Nat) : Bool :=
  let want := if bit (b.at 1 1) 1 then b.at 4 16 else b.at 4 4
  b.at 0 1 % 32 == m && b.at 2 2 == dport &&
    (!bit (b.at 1 1) 0 || (bit (b.at 1 1) 1 == v6 && want == (if isGroup v6 want then dst else src)))

/-- The groups that a port's bindings name. -/
def Dev.joined (d : Dev) (m : Nat) : List (Bool × Nat) :=
  (d.net.bind.filterMap fun b =>
    let v6 := bit (b.at 1 1) 1
    let ip := if v6 then b.at 4 16 else b.at 4 4
    if b.at 0 1 % 32 == m && bit (b.at 1 1) 0 && isGroup v6 ip then some (v6, ip) else none).eraseDups

/-- The device with binding k's counter advanced; the places are those of Table 2.10, 18 SEQ_GAP and 19 SEQ_REV. -/
def Dev.bindCnt (d : Dev) (k c n : Nat) : Dev :=
  match d.net.bind[k]? with
  | none => d
  | some b =>
    let b1 := { b with cnt := tset (fun _ => 0) b.cnt c (satAdd 64 (tget (fun _ => 0) b.cnt c) n) }
    { d with net := { d.net with bind := d.net.bind.set k b1 } }

/-- The form of a SPECTRA packet is right: TYPE, FMT and the equation of R256. -/
def acpFormOk (b : Binding) (x : List Nat) : Bool :=
  let fmt := at' x 15 1
  (fmt == 1 || fmt == 2) && fmt == b.at 23 1 % 16 && at' x 28 1 ≤ 12 && at' x 29 1 ≤ 12 && at' x 30 1 ≤ 8 &&
    2 ^ (at' x 28 1 + at' x 29 1 + at' x 30 1) * fmtW (fmt == 2) == at' x 36 2 && at' x 16 8 % 2 ^ at' x 30 1 == 0

/-- The range of a SPECTRA packet lies in the window of its binding. -/
def acpRangeOk (b : Binding) (x : List Nat) : Bool :=
  b.at 24 2 ≤ at' x 24 2 && at' x 24 2 + 2 ^ at' x 28 1 - 1 ≤ b.at 26 2 && b.at 28 2 ≤ at' x 26 2 &&
    at' x 26 2 + 2 ^ at' x 29 1 - 1 ≤ b.at 30 2

/-- The SEQ of a packet against the one expected (R257). -/
def Dev.acpSeq (d : Dev) (k seq : Nat) : Dev :=
  match d.net.bind[k]? with
  | none => d
  | some b =>
    let d1 := match b.expSeq with
      | none => d
      | some e =>
        let q := serialDiff seq e 32
        if q > 0 then d.bindCnt k 18 q.toNat else if q < 0 then d.bindCnt k 19 1 else d
    let b1 := d1.net.bind.getD k b
    { d1 with net := { d1.net with bind := d1.net.bind.set k { b1 with expSeq := some ((seq + 1) % 2 ^ 32) } } }

/-- A SPECTRA packet past its checks: continuity, then alignment (R62, R257, R24). -/
def Dev.acpSpectra (d : Dev) (k : Nat) (b : Binding) (x data : List Nat) : Dev :=
  let i0 := at' x 24 2
  let c0 := at' x 26 2
  let t := continuity b.tracks i0 (at' x 28 1) c0 (at' x 29 1) (at' x 30 1) (at' x 16 8 % 2 ^ 48)
  let d1 := { d with net := { d.net with bind := d.net.bind.set k { d.net.bind.getD k b with tracks := t.2 } } }
  let d2 := (match t.1 with | 1 => d1.bindCnt k 8 1 | 2 => d1.bindCnt k 9 1 | _ => d1).bindCnt k 0 1
  let r := d2.align (bit (at' x 4 2) 0) (at' x 16 8 % 2 ^ 48) i0 (at' x 28 1) c0 (at' x 29 1) (payloadCodes (at' x 15 1 == 2) data)
  let d3 := if r.2.dup then r.1.bindCnt k 10 1 else r.1
  let d4 := if r.2.late then d3.bindCnt k 11 1 else d3
  if r.2.early then d4.bindCnt k 12 1 else d4

/-- An ACP packet at a binding, through the checks of R257 in their order. -/
def Dev.acpRx (d : Dev) (k : Nat) (x : List Nat) : Dev :=
  match d.net.bind[k]? with
  | none => d
  | some b =>
    let data := (x.drop 64).take (at' x 36 2)
    let type := at' x 3 1
    if x.length < 64 ∨ at' x 60 4 ≠ crc32c (x.take 60) then d.bindCnt k 3 1
    else if x.length < 64 + at' x 36 2 ∨ at' x 40 4 ≠ crc32c data then d.bindCnt k 4 1
    else if at' x 0 2 ≠ 0xA7B2 ∨ at' x 2 1 ≠ 1 ∨ type < 1 ∨ type > 4 ∨ (type = 1 ∧ !acpFormOk b x) then d.bindCnt k 5 1
    else if at' x 12 2 ≠ b.at 20 2 ∨ at' x 14 1 ≠ b.at 22 1 then d.bindCnt k 6 1
    else if type = 1 ∧ !acpRangeOk b x then d.bindCnt k 7 1
    else
      let d1 := if type = 4 then d else d.acpSeq k (at' x 8 4)
      if type = 1 then d1.acpSpectra k b x data else if type = 3 then d1.trigReceived 5 (data.take 64) else d1

/-! Control protocols (R254). -/

/-- An IPv6 address is the port's own. -/
def Port.own6 (p : Port) (ip : Nat) : Bool := ip != 0 && (ip == p.v6a || ip == p.v6b)

/-- The MAC address with which a port answers for an IPv4 address: its own, or the service address while it holds the lease (R419). -/
def Dev.answers4 (d : Dev) (m ip : Nat) : Option Nat :=
  if ip = 0 then none
  else if ip = (d.port m).v4 then some (d.port m).mac
  else if (d.svcNow m).any fun x => x.1 == ip then some d.ret.lease.mac else none

/-- The same for an IPv6 address. -/
def Dev.answers6 (d : Dev) (m ip : Nat) : Option Nat :=
  if ip = 0 then none
  else if (d.port m).own6 ip then some (d.port m).mac
  else if (d.svcNow m).any fun x => x.2 == ip then some d.ret.lease.mac else none

/-- ARP: an address is learnt, and a request for an address of the port answered. -/
def Dev.arpRx (d : Dev) (m : Nat) (b : List Nat) : Dev :=
  let d1 := d.learn m false (at' b 14 4) (at' b 8 6)
  if beAt b 6 2 ≠ 1 then d1
  else match d.answers4 m (at' b 24 4) with
  | some mac => d1.sendControl m (ethHeader (at' b 8 6) mac none 0x0806 ++ [0, 1, 8, 0, 6, 4, 0, 2] ++ leBytes 6 mac ++ (b.drop 24).take 4 ++
      (b.drop 8).take 6 ++ (b.drop 14).take 4)
  | none => d1

/-- An echo reply is due: at most 100 in a second on a port. -/
def Dev.echoDue (d : Dev) (m : Nat) : Bool × Dev :=
  let p := d.port m
  let n := if p.sec = d.todSec then p.echoCount else 0
  let k := if p.sec = d.todSec then p.ptpCount else 0
  (decide (n < 100), d.setPort m { p with sec := d.todSec, ptpCount := k, echoCount := if n < 100 then n + 1 else n })

/-- ICMP over IPv4: an echo request to the port's address is answered. -/
def Dev.icmpRx (d : Dev) (m smac src dst : Nat) (b : List Nat) : Dev :=
  let p := d.port m
  if beAt b 0 1 = 8 ∧ dst = p.v4 then
    let e := d.echoDue m
    let r := [0, 0, 0, 0] ++ b.drop 4
    if e.1 then e.2.sendControl m (ethHeader smac p.mac none 0x0800 ++ ip4Header p.v4 src 1 0 64 r.length ++
      [0, 0] ++ beBytes 2 (inetSum r) ++ b.drop 4) else e.2
  else d

/-- Membership reports for the groups of one version that a port's bindings name: IGMPv3 or MLDv2 (R254). -/
def Dev.reportGroups (d : Dev) (m : Nat) (v6 : Bool) : Dev :=
  let p := d.port m
  let gs := (d.joined m).filter fun g => g.1 == v6
  if gs.isEmpty then d
  else if v6 then
    let all := leNat ([0xFF, 0x02] ++ List.replicate 13 0 ++ [0x16])
    let msg := [143, 0, 0, 0, 0, 0] ++ beBytes 2 gs.length ++ gs.flatMap fun g => [4, 0, 0, 0] ++ leBytes 16 g.2
    let ck := inetSum (pseudo true p.v6a all 58 msg.length ++ msg)
    let b := msg.take 2 ++ beBytes 2 ck ++ msg.drop 4
    d.sendControl m (ethHeader (groupMac true all) p.mac none 0x86DD ++ ip6Header p.v6a all 0 0 1 (8 + b.length) ++
      [58, 0, 5, 2, 0, 0, 1, 0] ++ b)
  else
    let all := leNat [224, 0, 0, 22]
    let msg := [0x22, 0, 0, 0, 0, 0] ++ beBytes 2 gs.length ++ gs.flatMap fun g => [4, 0, 0, 0] ++ leBytes 4 g.2
    let b := msg.take 2 ++ beBytes 2 (inetSum msg) ++ msg.drop 4
    d.sendControl m (ethHeader (groupMac false all) p.mac none 0x0800 ++ ip4Header p.v4 all 2 0 1 b.length ++ b)

/-- ICMPv6: solicitations and advertisements, echo requests and listener queries. -/
def Dev.icmp6Rx (d : Dev) (m smac src : Nat) (dst : Nat) (b : List Nat) : Dev :=
  let p := d.port m
  match beAt b 0 1 with
  | 135 =>
    let target := at' b 8 16
    let d1 := if beAt b 24 1 = 1 then d.learn m true src (at' b 26 6) else d
    match d.answers6 m target with
    | some mac => d1.sendControl m (icmp6Frame smac mac target src 255
        ([136, 0, 0, 0, 0x60, 0, 0, 0] ++ leBytes 16 target ++ [2, 1] ++ leBytes 6 mac))
    | none => d1
  | 136 => if beAt b 24 1 = 2 then d.learn m true (at' b 8 16) (at' b 26 6) else d
  | 128 =>
    if p.own6 dst then
      let e := d.echoDue m
      if e.1 then e.2.sendControl m (icmp6Frame smac p.mac dst src 64 ([129, 0, 0, 0] ++ b.drop 4)) else e.2
    else d
  | 130 => d.reportGroups m true
  | _ => d

/-! The filter (R244). -/

/-- PTP multicast addresses (log entry 14). -/
def ptpMacs : List Nat :=
  [leNat [0x01, 0x1B, 0x19, 0, 0, 0], leNat [0x01, 0x80, 0xC2, 0, 0, 0x0E], groupMac false (leNat [224, 0, 1, 129]),
   groupMac false (leNat [224, 0, 0, 107]), leNat [0x33, 0x33, 0, 0, 1, 0x81], leNat [0x33, 0x33, 0, 0, 0, 0x6B]]

/-- Groups every port that has an address listens to: all systems, and the solicited-node groups (log entry 15). -/
def Port.groupMacs (p : Port) : List Nat :=
  [leNat [0x01, 0, 0x5E, 0, 0, 1], leNat [0x33, 0x33, 0, 0, 0, 1], groupMac true (solicited p.v6a), groupMac true (solicited p.v6b)]

/-- The destination address is one the port accepts. -/
def Dev.acceptsDst (d : Dev) (m dst type : Nat) : Bool :=
  let p := d.port m
  dst == p.mac || (dst == 2 ^ 48 - 1 && type == 0x0806) || ptpMacs.contains dst || p.groupMacs.contains dst ||
    ((d.joined m).any fun g => groupMac g.1 g.2 == dst) ||
    (d.svcNow m).any fun x => dst == d.ret.lease.mac || dst == groupMac true (solicited x.2)

/-- A frame discarded. -/
def Dev.rxDrop (d : Dev) (m : Nat) : Dev := d.cntF (EMC_RX_DROP m) LO32 1

/-- A UDP packet: its checksum, then PTP, then the binding that takes it. -/
def Dev.udpRx (d : Dev) (m : Nat) (v6 : Bool) (src dst fill : Nat) (u : List Nat) : Dev :=
  let n := beAt u 4 2
  let body := u.take n
  let ck := beAt u 6 2
  let bad := n < 8 || u.length < n || (if !v6 && ck == 0 then false else fold16 (sum16 (pseudo v6 src dst 17 n ++ body)) != 0xFFFF)
  let dport := beAt u 2 2
  if bad then d.rxDrop m
  else if dport = 319 ∨ dport = 320 then d.ptpRx m (body.drop 8)
  else
    match d.net.bind.findIdx? fun b => b.takes m v6 src dst dport with
    | none => d.rxDrop m
    | some k => if fill > 100 then (d.setFill m fill).cnt (EMC_RX_OVF m) 1 else (d.setFill m fill).acpRx k (body.drop 8)

/-- An IPv4 packet. -/
def Dev.ip4Rx (d : Dev) (m smac fill : Nat) (b : List Nat) : Dev :=
  let hl := beAt b 0 1 % 16 * 4
  let pl := (b.take (beAt b 2 2)).drop hl
  if beAt b 0 1 / 16 ≠ 4 ∨ hl < 20 ∨ fold16 (sum16 (b.take hl)) ≠ 0xFFFF then d.rxDrop m
  else if beAt b 6 2 % 2 ^ 14 ≠ 0 then d.cntF (EMC_RX_DROP m) HI32 1
  else match beAt b 9 1 with
  | 1 => d.icmpRx m smac (at' b 12 4) (at' b 16 4) pl
  | 2 => if beAt pl 0 1 = 0x11 then d.reportGroups m false else d
  | 17 => d.udpRx m false (at' b 12 4) (at' b 16 4) fill pl
  | _ => d.rxDrop m

/-- An IPv6 packet; a hop-by-hop header is stepped over. -/
def Dev.ip6Rx (d : Dev) (m smac fill : Nat) (b : List Nat) : Dev :=
  let pl0 := (b.drop 40).take (beAt b 4 2)
  let hop := beAt b 6 1 == 0
  let next := if hop then beAt pl0 0 1 else beAt b 6 1
  let pl := if hop then pl0.drop (8 + 8 * beAt pl0 1 1) else pl0
  if beAt b 0 1 / 16 ≠ 6 then d.rxDrop m
  else match next with
  | 44 => d.cntF (EMC_RX_DROP m) HI32 1
  | 58 => d.icmp6Rx m smac (at' b 8 16) (at' b 24 16) pl
  | 17 => d.udpRx m true (at' b 8 16) (at' b 24 16) fill pl
  | _ => d.rxDrop m

/-- A frame that the filter accepts goes to its destination. -/
def Dev.frameRx (d : Dev) (m type smac fill : Nat) (b : List Nat) : Dev :=
  match type with
  | 0x0806 => d.arpRx m b
  | 0x88F7 => d.ptpRx m b
  | 0x0800 => d.ip4Rx m smac fill b
  | 0x86DD => d.ip6Rx m smac fill b
  | _ => d.rxDrop m

/-- ETH_FRAME_RECEIVED (R244, R245): a frame from the destination address up to its FCS, whether the FCS is right, and the fill of
the ACP receive buffer in percent with it. -/
def Dev.ethRx (d : Dev) (m : Nat) (fcsOk : Bool) (bs : List Nat) (fill : Nat) : Dev :=
  if m ≥ 20 ∨ d.macMode m = 0 ∨ !d.on (EM_STAT m) EM_STAT_LINK then d
  else if !fcsOk then d.cnt (EMC_RX_FCS m) 1
  else
    let dst := at' bs 0 6
    let tagged := beAt bs 12 2 == 0x8100
    let type := if tagged then beAt bs 16 2 else beAt bs 12 2
    let body := bs.drop (if tagged then 18 else 14)
    if type = 0x8808 ∧ beAt body 0 2 = 1 then d.cnt (EMC_PAUSE_RX m) 1
    else if type = 0x8808 ∧ beAt body 0 2 = 0x0101 then d.pfcRx m body
    else
      let vlan := if tagged then (d.port m).vids.contains (beAt bs 14 2 % 4096) else d.on (EM_CTRL m) EM_CTRL_UNTAGGED
      if bs.length + 4 < 64 ∨ bs.length + 4 > d.f (EM_CTRL m) EM_CTRL_MAX_FRAME ∨ !vlan ∨ !d.acceptsDst m dst type then d.rxDrop m
      else (d.cnt (EMC_RX_FRAMES m) 1).frameRx m type (at' bs 6 6) fill body

/-- Meaning of ETH_FRAME_RECEIVED. -/
def execEthFrameReceived (port : Nat) (fcsOk : Bool) (bytes : List Nat) (fill : Nat) (s : State) : Host.Outcome State Fault Refusal :=
  .next { s with dev := s.dev.ethRx port fcsOk bytes fill }

/-- TRIG_TX_DROP (R258): a trigger message that has waited 10 ms is dropped behind a GAP record. -/
def execTrigTxDrop (stream : Nat) (s : State) : Host.Outcome State Fault Refusal := nextDev s (
  let d := s.dev
  if !d.streamIs stream 5 then d
  else
    match (d.waiting stream).find? fun p => !p.gap with
    | none => d
    | some x =>
      let r := d.abandonPkts (fun p => p == x) 1 false
      { r.1 with net := { r.1.net with trigTxDrop := r.1.net.trigTxDrop + r.2 } })

end Sys2Proof.Machine
end

