-- ==== Sys2Proof/Machine/NetCmd.lean ====
section
/-!
DEFINITION. The network commands ETH_PORT, STREAM_SET, ACP_RX, NET_STATUS and ADDR_TABLE (08_network_and_time R241, R248 to R254,
R270 to R274).
-/
namespace Sys2Proof.Machine

/-! ETH_PORT (Table 8.8). -/

/-- Four parameter words as an IPv6 address, first byte lowest. -/
def Cmd.ip6 (c : Cmd) (w : Nat) : Nat := c.q w + c.q (w + 2) * 2 ^ 64

/-- A lane's configuration taken off, or given to a MAC. -/
def Dev.macLane (d : Dev) (n mode pll : Nat) : Dev :=
  let x : LaneSet := { func := if mode = 0 then 0 else 2, rate := modeRate mode, pll := pll, rxEn := mode != 0, txEn := mode != 0,
                       split := 0, txpre := 0, dev := 0, link := 0, fmt := 0, win := 0 }
  d.setupLane n x 0 0 0

/-- The PLL, and its base rate, that serves a MAC's lanes in a mode: one whose base rate already serves it, otherwise one on which no
lane is configured, PLL_A first (R49). -/
def Dev.macPll (d : Dev) (m mode : Nat) : Option (Nat × Nat) :=
  let g := 4 * m / 8
  let r := rateUnits (modeRate mode)
  if mode = 0 then some (0, 0)
  else match [0, 1].find? fun k => d.pllBase g k != 0 && pllServes (d.pllBase g k) [r] with
  | some k => some (k, d.pllBase g k)
  | none => ([0, 1].find? fun k => (d.pllLoad g k (macLanes m (d.macMode m))).isEmpty).map fun k => (k, r)

/-- The shaped streams of a port. -/
def Dev.portStreams (d : Dev) (m : Nat) : List Stream := (d.streamList.filter fun p => p.2.mac == m).map (·.2)

/-- The lanes a port takes for a mode: those it had are released, then the new ones configured, and the link goes down when the
mode changes (R241, R242). -/
def Dev.portMode (d : Dev) (m mode nofec pll base : Nat) : Dev :=
  let same := d.macMode m == mode && d.f (EM_CTRL m) EM_CTRL_NOFEC == nofec
  if same then d
  else
    let d1 := (macLanes m (d.macMode m)).foldl (fun (e : Dev) n => e.macLane n 0 0) d
    let d2 := if mode = 0 then d1 else (macLanes m mode).foldl (fun (e : Dev) n => e.macLane n mode pll) (d1.setPll (4 * m / 8) pll base)
    if d.on (EM_STAT m) EM_STAT_LINK then (d2.wr (EM_STAT m) 0).cnt (EMC_LINK_DOWN m) 1 else d2.wr (EM_STAT m) 0

/-- The VIDs of an ETH_PORT. -/
def Cmd.vids (c : Cmd) : List Nat :=
  (List.range (c.b 19 4 0)).map fun e => if e % 2 = 0 then c.b (20 + e / 2) 11 0 else c.b (20 + e / 2) 27 16

/-- ETH_PORT. -/
def ethPortDef : CmdDef where
  op := 0x0801
  masks := fun _ => [0x7FFFFF, 0x03FF3FFF, 0xFFFFFFFF, 0xFFFF, 0xFFFFFFFF, 0xFFFFFFFF, 0xFF3F] ++ List.replicate 12 0xFFFFFFFF ++ [0x1F] ++
    List.replicate 8 0x0FFF0FFF
  bad := fun c _ =>
    c.b 0 4 0 > 19 || c.b 0 7 5 > 5 || c.b 1 13 0 < 64 || c.b 1 13 0 > 9600 || c.b 1 25 16 < 1 || c.b 1 25 16 > 1000 ||
      c.b 6 5 0 > 32 || c.b 6 15 8 > 128 || c.b 19 4 0 > 16 ||
      !samePrefix 16 64 (c.ip6 7) (leNat (0xFE :: 0x80 :: List.replicate 14 0))
  run := onDev fun c s =>
    let d := s.dev
    let m := c.b 0 4 0
    let mode := c.b 0 7 5
    let other := (macLanes m mode).any fun n => (d.compat && n < 68) || (!(macLanes m (d.macMode m)).contains n && d.laneFunc n != 0)
    let rateBad := mode != 0 && !rateFits (modeMbps mode) (d.portStreams m)
    match d.macPll m mode with
    | none => noR (if d.portUsed m then .badState else .noResource) d
    | some (pll, base) =>
      checks [(d.portUsed m, .badState), (other || rateBad, .noResource)] d
        (let d1 := d.portMode m mode (c.b 0 8 8) pll base
         let ctrl := mode + c.b 0 8 8 * 8 + c.b 0 9 9 * 16 + c.b 0 10 10 * 32 + c.b 0 11 11 * 64 + c.b 0 19 12 * 256 + c.b 1 13 0 * 65536
         let p := { d1.port m with mac := c.q 2 % 2 ^ 48, v4 := c.p 4, gw4 := c.p 5, pfx4 := c.b 6 5 0, pfx6 := c.b 6 15 8,
                                   v6a := c.ip6 7, v6b := c.ip6 11, gw6 := c.ip6 15, vids := c.vids }
         okR [] ((((d1.wrN (EM_CTRL m) ctrl).wrN (EM_PFC m) (c.b 1 25 16 + c.b 0 22 20 * 1024)).setPort m p).wantHops m))

/-! STREAM_SET (Table 8.5). -/

/-- The twelve words of entry e of a STREAM_SET. -/
def Cmd.entry (c : Cmd) (e : Nat) : List Nat := (List.range 12).map fun i => c.p (1 + 12 * e + i)

/-- The bits an entry defines. -/
def streamMasks : List Nat :=
  [0x03FF03FF, 0xFFFFFFFF, 0x3FFFFFFF, 0x3FFF, 0xFFFFFFFF, 0xFFFFFFFF, 0xFFFFFFFF, 0xFFFFFFFF, 0xFFFFFFFF, 0xFFFFFFFF, 0x1FFFF, 0]

/-- An entry's fields lie in their ranges (R243, R272); a deletion has only a stream. -/
def Dev.streamBad (d : Dev) (w : List Nat) : Bool :=
  let s : Stream := { words := w }
  if s.cls = 0 then false
  else
    s.cls > 5 || s.mac > 19 || s.b 2 29 22 < 1 || s.mtu < (if s.v6 then 1280 else 576) || s.mtu > 9578 ||
      s.mtu + 22 > d.f (EM_CTRL s.mac) EM_CTRL_MAX_FRAME ||
      (!s.v6 && (w.getD 6 0 != 0 || w.getD 7 0 != 0 || w.getD 8 0 != 0))

/-- Everything that waits for a stream is discarded without a GAP record, counted, and readout jobs on it end PARTIAL (R252). -/
def Dev.dropStream (d : Dev) (i : Nat) : Dev :=
  let ps := d.waiting i
  let js := (ps.filterMap (·.job)).eraseDups
  let dumps := d.run.dumps.map fun u =>
    { u with lines := u.lines.map fun l => if l.stream = i then { l with sent := max l.sent (u.linePackets l) } else l }
  let lost := (d.run.dumps.map fun u => ((u.lines.filter fun l => l.stream == i).map fun l => u.linePackets l - l.sent).sum).sum
  let d1 := { d with net := { d.net with queue := d.net.queue.filter fun p => p.stream != i }, run := { d.run with dumps := dumps } }
  let d2 := match d1.stream i with
    | some s => d1.setStream i (some { s with discard := s.discard + (ps.filter fun p => !p.gap).length + lost })
    | none => d1
  js.foldl (fun (e : Dev) j => e.endJob j .partialDone 0) d2

/-- One entry applied: a stream deleted, redefined or defined (R252). -/
def Dev.applyStream (d : Dev) (w : List Nat) : Dev :=
  let i := w.getD 0 0 % 1024
  let s : Stream := { words := w }
  match d.stream i with
  | some _ =>
    let d1 := d.dropStream i
    let old := ((d1.stream i).map (·.discard)).getD 0
    if s.cls = 0 then d1.setStream i none
    else
      ({ d1 with net := { d1.net with streamReset := satAdd 32 d1.net.streamReset 1 } } : Dev).setStream i
        (some { s with discard := old, tokens := 4 * s.mtu * 8000, tokAt := d.now })
  | none => if s.cls = 0 then d else d.setStream i (some { s with tokens := 4 * s.mtu * 8000, tokAt := d.now })

/-- STREAM_SET. -/
def streamSetDef : CmdDef where
  op := 0x0802
  masks := fun c => 7 :: (List.replicate (c.b 0 2 0) streamMasks).flatten
  bad := fun c s =>
    let n := c.b 0 2 0
    n < 1 || n > 5 || (List.range n).any fun e => s.dev.streamBad (c.entry e)
  run := onDev fun c s =>
    let d := s.dev
    let es := (List.range (c.b 0 2 0)).map c.entry
    let named := d.run.active && es.any fun w => (d.stream (w.getD 0 0 % 1024)).isSome && d.routeNames (w.getD 0 0 % 1024)
    let d1 := es.foldl (fun (e : Dev) w => e.applyStream w) d
    let tooFast := (List.range 20).any fun m => d1.macMode m != 0 && es.any (fun w => ({ words := w } : Stream).mac == m) &&
      !rateFits (modeMbps (d1.macMode m)) (d1.portStreams m)
    checks [(named, .badState), (tooFast, .noResource)] d (okR [] ((List.range 20).foldl (fun (e : Dev) m => e.wantHops m) d1))

/-! ACP_RX (Table 8.9). -/

/-- A binding's reserved bits are zero and its fields in range (R274). -/
def bindOk (b : List Nat) : Bool :=
  at' b 0 1 ≤ 19 && at' b 1 1 ≤ 3 && at' b 23 1 ≤ 15 && at' b 24 2 ≤ 0xFFF && at' b 26 2 ≤ 0xFFF &&
    (bit (at' b 1 1) 1 || at' b 8 12 == 0)

/-- Two bindings could take the same packet. -/
def bindOverlap (a b : List Nat) : Bool :=
  at' a 0 1 == at' b 0 1 && at' a 2 2 == at' b 2 2 &&
    (!bit (at' a 1 1) 0 || !bit (at' b 1 1) 0 || (bit (at' a 1 1) 1 == bit (at' b 1 1) 1 && at' a 4 16 == at' b 4 16))

/-- Some two bindings of a list could take the same packet. -/
def anyOverlap : List (List Nat) → Bool
  | [] => false
  | b :: bs => bs.any (bindOverlap b) || anyOverlap bs

/-- ACP_RX; firmware reports the groups that the new bindings name (R254). -/
def acpRxDef : CmdDef where
  op := 0x0803
  masks := fun _ => [0x7F, 0xFFFFFFFF, 0xFFFF]
  bad := fun c _ => c.b 0 6 0 > 64 || c.q 1 % 32 != 0
  run := onDev fun c s =>
    let d := s.dev
    let n := c.b 0 6 0
    match readTable d s.mem (c.q 1) (32 * n) with
    | .error k => noR k d
    | .ok bs =>
      let es := (List.range n).map fun i => (bs.drop (32 * i)).take 32
      if !es.all bindOk || anyOverlap es then noR .badParam d
      else
        let d1 := { d with net := { d.net with bind := es.map fun b => { bytes := b } } }
        okR [] ((List.range 20).foldl (fun (e : Dev) m => (e.reportGroups m false).reportGroups m true) d1)

/-! NET_STATUS and ADDR_TABLE. -/

/-- The port counters of Table 8.6. -/
def portCounters (m : Nat) : List Nat :=
  [EMC_RX_FRAMES m, EMC_RX_FCS m, EMC_RX_DROP m, EMC_RX_OVF m, EMC_TX_FRAMES m, EMC_TX_BYTES m, EMC_PAUSE_RX m, EMC_PFC m,
   EMC_PFC_STORM m, EMC_LINK_DOWN m, EMC_PTP m]

/-- Packets that wait on a stream: those made, and those of dumps that are ready. -/
def Dev.queued (d : Dev) (i : Nat) : Nat :=
  (d.waiting i).length +
    (d.run.dumps.map fun u => if u.started then ((u.lines.filter fun l => l.stream == i).map fun l => u.linePackets l - l.sent).sum else 0).sum

/-- NET_STATUS: for each port EM_CTRL, EM_STAT and its counters; STREAM_RESET and TRIG_TX_DROP; each stream; each binding's
counters. CLEAR clears the port counters (R270). -/
def netStatusDef : CmdDef where
  op := 0x0804
  run := onDev fun c s =>
    let d := s.dev
    let ports := (List.range 20).flatMap fun m =>
      [d.rdN (EM_CTRL m), d.rdN (EM_STAT m)] ++ (portCounters m).flatMap fun a => lohi (d.rdN a)
    let sts := d.streamList.flatMap fun (i, x) => [i + x.mac * 2 ^ 16 + x.cls * 2 ^ 24, x.seq, d.queued i, x.discard]
    let bs := d.net.bind.flatMap fun b => (List.range 20).flatMap fun k => lohi (tget (fun _ => 0) b.cnt k)
    okR (ports ++ [d.net.streamReset, d.net.trigTxDrop, d.streamList.length] ++ sts ++ [d.net.bind.length] ++ bs)
      (if c.clear then d.clearRegs ((List.range 20).flatMap portCounters) else d)

/-- Words of an entry of the resolution cache. -/
def resWords (r : Res) : List Nat :=
  [r.port + b2n r.v6 * 2 ^ 8 + b2n r.resolved * 2 ^ 9 + b2n r.static * 2 ^ 10] ++ lohi (r.ip % 2 ^ 64) ++ lohi (r.ip / 2 ^ 64) ++ lohi r.mac

/-- ADDR_TABLE: word 0 [4:0] MAC, [5] IPV6, [7:6] 0 read, 1 set a static entry, 2 delete one; words 1 to 4 the address; 5 and 6 the
MAC address (log entry 8). -/
def addrTableDef : CmdDef where
  op := 0x0805
  masks := fun _ => [0xFF, 0xFFFFFFFF, 0xFFFFFFFF, 0xFFFFFFFF, 0xFFFFFFFF, 0xFFFFFFFF, 0xFFFF]
  bad := fun c _ => c.b 0 4 0 > 19 || c.b 0 7 6 == 3
  run := onDev fun c s =>
    let d := s.dev
    let m := c.b 0 4 0
    let v6 := bit (c.p 0) 5
    let ip := if v6 then c.ip6 1 else c.p 1
    match c.b 0 7 6 with
    | 0 => okR (d.net.cache.length :: d.net.cache.flatMap resWords) d
    | 1 => okR [] (d.setRes { port := m, v6 := v6, ip := ip, mac := c.q 5 % 2 ^ 48, resolved := true, static := true, at' := d.now })
    | _ =>
      let cache := d.net.cache.filter fun r => !(r.port == m && r.v6 == v6 && r.ip == ip && r.static)
      okR [] (({ d with net := { d.net with cache := cache } } : Dev).wantHops m)

/-- Meanings of the network commands. -/
def execEthPort (slot : Nat) (s : State) : Host.Outcome State Fault Refusal := .next (serve ethPortDef slot 0 0 s)
def execStreamSet (slot : Nat) (s : State) : Host.Outcome State Fault Refusal := .next (serve streamSetDef slot 0 0 s)
def execAcpRx (slot : Nat) (s : State) : Host.Outcome State Fault Refusal := .next (serve acpRxDef slot 0 0 s)
def execNetStatus (slot : Nat) (s : State) : Host.Outcome State Fault Refusal := .next (serve netStatusDef slot 0 0 s)
def execAddrTable (slot : Nat) (s : State) : Host.Outcome State Fault Refusal := .next (serve addrTableDef slot 0 0 s)

end Sys2Proof.Machine
end

