-- ==== Sys2Proof/Machine/TimCmd.lean ====
section
/-!
DEFINITION. The timing commands (09_timing_core R303 to R305).
-/
namespace Sys2Proof.Machine

/-! TIM_REF_SET (Table 9.6). -/

/-- The references a mask names, in ascending code. -/
def maskBits (n m : Nat) : List Nat := (List.range n).filter fun i => bit m i

/-- The settings of a reference lie in their ranges (R277, R279, R304). -/
def refBad (r ref th : Nat) : Bool :=
  let nom := bits ref 29 0
  let tol := bits ref 52 48
  let pd := bits ref 47 32 + 1
  tol < 1 || tol > 25 || bits ref 62 56 > 79 || (r ≥ 4 && nom != 0) ||
    (r < 4 && (nom < 1000 || nom > 800 * 10 ^ 6 || nom < 1000 * pd || nom > 10 ^ 7 * pd)) ||
    bits th 19 0 == 0 || bits th 39 20 == 0 || bits th 51 40 < 1 || bits th 51 40 > 3600

/-- A priority table names only references, each once (R281). -/
def prioBad (p : Nat) : Bool :=
  let es := ((List.range 8).map fun e => p / 16 ^ e % 16).filter (· ≠ 15)
  es.any (fun e => e ≥ 8) || es.eraseDups.length != es.length

/-- A reference given new settings: one that is disabled is off, and one newly enabled has still to qualify. -/
def Dev.setRef (d : Dev) (r ref th : Nat) : Dev :=
  let was := d.on (TIM_REF r) TIM_REF_EN
  let d1 := (d.wrN (TIM_REF r) ref).wrN (TIM_REFTH r) th
  if bit ref 30 then d1
  else if !was then d1
  else
    let d2 := (d1.wrN (TIM_REFSTAT r) 0).setF TIM_CTRL TIM_CTRL_FORCE
      (if d1.f TIM_CTRL TIM_CTRL_FORCE = r then 15 else d1.f TIM_CTRL TIM_CTRL_FORCE)
    { d2 with tim := { d2.tim with ts := tset (fun _ => none) d2.tim.ts r none } }

/-- TIM_REF_SET. -/
def timRefSetDef : CmdDef where
  op := 0x0201
  masks := fun c => [0x7FF, 0xFFFFFFFF] ++
    ((maskBits 8 (c.b 0 7 0)).map fun _ => [0xFFFFFFFF, 0x7F1FFFFF, 0xFFFFFFFF, 0xFFFFFFFF]).flatten
  bad := fun c _ =>
    ((maskBits 8 (c.b 0 7 0)).zipIdx.any fun (r, j) => refBad r (c.q (2 + 4 * j)) (c.q (4 + 4 * j))) || (bit (c.p 0) 8 && prioBad (c.p 1))
  run := onDev fun c s =>
    let d := s.dev
    let d1 := (maskBits 8 (c.b 0 7 0)).zipIdx.foldl (fun (e : Dev) (r, j) => e.setRef r (c.q (2 + 4 * j)) (c.q (4 + 4 * j))) d
    let d2 := if bit (c.p 0) 8 then d1.wrN TIM_PRIO (c.p 1) else d1
    let d3 := (d2.setF TIM_CTRL TIM_CTRL_REVERT (c.b 0 9 9)).setF TIM_CTRL TIM_CTRL_PBO (c.b 0 10 10)
    okR [] (d3.reselect (d3.timSel < 8 && !d3.qualified d3.timSel) d3.lastRec)

/-- TIM_LOOP_SET: words 0 and 1 TIM_BW, 2 and 3 TIM_HO, 4 [7:0] LOCK_DWELL, 5 PPS_MPW in ns, zero keeping it (R278, R284, R285, log
entry 8). -/
def timLoopSetDef : CmdDef where
  op := 0x0202
  masks := fun _ => [0x00FFFFFF, 0x0FFF03FF, 0x0001FFFF, 0x3FFFFFFF, 0xFF, 0xFFFFFFFF]
  bad := fun c _ =>
    c.b 1 9 0 < 1 || c.b 1 9 0 > 1000 || c.b 1 27 16 < 10 || c.b 1 27 16 > 3600 || c.b 2 16 0 < 10 || c.b 2 16 0 > 86400 ||
      c.b 3 29 16 < 1 || c.b 3 29 16 > 10000 || c.b 4 7 0 < 1 || c.b 4 7 0 > 60 || (c.p 5 != 0 && (c.p 5 < 100 || c.p 5 > 100000000))
  run := onDev fun c s =>
    let d := ((s.dev.wrN TIM_BW (c.q 0)).wrN TIM_HO (c.q 2)).setF TIM_CTRL TIM_CTRL_LOCK_DWELL (c.b 4 7 0)
    okR [] (if c.p 5 = 0 then d else { d with tim := { d.tim with ppsMpw := c.p 5 } })

/-- TIM_FORCE: word 0 [3:0] the reference, or 15 to release (R283, log entry 8); held while a switch runs (R282). -/
def timForceDef : CmdDef where
  op := 0x0203
  masks := fun _ => [0xF]
  bad := fun c _ => c.b 0 3 0 ≥ 8 && c.b 0 3 0 != 15
  run := onDev fun c s =>
    let d := s.dev
    let r := c.b 0 3 0
    if r ≠ 15 ∧ !d.qualified r then noR .badState d
    else if d.timSt = TS_SWITCH then okR [] { d with tim := { d.tim with heldForce := some r } }
    else
      let d1 := d.setF TIM_CTRL TIM_CTRL_FORCE r
      okR [] (d1.reselect false d1.lastRec)

/-- Capture writes segments. -/
def Dev.capBusy (d : Dev) : Bool := [1, 2, 3].contains (d.f CAP_STAT CAP_STAT_STATE)

/-- TIM_PHASE_STEP (Table 9.5, R295). -/
def timPhaseStepDef : CmdDef where
  op := 0x0204
  masks := fun _ => [0xFFFFFFFF, 3, 0xFFFFF]
  bad := fun c _ => c.p 0 % 2 ^ 32 == 2 ^ 31 || (bit (c.p 1) 1 && (c.b 2 19 0 < 1 || c.b 2 19 0 > 1000000))
  run := onDev fun c s =>
    let d := s.dev
    if !bit (c.p 1) 0 && (d.run.active || d.front.running || d.capBusy) then noR .badState d
    else
      let d1 := if bit (c.p 1) 1 then d.wrN TIM_PHSLEW (c.b 2 19 0) else d
      okR [] (d1.phaseStep (sext 32 (c.p 0), bit (c.p 1) 0))

/-! TIM_OUTPUT (Table 9.7). -/

/-- A generator serves a running front. -/
def Dev.sngBusy (d : Dev) (g : Nat) : Bool := d.front.running && d.front.inputs.any fun x => x.sng == g

/-- IN_USE of a clock output: a SYSREF output that is on names it and a generator that serves a running front (R298, R299). -/
def Dev.outInUse (d : Dev) (n : Nat) : Bool :=
  (List.range 4).any fun m =>
    [1, 2].contains (d.f (TIM_SYSREF m) TIM_SYSREF_MODE) && d.f (TIM_SYSREF m) TIM_SYSREF_CLK == n &&
      d.sngBusy (d.f (TIM_SYSREF m) TIM_SYSREF_SNG)

/-- A lane in UP runs from an LREF (R300). -/
def Dev.lrefUsed (d : Dev) (l : Nat) : Bool :=
  (List.range 80).any fun n =>
    d.laneSt n == LST_UP && Config.lrefOf (2 * (n / 8) + d.f (LN_CTRL n) LN_CTRL_PLL_SEL) % 4 == l

/-- The parts of a TIM_OUTPUT: each mask's units with the word where each begins. -/
structure OutParts where
  apll : List (Nat × Nat)
  out : List (Nat × Nat)
  sysref : List (Nat × Nat)
  lref : List (Nat × Nat)

/-- The units a TIM_OUTPUT names and where their words stand. -/
def outParts (w : Nat) : OutParts :=
  let a := maskBits 2 (bits w 1 0)
  let o := maskBits 4 (bits w 5 2)
  let s := maskBits 4 (bits w 9 6)
  let l := maskBits 4 (bits w 13 10)
  let b1 := 1 + a.length
  let b2 := b1 + 2 * o.length
  let b3 := b2 + 2 * s.length
  { apll := a.zipIdx.map fun (x, j) => (x, 1 + j), out := o.zipIdx.map fun (x, j) => (x, b1 + 2 * j),
    sysref := s.zipIdx.map fun (x, j) => (x, b2 + 2 * j), lref := l.zipIdx.map fun (x, j) => (x, b3 + 2 * j) }

/-- TIM_OUTPUT. -/
def timOutputDef : CmdDef where
  op := 0x0205
  masks := fun c =>
    let p := outParts (c.p 0)
    [0x3FFF] ++ p.apll.map (fun _ => 0x00FFFFFF) ++ (p.out.map fun _ => [0xFFFF1FFF, 0x0000FFFF]).flatten ++
      (p.sysref.map fun _ => [0xFFFFFF7F, 0xFFFFFFFF]).flatten ++ (p.lref.map fun _ => [0xFFFFFFFF, 0xFFFFFFFF]).flatten
  bad := fun c _ =>
    let p := outParts (c.p 0)
    p.apll.any (fun (_, w) => c.b w 23 0 < 9600 || c.b w 23 0 > 12800) || p.out.any (fun (_, w) => c.b w 11 2 < 3) ||
      p.lref.any (fun (_, w) => c.q w < 100 * 10 ^ 6 * 2 ^ 32 || c.q w > 750 * 10 ^ 6 * 2 ^ 32)
  run := onDev fun c s =>
    let d := s.dev
    let p := outParts (c.p 0)
    if p.out.any (fun (n, _) => d.outInUse n) || p.lref.any (fun (l, _) => d.lrefUsed l) then noR .badState d
    else
      let d1 := p.apll.foldl (fun (e : Dev) (a, w) => e.wrN (TIM_APLL a) (c.b w 23 0 + 2 ^ 24)) d
      let d2 := p.out.foldl (fun (e : Dev) (n, w) => e.wrN (TIM_OUT n) (c.q w &&& (2 ^ 64 - 1 - 2 ^ 12))) d1
      let d3 := p.sysref.foldl
        (fun (e : Dev) (n, w) =>
          ({ e with tim := { e.tim with gap := tset (fun _ => none) e.tim.gap n none } } : Dev).wrN (TIM_SYSREF n) (c.q w)) d2
      okR [] (p.lref.foldl (fun (e : Dev) (l, w) => e.wrN (TIM_LREF l) (c.q w)) d3)

/-- TIM_SNG: word 0 [2:0] generator, 1 and 2 NUM, 3 DEN, 4 [3:0] SRC_REF, 5 and 6 epoch seconds, 7 and 8 epoch nanoseconds (R296, R297,
log entry 8). -/
def timSngDef : CmdDef where
  op := 0x0206
  masks := fun _ => [7, 0xFFFFFFFF, 0xFFFFFFFF, 0xFFFFFFFF, 0xF, 0xFFFFFFFF, 0xFFFF, 0xFFFFFFFF, 0xFFFF]
  bad := fun c _ => c.p 3 == 0 || (c.b 4 3 0 ≥ 8 && c.b 4 3 0 != 15) || c.q 7 / 2 ^ 16 ≥ 10 ^ 9
  run := onDev fun c s =>
    let d := s.dev
    let g := c.b 0 2 0
    if d.sngBusy g then noR .badState d
    else
      let r := c.b 4 3 0
      let fault := b2n (decide (r < 8) && (d.qstate r == 4 || d.qstate r == 2))
      let d1 := (((d.wrN (TIM_SNG_NUM g) (c.q 1)).wrN (TIM_SNG_DEN g) (c.p 3 + r * 2 ^ 32 + fault * 2 ^ 36)).wrN (TIM_SNG_EP_SEC g)
        (c.q 5)).wrN (TIM_SNG_EP_NS g) (c.q 7)
      let v := d1.front.clkFault
      okR [] { d1 with front := { d1.front with clkFault := if fault = 1 then v ||| 2 ^ g else if bit v g then v - 2 ^ g else v } }

/-- TIM_XO: word 0 nominal XO_IN in Hz, 1 the identity, 2 [0] external temperature source and [1] a table follows, from word 3 sixteen
points of temperature (0.01 °C) and offset (10^-13), signed (R290, R292, log entry 8). A new identity discards timing history. -/
def timXoDef : CmdDef where
  op := 0x0207
  masks := fun _ => [0xFFFFFFFF, 0xFFFFFFFF, 3]
  bad := fun c _ =>
    let ts := (List.range 16).map fun k => sext 32 (c.p (3 + 2 * k))
    c.p 0 < 10 * 10 ^ 6 || c.p 0 > 100 * 10 ^ 6 ||
      (bit (c.p 2) 1 && !((ts.zip ts.tail).all fun (a, b) => decide (a < b)) && !((List.range 32).all fun k => c.p (3 + k) == 0))
  run := onDev fun c s =>
    let d := s.dev
    let h := d.ret.hist
    let h1 := if h.xoId = c.p 1 then h else { h.discard with xoId := c.p 1 }
    let pts := (List.range 16).map fun k => (sext 32 (c.p (3 + 2 * k)), sext 32 (c.p (4 + 2 * k)) * 1000)
    let zero := (List.range 32).all fun k => c.p (3 + k) == 0
    let h2 := if bit (c.p 2) 1 then { h1 with tempTab := if zero then [] else pts } else h1
    let d1 := { d with ret := { d.ret with hist := h2 }, tim := { d.tim with xoHz := c.p 0, xoExt := bit (c.p 2) 0 } }
    okR [] (if bit (c.p 2) 0 then d1 else d1.setF TIM_STAT TIM_STAT_TEMP_EXT 0)

/-- The image that TIM_HISTORY copies: counts, the model, and the second, hour and day records of 16 bytes (log entry 8). -/
def History.image (h : History) : List Nat :=
  let rec' := fun (x : HistRec) => leBytes 4 x.t ++ leBytes 4 (wrapN 32 x.temp) ++ leBytes 8 (wrapN 64 x.off)
  leBytes 4 h.secs.length ++ leBytes 4 h.hours.length ++ leBytes 4 h.days.length ++ leBytes 4 (b2n h.modelValid) ++ leBytes 8 h.ts ++
    leBytes 16 (wrapN 128 h.a) ++ leBytes 16 (wrapN 128 h.b) ++ leBytes 16 (wrapN 128 h.c) ++ (h.secs ++ h.hours ++ h.days).flatMap rec'

/-- TIM_HISTORY: words 0 and 1 the address, word 2 [0] DISCARD (log entry 8). -/
def timHistoryDef : CmdDef where
  op := 0x0208
  masks := fun _ => [0xFFFFFFFF, 0xFFFF, 1]
  bad := fun c s => c.q 0 % 8 != 0 || match (s.dev.route (c.q 0)).1 with | .hbm | .ddr | .out => false | _ => true
  run := onDev fun c s => asJob c s.dev 0x0208 false

/-- The work of a TIM_HISTORY job. -/
def timHistoryWork (s : State) (i : Nat) : State × Option (Code × Nat) :=
  let d := s.dev
  let bs := d.ret.hist.image
  let w := memWrite d s.mem (d.jobQ i 0) bs false
  let d1 := if bit ((d.job i).params.getD 2 0) 0 then { d with ret := { d.ret with hist := d.ret.hist.discard } } else d
  ({ s with mem := w.2, dev := d1 }, some (if w.1 then .ok else .hwFault, if w.1 then bs.length else 0))

/-- The counters of Table 9.4. -/
def timCounters : List Nat :=
  ((List.range 8).map fun r => TIM_DISQUAL r) ++ [TIMC_SWITCHES, TIMC_HOLDOVER, TIMC_LOSS_OF_LOCK, TIMC_PPS_IGN, TIMC_TEMP_STALE, TIMC_PH_STEPS]

/-- The registers that TIM_STATUS returns. -/
def timRegs : List Nat :=
  [TIM_CTRL, TIM_STAT, TIM_PRIO, TIM_BW, TIM_HO, TIM_PHSLEW, TIM_PHREM, TIM_PHTOT, TIM_CLK, TIM_XO_TEMP] ++
    ((List.range 8).map fun r => [TIM_REF r, TIM_REFTH r, TIM_REFSTAT r]).flatten

/-- TIM_STATUS: registers, counters, model coefficients and t_s of each reference; CLEAR clears the counters. -/
def timStatusDef : CmdDef where
  op := 0x0209
  run := onDev fun c s =>
    let d := s.dev
    let h := d.ret.hist
    okR ((timRegs ++ timCounters).flatMap (fun a => lohi (d.rdN a)) ++
        [h.a, h.b, h.c].flatMap (fun x => lohi (wrapN 64 (x / 2 ^ 32))) ++
        (List.range 8).flatMap (fun r => lohi ((tget (fun _ => none) d.tim.ts r).getD 0)))
      (if c.clear then d.clearRegs timCounters else d)

/-- TIM_SYSREF_GO: word 0 [3:0] the outputs, 1 and 2 the start SN (R298, log entry 8). -/
def timSysrefGoDef : CmdDef where
  op := 0x020A
  masks := fun _ => [0xF, 0xFFFFFFFF, 0xFFFFFFFF]
  run := onDev fun c s =>
    let d := s.dev
    let ns := (maskBits 4 (c.b 0 3 0)).filter fun n => d.f (TIM_SYSREF n) TIM_SYSREF_MODE == 2
    if ns.any fun n => earlier (c.q 1) (d.sngCount (d.f (TIM_SYSREF n) TIM_SYSREF_SNG) + 1024) 64 then noR .badState d
    else okR [] (ns.foldl
      (fun (e : Dev) n =>
        { e with tim := { e.tim with gap := tset (fun _ => none) e.tim.gap n (some (c.q 1, e.f (TIM_SYSREF n) TIM_SYSREF_GAP_N)) } }) d)

/-- TIM_CLOCKS sets TCLK while no run is active (R301); word 0 [10:0] is TCLK_MHZ (log entry 8). -/
def timClocksDef : CmdDef where
  op := 0x020B
  masks := fun _ => [0x7FF]
  bad := fun c _ => c.b 0 10 0 < 500 || c.b 0 10 0 > 1050
  run := onDev fun c s =>
    if s.dev.run.active then noR .badState s.dev else okR [] (s.dev.setF TIM_CLK TIM_CLK_TCLK_MHZ (c.b 0 10 0))

/-- Meanings of the timing commands. -/
def execTimRefSet (slot : Nat) (s : State) : Host.Outcome State Fault Refusal := .next (serve timRefSetDef slot 0 0 s)
def execTimLoopSet (slot : Nat) (s : State) : Host.Outcome State Fault Refusal := .next (serve timLoopSetDef slot 0 0 s)
def execTimForce (slot : Nat) (s : State) : Host.Outcome State Fault Refusal := .next (serve timForceDef slot 0 0 s)
def execTimPhaseStep (slot : Nat) (s : State) : Host.Outcome State Fault Refusal := .next (serve timPhaseStepDef slot 0 0 s)
def execTimOutput (slot : Nat) (s : State) : Host.Outcome State Fault Refusal := .next (serve timOutputDef slot 0 0 s)
def execTimSng (slot : Nat) (s : State) : Host.Outcome State Fault Refusal := .next (serve timSngDef slot 0 0 s)
def execTimXo (slot : Nat) (s : State) : Host.Outcome State Fault Refusal := .next (serve timXoDef slot 0 0 s)
def execTimHistory (slot : Nat) (s : State) : Host.Outcome State Fault Refusal := .next (serve timHistoryDef slot 0 0 s)
def execTimStatus (slot : Nat) (s : State) : Host.Outcome State Fault Refusal := .next (serve timStatusDef slot 0 0 s)
def execTimSysrefGo (slot : Nat) (s : State) : Host.Outcome State Fault Refusal := .next (serve timSysrefGoDef slot 0 0 s)
def execTimClocks (slot : Nat) (s : State) : Host.Outcome State Fault Refusal := .next (serve timClocksDef slot 0 0 s)

end Sys2Proof.Machine
end

