-- ==== Sys2Proof/Machine/Commands.lean ====
section
/-!
DEFINITION. Every command of the mailbox by opcode (Table 12.13), and the work of the jobs that JOB_DONE ends.
-/
namespace Sys2Proof.Machine

/-- Commands of the range 0x01xx. -/
def cmds01 : List CmdDef := [
  pingDef, devInfoDef, jobQueryDef, jobCancelDef, jobReleaseDef, aperSetDef, copyDef, roleSetDef, modeSetDef, hostConfigDef,
  sysResetDef, persStatusDef, persAssignDef, persResetDef, persLogDef]

/-- Commands of the range 0x02xx. -/
def cmds02 : List CmdDef := [
  timRefSetDef, timLoopSetDef, timForceDef, timPhaseStepDef, timOutputDef, timSngDef, timXoDef, timHistoryDef, timStatusDef,
  timSysrefGoDef, timClocksDef]

/-- Commands of the range 0x03xx. -/
def cmds03 : List CmdDef := [
  laneSetDef, laneStatusDef, lanePowerDef, eyeScanDef, prbsDef, errInjectDef, laneGroupDef, jesdLinkDef, jesdAlignDef]

/-- Commands of the range 0x04xx. -/
def cmds04 : List CmdDef := [
  frontConfigDef, delayModelDef, modelTableDef, coefLoadDef, gainLoadDef, detectSetDef, detectReadDef, routeSetDef,
  frontStartDef, frontStatusDef]

/-- Commands of the range 0x05xx. -/
def cmds05 : List CmdDef := [
  xcorPlanDef, bondReadDef, bondSetDef, tuckpointDef, auditCtrlDef, tileStatusDef, runStartDef, runStopDef, integSetDef,
  dumpRouteDef, dumpNowDef, peekDef, accStatusDef]

/-- Commands of the range 0x06xx. -/
def cmds06 : List CmdDef := [
  beamConfigDef, beamRouteDef, beamWloadDef, beamWswapDef, beamStatusDef]

/-- Commands of the range 0x07xx. -/
def cmds07 : List CmdDef := [
  memStatusDef, memQosDef, memRetrainDef, capConfigDef, capArmDef, capTriggerDef, capReadDef, capReleaseDef, capStatusDef]

/-- Commands of the range 0x08xx. -/
def cmds08 : List CmdDef := [
  ethPortDef, streamSetDef, acpRxDef, netStatusDef, addrTableDef, ptpConfigDef, ptpStatusDef, timeSetDef, timeGetDef,
  pulseSetDef, portDelayDef]

/-- Commands of the range 0x09xx. -/
def cmds09 : List CmdDef := [
  coreLoadDef, coreStartDef, coreStopDef, coreStatusDef, coreTuckDef]

/-- Commands of the range 0x0Axx. -/
def cmds0A : List CmdDef := [
  errReadDef, errAckDef, eccStatusDef, scrubCtrlDef, cvuSetDef, eccInjectDef]

/-- Commands of the range 0x0Bxx. -/
def cmds0B : List CmdDef := [
  thermStatusDef, thermSetDef, wearReportDef, reserveStatusDef, leaseConfigDef, leaseStatusDef, arbiterConfigDef,
  healthReadDef]

/-- Commands of the range 0x0Cxx. -/
def cmds0C : List CmdDef := [
  profileReadDef, profileWriteDef, commitDef, holdupStatusDef, fwImageDef, factoryDefaultsDef]

/-- Commands of the range 0x0Dxx. -/
def cmds0D : List CmdDef := [
  selftestDef, selftestResultDef, debugLockDef]

/-- Every command. -/
def commands : List CmdDef :=
  cmds01 ++ cmds02 ++ cmds03 ++ cmds04 ++ cmds05 ++ cmds06 ++ cmds07 ++ cmds08 ++ cmds09 ++ cmds0A ++ cmds0B ++ cmds0C ++ cmds0D

/-- The command of an opcode (R381). -/
def cmdOf (op : Nat) : Option CmdDef := commands.find? fun d => d.op == op

/-- The work of a BOND_READ job: the active copy, or the inactive one. -/
def bondReadWork (s : State) (i : Nat) : State × Option (Code × Nat) :=
  let d := s.dev
  let copy := if bit ((d.job i).params.getD 2 0) 0 then 1 - d.btCopy else d.btCopy
  let bs := d.bondBytes copy
  let w := memWrite d s.mem (d.jobQ i 0) bs false
  ({ s with mem := w.2 }, some (if w.1 then .ok else .hwFault, if w.1 then bs.length else 0))

/-- The end of a BOND_SET job (R154): a table that fails is not written, and the result names the tile, slot and rule. -/
def bondSetEnd (r : Dev × Option (Nat × Nat × Nat)) (i : Nat) (s : State) : State × Option (Code × Nat) :=
  match r.2 with
  | none => ({ s with dev := r.1 }, some (.ok, 0))
  | some (t, l, k) =>
    let j := s.dev.job i
    let m := match j.area with | some a => s.mem.wr (s.dev.areaAddr a) (wordsToBytes [t, l, k]) | none => s.mem
    ({ s with mem := m, dev := s.dev.setJob i { j with bytes := 12 } }, some (.badParam, 12))

/-- BOND_SET's table, read or not, and judged. -/
def bondSetJudge (t : Except Code (List Nat)) (i : Nat) (s : State) : State × Option (Code × Nat) :=
  match t with
  | .error k => (s, some (k, 0))
  | .ok bs => bondSetEnd (s.dev.bondLoad bs) i s

/-- The work of a BOND_SET job (R154): a table of 3,264 bytes. -/
def bondSetWork (s : State) (i : Nat) : State × Option (Code × Nat) :=
  bondSetJudge (readTable s.dev s.mem (s.dev.jobQ i 0) 3264) i s

/-- The work that a job does by its end, for the jobs that no other event ends. -/
def jobWork (op : Nat) (bad : List Nat) (i : Nat) (s : State) : State × Option (Code × Nat) :=
  match op with
  | 0x0107 => copyWork s i
  | 0x0113 => persLogWork s i
  | 0x0208 => timHistoryWork s i
  | 0x0403 => modelTableWork s i
  | 0x0404 => coefLoadWork s i
  | 0x0405 => gainLoadWork s i
  | 0x0407 => detectReadWork s i
  | 0x0502 => bondReadWork s i
  | 0x0503 => bondSetWork s i
  | 0x0603 => beamLoadWork s i
  | 0x0707 => capReadWork s i
  | 0x0901 => coreLoadWork s i
  | 0x0905 => coreTuckWork s i
  | 0x0A05 => cvuWork s i
  | 0x0C05 => fwImageWork s i
  | 0x0D01 => selftestWork bad s i
  | _ => (s, none)

end Sys2Proof.Machine
end

