-- ==== Sys2Proof/Machine/Power.lean ====
section
/-!
DEFINITION. Start-up and commits (16_power_and_startup R451, R453, R458 to R461, R465 to R473): the boot ROM, RESTORE, TRAIN, and
the commit engine.
-/
namespace Sys2Proof.Machine

/-! Retained slots (R464 to R466). -/

/-- GEN of a valid slot. -/
def RSlot.gen? : RSlot → Option Nat
  | .ok g _ _ => some g
  | _ => none

/-- The selection of R465: whether a slot is selected, which, and whether both have one generation. -/
def Flash.pick (f : Flash) : Bool × Bool × Bool :=
  match f.slot0.gen?, f.slot1.gen? with
  | some a, some b => (true, later b a 32, a % 2 ^ 32 == b % 2 ^ 32)
  | some _, none => (true, false, false)
  | none, some _ => (true, true, false)
  | none, none => (false, false, false)

/-- The flash with that selection made. -/
def Flash.select (f : Flash) : Flash := { f with selValid := f.pick.1, sel := f.pick.2.1 }

/-- The state in the selected slot; new where none is selected. -/
def Flash.image (f : Flash) : Retained :=
  if !f.selValid then {} else match if f.sel then f.slot1 else f.slot0 with | .ok _ _ r => r | _ => {}

/-- COMMITS in the header of the selected slot. -/
def Flash.commits (f : Flash) : Nat :=
  if !f.selValid then 0 else match if f.sel then f.slot1 else f.slot0 with | .ok _ c _ => c + 1 | _ => 0

/-- The slot that a commit writes: the one not selected, slot 0 where none is. -/
def Flash.target (f : Flash) : Bool := f.selValid && !f.sel

/-- What that slot holds. -/
def Flash.other (f : Flash) : RSlot := if f.target then f.slot1 else f.slot0

/-- That slot replaced. -/
def Flash.putOther (f : Flash) (x : RSlot) : Flash := if f.target then { f with slot1 := x } else { f with slot0 := x }

/-- Every slot that is not selected is erased. -/
def Flash.clean (f : Flash) : Bool := f.other == .blank && (f.selValid || f.slot1 == .blank)

/-- The erase of what is not selected begins where it is not blank and the engine is idle (R466). -/
def Flash.erase (f : Flash) : Flash := if f.engine = .idle ∧ !f.clean then { f with engine := .erasing } else f

/-- The boot ROM suspends an erase (R458): the slot may still read valid. -/
def Flash.suspend (f : Flash) (still : Bool) : Flash :=
  if f.engine ≠ .erasing then f
  else if still then { f with engine := .idle }
  else if f.selValid then { f.putOther .bad with engine := .idle }
  else { f with slot0 := .bad, slot1 := .bad, engine := .idle }

/-! Settings of the profile (Table 16.9). -/

/-- The parameter words in force of a system record; a recovery boot takes none (R472). The last record of an opcode stands. -/
def Dev.setting (d : Dev) (op : Nat) : Option (List Nat) :=
  if d.pwr.recovery then none else (d.ret.profile.reverse.find? fun r => r.1 == op).map (·.2)

/-- One parameter word of it, or its default. -/
def Dev.settingWord (d : Dev) (op k dflt : Nat) : Nat :=
  match d.setting op with
  | some ws => ws.getD k dflt
  | none => dflt

/-! The boot ROM (R458 to R461, R336, R490). -/

/-- The image slots in the order in which the boot ROM tries them, each with whether it is marked TRIAL (R461). -/
def Dev.bootOrder (d : Dev) : List (Nat × Bool) :=
  let pref := d.settingWord 0xFF02 0 0
  let slot := pref % 2
  let trial := bit pref 1
  if trial && decide (d.f SC_BOOT SC_BOOT_TRIES ≥ 2) then [(1 - slot, false), (slot, trial)] else [(slot, trial), (1 - slot, false)]

/-- The bytes of an image slot. -/
def Flash.image' (f : Flash) (slot : Nat) : List Nat := if slot = 0 then f.imgA else f.imgB

/-- The first image that verifies, and whether it was the first choice. -/
def Flash.choose (f : Flash) : List (Nat × Bool) → Bool → Option (Nat × Bool × Bool)
  | [], _ => none
  | (k, t) :: r, first => if imageOk (f.image' k) then some (k, t, first) else f.choose r false

/-- The identity block as the boot ROM fills it (Table 12.5). -/
def Dev.romId (d : Dev) : Dev :=
  ((d.wrN ID_MAGIC 0x41513430).setF ID_MODE ID_MODE_STEPPING (d.f SC_ID SC_ID_STEPPING)).setF ID_ROM_VER ID_ROM_VER_ROM Config.romVer

/-- The core self-test of physical core 0 (R336): the result, the memories overwritten, and core 3 in its place where it failed and
core 3 is usable. `none` where no core is left to boot on. -/
def bootCore (pass : Bool) (s : State) : Option State :=
  let sp := s.dev.ret.spare
  let l0 := bits sp.crMap 1 0
  let s1 := coreTested 0 s
  let d := (s1.dev.noteTest 1 0 (b2n (!pass))).wrN CR_MAP sp.crMap
  if pass || l0 == 3 then some { s1 with dev := d }
  else if bits sp.crMap 7 6 == 3 && !sp.resRetired then
    let v := sp.crMap / 4 % 16 * 4 + 3
    let d1 := { d with ret := { d.ret with spare := { sp with crMap := v, resRetired := true } } }
    some { s1 with dev := ((((d1.wrN CR_MAP v).setCoreState 0 CORE_RETIRED).raise 0x000D 0 0 0).unitFailed).wantCommit .spare none }
  else none

/-- Step 6 of R459: the first LOAD_LEN bytes of the body go to working SRAM, REMAP is set and core 0 starts at ENTRY. Firmware passes
its stepping check and goes on to RESTORE (R6). -/
def bootImage (slot : Nat) (trial first : Bool) (s : State) : State :=
  let img := s.flash.image' slot
  let d := s.dev
  let tries := d.f SC_BOOT SC_BOOT_TRIES
  let d1 := (((d.setF SC_BOOT SC_BOOT_SLOT slot).setF SC_BOOT SC_BOOT_TRIAL (b2n trial)).setF SC_BOOT SC_BOOT_FALLBACK
    (b2n (!first))).setF SC_BOOT SC_BOOT_TRIES (if trial then min 3 (tries + 1) else tries)
  let k := d1.physOf 0
  let d2 := (d1.setF SC_REMAP SC_REMAP_REMAP 1).setF (CR_CTRL k) CR_CTRL_FETCH_SYS 1
  let d3 := (d2.setCoreState k CORE_RESET).setF (CR_CTRL k) CR_CTRL_START_PC (imgField img 16 4)
  let d4 := (d3.coreStart k).wrN ID_FW_VER (imgField img 4 4)
  { s with mem := s.mem.store 0x20000000 ((imgBody img).take (imgField img 12 4)) false,
           dev := if d4.f SC_ID SC_ID_STEPPING / 16 = 2 then d4.setFw FW_RESTORE
             else (d4.raise 0x000C 0xFF 0 (d4.f SC_ID SC_ID_STEPPING)).setFw FW_HALTED }

/-- BOOT_ROM_START (R459): the device is out of reset and in BOOT. While the engine programs or verifies the boot ROM waits; an
erase it suspends. `chkBad` names memory classes 0 to 2 and units whose checker test failed, `flashOk` that the flash answers. -/
def bootRom (corePass flashOk : Bool) (chkBad : List (Nat × Nat)) (s : State) : State :=
  let e := s.flash.engine
  if s.dev.pwr.inReset || !s.dev.pwr.auxOn || s.dev.fwState != FW_BOOT || e == .programming || e == .verifying then s
  else
    let still := s.dev.free % 2 == 0
    let f := ((if e = .erasing then s.flash.suspend still else s.flash)).select
    let d0 := if e = .erasing then s.dev.drew else s.dev
    let f1 := if flashOk then f else { f with selValid := false }
    let s1 := { s with flash := f1, dev := { d0 with ret := f1.image } }
    match bootCore corePass s1 with
    | none => s1
    | some s2 =>
      let s3 := { s2 with dev := s2.dev.romId }
      let s4 := chkBad.foldl (fun t x => chkFail x.1 x.2 t) s3
      let halt := fun (t : State) => { t with dev := t.dev.setFw FW_HALTED }
      if chkBad.any fun x => x.1 == 1 || (x.1 == 2 && x.2 == 0) then halt s4
      else if s4.dev.tap.testEn then halt { s4 with dev := s4.dev.raise 0x000C 0xFF 0 0 }
      else if !flashOk then halt s4
      else match s4.flash.choose s4.dev.bootOrder true with
        | none => halt s4
        | some (k, t, first) => bootImage k t first s4

/-- Meaning of BOOT_ROM_START. -/
def execBootRomStart (corePass flashOk : Bool) (chkBad : List (Nat × Nat)) (s : State) : Host.Outcome State Fault Refusal :=
  .next (bootRom corePass flashOk chkBad s)

/-! RESTORE (Table 16.4, R451, R453, R461, R465, R466, R471, R472). -/

/-- What firmware enters in ERRC about this boot. -/
def Dev.bootNotes (d : Dev) (dup lost : Bool) : Dev :=
  let d1 := if d.on SC_PWRSEQ SC_PWRSEQ_VALID then
      let w := d.ret.wear
      (({ d with ret := { d.ret with wear := { w with seqViol := w.seqViol + 1 } } } : Dev).raise 0x0004
        (d.f SC_PWRSEQ SC_PWRSEQ_SUPPLY) 0 (d.f SC_PWRSEQ SC_PWRSEQ_STEP)).setF SC_PWRSEQ SC_PWRSEQ_VALID 0
    else d
  let d2 := if d1.on SC_BOOT SC_BOOT_FALLBACK then d1.raise 0x000A 0xFF 0 0 else d1
  let d3 := if bit d2.pwr.causes CAUSE_WDOG then d2.raise 0x000B 0 0 0 else d2
  let d4 := if dup then d3.raise 0x0007 0xFF 0 0 else d3
  if lost then d4.raise 0x0006 0xFF 0 0 else d4

/-- The spare map put into force: tiles, lanes, sensors, and the reserve core. -/
def Dev.loadSpares (d : Dev) : Dev :=
  let sp := d.ret.spare
  let d1 := sp.tiles.foldl (fun (e : Dev) x => e.wrN (XC_TSTAT x.1) x.2) d
  let d2 := sp.lanes.foldl (fun (e : Dev) n => e.setLane n { e.lane n with rxFailed := true }) d1
  let d3 := sp.sensors.foldl (fun (e : Dev) n => e.setF (TH_SENS n) TH_SENS_ELEM 1) d2
  let d4 := d3.wrN CR_MAP sp.crMap
  if sp.resRetired then d4.setCoreState (d4.physOf 3) CORE_RETIRED else d4

/-- The lease identity put into force, but not by a recovery boot (R472). -/
def Dev.loadLease (d : Dev) : Dev :=
  let l := d.ret.lease
  if d.pwr.recovery || !l.twin then d
  else d.wrN LS_CTRL (1 + l.node * 4 + b2n l.gateAsl * 8 + l.pairId * 65536)

/-- Timing starts from the retained model in HOLDOVER, or in FREERUN (R292); XO_FAULT stands (R294). -/
def Dev.startTiming (d : Dev) : Dev :=
  let h := { d.ret.hist with secs := [] }
  let d1 := { d with ret := { d.ret with hist := h } }
  if d1.timSt = TS_XO_FAULT then d1
  else if h.modelValid then
    let m := match h.days.getLast? with | some x => (x.off, x.t) | none => (0, 0)
    let d2 := { d1 with tim := { d1.tim with hoEnd := 0, hoMean := m.1, hoTime := m.2, y := d1.predict m.1 m.2 } }
    (d2.setTim TS_HOLDOVER).setF TIM_STAT TIM_STAT_RETAINED 1
  else d1.setTim TS_FREERUN

/-- The settings of the system records (Table 16.9) and the identity block (Table 12.5). -/
def Dev.loadSettings (d : Dev) : Dev :=
  let mode := d.settingWord 0xFF00 0 0 % 2
  let hu := d.settingWord 0xFF04 0 (0x08000004) + d.settingWord 0xFF04 1 0x003C0A8C * 2 ^ 32
  let d1 := ({ d with pwr := { d.pwr with pmbAddr := d.settingWord 0xFF05 0 0x40 % 128 } } : Dev).wrN SC_HU_CFG (hu &&& 0x03FF3FFF0FFF0007)
  let d2 := ((d1.setF MC_MAP MC_MAP_HBM_G_LOG2 (clampN 8 20 (d.settingWord 0xFF03 0 12))).setF MC_MAP MC_MAP_DDR_G_LOG2
    (clampN 8 20 (d.settingWord 0xFF03 1 12))).setF SC_ID SC_ID_MODE mode
  let d3 := ((d2.setF ID_MODE ID_MODE_MODE mode).setF ID_MODE ID_MODE_FUNCS (if mode = 1 then 5 else 1)).setF ID_ROM_VER
    ID_ROM_VER_BOOT_SLOT (d.f SC_BOOT SC_BOOT_SLOT)
  (((((d3.wrN ID_SERIAL Config.serial).wrN ID_SRC_DEV (d.settingWord 0xFF06 0 0 % 2 ^ 16)).wrN ID_HOSTBUF_BASE 0x102300000000).wrN
    ID_HOSTBUF_LEN 0x40000000).wrN ID_JOBPOOL_BASE 0x102340000000).wrN ID_JOBPOOL_LEN 0x40000000

/-- A record replayed as a command of PF0 (R471), in a firmware state that does not refuse it; one that does not complete OK is
skipped. PERS_ASSIGN stands in the profile as its own command's setting and asks for no commit again. -/
def replayOne (s : State) (r : Nat × List Nat) : State :=
  let c : Cmd := { slot := 0, op := r.1, noIrq := true, force := false, clear := false, rdest := false, rsv := 0, seq := 0,
                   ps := (r.2 ++ List.replicate 62 0).take 62, ext := 0, s0 := 0, s1 := 0 }
  let skip := { s with dev := s.dev.raise 0x0009 0xFF 0 r.1 }
  if r.1 ≥ 0xFF00 then (if r.1 ≤ 0xFF06 then s else skip)
  else if r.1 = 0x0111 then (if s.dev.compat then { s with dev := s.dev.persAssign c } else skip)
  else match cmdOf r.1 with
  | none => skip
  | some df =>
    if (df.mode == 1 && s.dev.compat) || (df.mode == 2 && !s.dev.compat) || rsvSet c (df.masks c) || df.bad c s then skip
    else
      let x := df.run c s
      if x.1.code = .ok then x.2 else skip

/-- RESTORE: `ack` says that the VDD_CORE regulator answers. -/
def restore (ack : Bool) (s : State) : State :=
  let d := s.dev
  if d.fwState ≠ FW_RESTORE ∨ d.pwr.inReset ∨ d.fwStuck then s
  else
    let f := s.flash
    let d1 := (d.bootNotes (f.selValid && f.pick.2.2) (!f.selValid)).loadSpares.loadLease.startTiming.loadSettings
    let n := f.commits
    let d2 := { d1 with pwr := { d1.pwr with commitTimes := List.replicate n d1.now } }
    let d3 := d2.setVolt (clampN 700 850 (d2.ret.wear.setPoint + 10)) ack
    let s1 := { s with flash := f.erase, dev := d3 }
    let s2 := if d3.pwr.recovery then s1 else d3.ret.profile.foldl replayOne s1
    let d4 := if f.selValid then s2.dev else s2.dev.wantCommit .spare none
    { s2 with dev := d4.setFw FW_TRAIN }

/-- Meaning of RESTORE. -/
def execRestore (ack : Bool) (s : State) : Host.Outcome State Fault Refusal := .next (restore ack s)

/-! TRAIN (R208, R218, R388, R392, R147, R452, R461). -/

/-- A pseudo-channel fails to train: it is dead, and its channel too once both are. -/
def Dev.pcFailed (d : Dev) (pc : Nat) : Dev :=
  let c := pc / 2
  let v := d.f (MC_CHSTAT c) MC_CHSTAT_PC_DEAD ||| 2 ^ (pc % 2)
  if pc ≥ 128 then d
  else if v = 3 then d.chanFailed c
  else ((d.setF (MC_CHSTAT c) MC_CHSTAT_PC_DEAD v).raise 0x0702 c 0 pc)

/-- Units that did not train are marked failed: pseudo-channels, DDR channels and lanes; the state will be DEGRADED. -/
def Dev.untrained (d : Dev) (units chans lanes : List Nat) : Dev :=
  let d1 := units.foldl (fun (e : Dev) u => e.pcFailed u) d
  let d2 := (chans.filter (· < 8)).foldl (fun (e : Dev) c => e.chanFailed (64 + c)) d1
  let d3 := (lanes.filter (· < 80)).foldl
    (fun (e : Dev) n => (e.setLane n { e.lane n with rxFailed := true, txFailed := true }).laneFailed n) d2
  if units.isEmpty && chans.isEmpty && lanes.isEmpty then d3 else d3.unitFailed.degrade

/-- The memory units come up: the DIMMs as their serial presence data says, absent ones failed (R208). -/
def Dev.memUp (d : Dev) (dimm : List Nat) (rate : Nat) : Dev :=
  let d1 := ({ d with memc := { d.memc with dimm := (List.range 8).map fun c => dimm.getD c 0 } } : Dev).setF MC_MAP MC_MAP_DDR_RATE
    (min 4 rate)
  let d2 := (List.range 64).foldl (fun (e : Dev) c => e.setF (MC_CHSTAT c) MC_CHSTAT_STATE 1) d1
  (List.range 8).foldl (fun (e : Dev) c => e.setF (MC_CHSTAT (64 + c)) MC_CHSTAT_STATE (if dimm.getD c 0 = 0 then 3 else 1)) d2

/-- The stored repairs are applied again (R388): each uses one of the spares of its class. -/
def Dev.reapply (d : Dev) : Dev :=
  d.ret.spare.repairs.foldl
    (fun (e : Dev) r =>
      let left := e.f (EC_CTRL r.1) EC_CTRL_SPARES_LEFT
      if r.1 > 6 ∨ left = 0xFFFF ∨ left = 0 then e else e.setF (EC_CTRL r.1) EC_CTRL_SPARES_LEFT (left - 1)) d

/-- Firmware leaves TRAIN for READY or DEGRADED; firmware of a TRIAL image that reaches READY commits TRIAL clear (R461). -/
def Dev.enterReady (d : Dev) : Dev :=
  let d1 := d.setFw (if d.pwr.degraded then FW_DEGRADED else FW_READY)
  if d.pwr.degraded || !d1.on SC_BOOT SC_BOOT_TRIAL then d1
  else ((d1.setF SC_BOOT SC_BOOT_TRIES 0).putSetting 0xFF02 [d1.f SC_BOOT SC_BOOT_SLOT]).wantCommit .image none

/-- TRAIN: `dimm` are the sizes in GiB of the DIMMs that answer, `rate` the code of the rate they share; `units`, `chans` and `lanes`
did not train; `tiles` are reserves that failed their self-test; `chkBad` names checkers of classes 3 to 6 that failed; `bodyOk` says
that the rest of the image matches. -/
def train (dimm : List Nat) (rate : Nat) (units chans lanes tiles : List Nat) (chkBad : List (Nat × Nat)) (bodyOk : Bool)
    (s : State) : State :=
  let d := s.dev
  if d.fwState ≠ FW_TRAIN ∨ d.pwr.inReset ∨ d.fwStuck then s
  else
    let d1 := ((d.memUp dimm rate).reapply).untrained units (chans.filter fun c => dimm.getD c 0 ≠ 0) lanes
    let d2 := ((List.range 68).filter fun t => d1.tileRole t == 1).foldl (fun (e : Dev) t => e.reserveTest t (!tiles.contains t)) d1
    let s1 := (chkBad.filter fun x => decide (3 ≤ x.1 ∧ x.1 ≤ 6)).foldl (fun t x => chkFail x.1 x.2 t) { s with dev := d2 }
    let d3 := if chkBad.any fun x => x.1 == 5 || x.1 == 6 then s1.dev.degrade else s1.dev
    { s1 with dev := if bodyOk then d3.enterReady else d3.setFw FW_HALTED }

/-- Meaning of TRAIN. -/
def execTrain (dimm : List Nat) (rate : Nat) (units chans lanes tiles : List Nat) (chkBad : List (Nat × Nat)) (bodyOk : Bool)
    (s : State) : Host.Outcome State Fault Refusal := .next (train dimm rate units chans lanes tiles chkBad bodyOk s)

/-- TRAIN_TIMEOUT (R459): units not trained by 11.0 s are marked failed, and the state becomes DEGRADED. -/
def execTrainTimeout (units chans lanes : List Nat) (s : State) : Host.Outcome State Fault Refusal := nextDev s (
  let d := s.dev
  if d.fwState ≠ FW_TRAIN ∨ d.pwr.inReset ∨ d.fwStuck then d else ((d.untrained units chans lanes).degrade).setFw FW_DEGRADED)

/-! Commits (R467 to R470, R292, R407). -/

/-- Commits outside the budget (R469). -/
def CommitWhy.exempt : CommitWhy → Bool
  | .spare | .mode | .pers | .image | .factory | .thermal => true
  | _ => false

/-- Commits of the last 24 h. -/
def Dev.recentCommits (d : Dev) : List Nat := d.pwr.commitTimes.filter fun t => decide (d.now < t + 86400 * 10 ^ 9)

/-- Firmware, or in HALTED the boot ROM, can start a commit. -/
def Dev.canCommit (d : Dev) : Bool :=
  d.pwr.auxOn && !d.pwr.inReset && (d.fwState == FW_HALTED || (!d.fwStuck && d.fwState != FW_BOOT && d.fwState != FW_SHUTDOWN))

/-- The hold-up check of a commit (R467 step 3): run now, unless each request ran one with its command; after an agreed shutdown the
last result stands for 60 s (R468). -/
def Dev.commitCheck (d : Dev) (s0 s1 : Nat) : Bool × Dev :=
  if d.therm.shut.isSome then
    (d.f SC_HU_RES SC_HU_RES_RESULT == 1 && (match d.pwr.huAt with | some t => decide (d.now ≤ t + 60 * 10 ^ 9) | none => false), d)
  else if d.pwr.reqs.all (·.checked) then (true, d)
  else d.huCheck s0 s1

/-- A commit that fails its check: jobs end HOLDUP_LOW and ERR_SUM bit 5 is set; a skipped commit of R407 leaves no trace. -/
def Dev.commitLow (d : Dev) : Dev :=
  let rs := d.pwr.reqs
  let hist := rs.any fun r => decide (r.why = .history)
  let d1 := { d with pwr := { d.pwr with reqs := [], histLow := if hist then some d.now else d.pwr.histLow } }
  if d.therm.shut.isSome then d1
  else ((rs.filterMap (·.job)).foldl (fun (e : Dev) i => e.endJob i .holdupLow 0) d1).errSum 5

/-- The retained state that a commit captures: what R292 names of the timing history. -/
def Retained.kept (r : Retained) : Retained := { r with hist := { r.hist with secs := [] } }

/-- COMMIT_START (R467, R469): with a request waiting and the target blank, the hold-up check runs and programming starts; a target
that is not blank is erased first. Beyond the budget only exempt requests start a commit, and it serves every request. -/
def commitStart (s0 s1 : Nat) (s : State) : State :=
  let d := s.dev
  let f := s.flash
  let budget := decide (d.recentCommits.length < 12) || d.pwr.reqs.any fun r => r.why.exempt
  if d.pwr.reqs.isEmpty || !d.canCommit || f.engine != .idle || !budget then s
  else if !f.clean then { s with flash := f.erase }
  else
    let x := d.commitCheck s0 s1
    if !x.1 then { s with dev := x.2.commitLow }
    else
      let p := x.2.pwr
      { s with
        flash := { f with engine := .programming, bufGen := (f.gen + 1) % 2 ^ 32, bufCommits := d.recentCommits.length,
                          buf := x.2.ret.kept },
        dev := { x.2 with pwr := { p with reqs := [], running := p.reqs, commitTimes := d.now :: d.recentCommits } } }

/-- Meaning of COMMIT_START; `s0` and `s1` are HOLDUP_SENSE in µV before and at the end of the test current. -/
def execCommitStart (s0 s1 : Nat) (s : State) : Host.Outcome State Fault Refusal := .next (commitStart s0 s1 s)

/-- COMMIT_READBACK (R467 steps 5 and 6): `same` says that the read-back equals the buffer. Firmware that a reset took away since the
start hears nothing of it (R458). -/
def commitReadback (same : Bool) (s : State) : State :=
  let f := s.flash
  if f.engine ≠ .programming ∧ f.engine ≠ .verifying then s
  else
    let jobs := s.dev.pwr.running.filterMap (·.job)
    let d := { s.dev with pwr := { s.dev.pwr with running := [] } }
    let f1 := f.putOther (if same then .ok f.bufGen f.bufCommits f.buf else .bad)
    let f2 := { f1 with engine := .idle }
    if same then
      { s with flash := ({ f2 with sel := f.target, selValid := true } : Flash).erase, dev := jobs.foldl (fun (e : Dev) i => e.endJob i .ok 0) d }
    else
      let d1 := if s.dev.pwr.running.isEmpty then d else d.raise 0x0008 0xFF 0 0
      { s with flash := f2.erase, dev := jobs.foldl (fun (e : Dev) i => e.endJob i .hwFault 0) d1 }

/-- Meaning of COMMIT_READBACK. -/
def execCommitReadback (same : Bool) (s : State) : Host.Outcome State Fault Refusal := .next (commitReadback same s)

/-- ERASE_COMPLETE (R466, R467): what was not selected is blank, and the engine idle. -/
def execEraseComplete (s : State) : Host.Outcome State Fault Refusal :=
  .next (let f := s.flash
    if f.engine ≠ .erasing then s
    else
      let f1 := if f.selValid then f.putOther .blank else { f with slot0 := .blank, slot1 := .blank }
      { s with flash := { f1 with engine := .idle } })

/-- HOURLY_COMMIT_RETRY (R292). -/
def execHourlyCommitRetry (s : State) : Host.Outcome State Fault Refusal := nextDev s (
  let d := s.dev
  match d.pwr.histLow with
  | some t => if decide (d.now < t + 3600 * 10 ^ 9) || !d.serving then d
    else ({ d with pwr := { d.pwr with histLow := none } } : Dev).wantCommit .history none
  | none => d)

end Sys2Proof.Machine
end

