-- ==== Sys2Proof/Machine/HostPort.lean ====
section
/-!
DEFINITION. The host's side of the device: doorbells and slots, BAR0 and BAR2, interrupts, endpoint resets, the end of jobs, and the
SMBus and SPI ports (12_host_and_mailboxes R357 to R379; 17_package_and_signals R483, R487).
-/
namespace Sys2Proof.Machine

/-! Slots (R362, R363, R366). -/

/-- DOORBELL_WRITE: bits that firmware owns already are ignored and counted; the others hand their slots over, in ascending order. -/
def execDoorbellWrite (v : Nat) (s : State) : Host.Outcome State Fault Refusal := nextDev s (
  let d := s.dev
  let own := d.rdN DOORBELL
  let ask := (List.range 32).filter fun k => bit v k
  let new := ask.filter fun k => !bit own k
  let d1 := (d.wrN DOORBELL (own ||| v % 2 ^ 32)).cntF HI_CNT HI_CNT_DB_IGN (ask.length - new.length)
  { d1 with host := { d1.host with fwq := d1.host.fwq ++ new } })

/-- The slot whose mailbox or extension a BAR0 offset lies in. -/
def slotOf (off : Nat) : Option Nat :=
  if 0x1000 ≤ off ∧ off < 0x3000 then some ((off - 0x1000) / 0x100)
  else if 0x8000 ≤ off ∧ off < 0x10000 then some ((off - 0x8000) / 0x400)
  else none

/-- MAILBOX_SLOT_WRITE: the host writes a mailbox slot or an extension. One of a slot that firmware owns is discarded, counted and
logged (R362); completion slots and status words are not writable. -/
def execMailboxSlotWrite (off size v : Nat) (s : State) : Host.Outcome State Fault Refusal := nextDev s (
  let d := s.dev
  if !(size == 4 || size == 8) || off % size != 0 then d
  else match slotOf off with
  | none => d
  | some k =>
    if bit (d.rdN DOORBELL) k then (d.cntF HI_CNT HI_CNT_MB_VIOL 1).raise 0x1001 k off 0
    else d.wrWords (DEVSTAT + off) ([v % 2 ^ 32, v / 2 ^ 32 % 2 ^ 32].take (size / 4)))

/-! BAR0 and BAR2 (R358, R373, R374). -/

/-- The register area holds a 32-bit register at an offset (R358). -/
def bar0Word (off : Nat) : Bool :=
  off == 0x100 || off == 0x104 || (decide (0x180 ≤ off ∧ off < 0x200) && off % 4 == 0) || off == 0x200 || off == 0x204 || off == 0x208

/-- An access of BAR0 is accepted (R358). -/
def bar0Ok (off size : Nat) : Bool :=
  (size == 4 || size == 8) && off % size == 0 && !(size == 8 && (bar0Word off || bar0Word (off + 4)))

/-- BAR0_REFUSED_ACCESS: a read completes with Unsupported Request, a write is discarded, and both count; a write with the EP bit set
is dropped and entered in ERRC. -/
def execBar0RefusedAccess (write ep : Bool) (off size : Nat) (s : State) : Host.Outcome State Fault Refusal :=
  .next (if write && ep then { s with dev := s.dev.raise 0x1003 0xFF off size }
    else if bar0Ok off size then s
    else
      let s1 := { s with dev := s.dev.cntF HI_CNT HI_CNT_BAD_ACC 1 }
      if write then s1 else s1.answer { kind := .unsupported })

/-- BAR2_ACCESS: through the aperture that the offset falls in. -/
def bar2 (write : Bool) (off len : Nat) (bytes : List Nat) (ep : Bool) (s : State) : State :=
  let a := off / 0x4000000
  let d := s.dev
  let on := a < 4 && d.on (APER a) APER_EN
  let addr := d.f (APER a) APER_BASE * 2 ^ 26 + off % 0x4000000
  if write then
    if on && d.on (APER a) APER_WRITE then (busWrite 10 addr bytes (bytes.map fun _ => ep) s).2
    else { s with dev := (d.cntF HI_CNT HI_CNT_BAR2_WDROP 1).raise 0x1002 0xFF off 0 }
  else if !on then s.answer { kind := .unsupported }
  else
    let r := busRead 10 addr len s
    r.2.answer (if r.1.kind = .ok then r.1 else { kind := .abort })

/-- Meaning of BAR2_ACCESS. -/
def execBar2Access (write : Bool) (off len : Nat) (bytes : List Nat) (ep : Bool) (s : State) : Host.Outcome State Fault Refusal :=
  .next (bar2 write off len bytes ep s)

/-! Taking up commands (R365, R366, R381, R444). -/

/-- A slot taken up by personality p's word (Table 15.5); an unknown word is a bad command, and one that cannot be served now is
answered busy. -/
def takeDc (p k : Nat) (s : State) : State :=
  let d := s.dev
  let op := d.dcWord p k 0 % 2 ^ 16
  let w := d.dcWord p k 1
  if !d.compat || p ≥ 4 || k ≥ 8 || d.fwStuck || (served d.fwState 0).isNone || d.fwState = FW_HALTED then s
  else if !dcWords.contains op then { s with dev := d.dcRelease p k DC_BAD_CMD [] }
  else if !(d.per p).en || !d.serving then { s with dev := d.dcRelease p k DC_BUSY [] }
  else match op with
  | 0x0001 => serveDc op p k (onPers fun d => ((DC_OK, []), d.persReset p)) s
  | 0x0010 => serveDc op p k (persStart p w) s
  | 0x0011 => serveDc op p k (onPers fun d => ((DC_OK, []), d.persStop p)) s
  | 0x0020 => serveDc op p k (onPers fun d => d.persSetDump p w) s
  | 0x0030 => serveDc op p k (onPers fun d => d.persSetOutput p k) s
  | 0x0040 => serveDc op p k (persLoadDsp p k) s
  | 0x0041 => serveDc op p k (onPers fun d => d.persRunDsp p w) s
  | 0x0042 => serveDc op p k (onPers fun d => ((DC_OK, []), d.persHaltDsp p)) s
  | _ => serveDc op p k (onPers fun d => ((DC_OK, d.persStatus p), d)) s

/-- COMMAND_TAKE_UP: the slot at the front of the doorbell order, whatever command it holds; an opcode that Table 12.13 does not list
completes with BAD_OPCODE. `s0` and `s1` are what a hold-up check would measure. -/
def takeUp (s0 s1 : Nat) (s : State) : State :=
  match s.dev.host.fwq.head? with
  | none => s
  | some q =>
    if q ≥ 64 then takeDc ((q - 64) / 8) ((q - 64) % 8) s
    else
      let c := s.dev.readCmd q s0 s1
      match cmdOf c.op with
      | some df => serve df q s0 s1 s
      | none => if s.dev.mailServed then finish c { code := .badOpcode } s else s

/-- Meaning of COMMAND_TAKE_UP. -/
def execCommandTakeUp (s0 s1 : Nat) (s : State) : Host.Outcome State Fault Refusal := .next (takeUp s0 s1 s)

/-! Interrupts and the endpoint (R359, R360, R376). -/

/-- A message whose cause arose before is sent now, or waits further. -/
def Dev.resend (d : Dev) (v : Nat) : Dev :=
  let h := d.host
  if !bit h.waiting v || !h.msixEn || h.d3hot || !h.linkUp || bit h.spacing v then d
  else
    let d1 := { d with host := { h with waiting := h.waiting - 2 ^ v } }
    if bit h.msixMask v then { d1 with host := { d1.host with msixPend := h.msixPend ||| 2 ^ v } }
    else
      let d2 := d1.emit .msix v []
      if d2.f INT_MOD INT_MOD_MOD_US = 0 then d2 else { d2 with host := { d2.host with spacing := h.spacing ||| 2 ^ v } }

/-- MSIX_SPACING_END: a cause that arose within the spacing sends one message. -/
def execMsixSpacingEnd (vector : Nat) (s : State) : Host.Outcome State Fault Refusal := nextDev s (
  let h := s.dev.host
  if !bit h.spacing vector then s.dev
  else ({ s.dev with host := { h with spacing := h.spacing - 2 ^ vector } } : Dev).resend vector)

/-- A pending vector that is no longer masked sends its message. -/
def Dev.unmask (d : Dev) (v : Nat) : Dev :=
  let h := d.host
  if bit h.msixPend v && !bit h.msixMask v && h.msixEn && !h.d3hot && h.linkUp then
    ({ d with host := { h with msixPend := h.msixPend - 2 ^ v } } : Dev).emit .msix v []
  else d

/-- RETURN_TO_D0: the power state, the link, Bus Master Enable, MSI-X enable and the vector masks as host software leaves them; in D0
with the link up and MSI-X enabled, causes that arose meanwhile are signalled (R359). -/
def execReturnToD0 (d3hot linkUp busMaster msixEn : Bool) (mask : Nat) (s : State) : Host.Outcome State Fault Refusal := nextDev s (
  let d := { s.dev with host := { s.dev.host with d3hot := d3hot, linkUp := linkUp, busMaster := busMaster, msixEn := msixEn,
                                                  msixMask := mask % 256 } }
  (List.range 8).foldl (fun (e : Dev) v => (e.resend v).unmask v) d)

/-- ENDPOINT_RESET (R360): 0 an FLR of PF0, 1 a hot reset, 2 a link-down reset, 3 PERST#. -/
def execEndpointReset (kind : Nat) (s : State) : Host.Outcome State Fault Refusal := nextDev s (
  let d := ((s.dev.wr INT_EN (regReset INT_EN)).wr INT_MOD (regReset INT_MOD)).wr INT_CAUSE (regReset INT_CAUSE)
  let d1 := [0, 1, 2, 3].foldl (fun (e : Dev) a => e.wrN (APER a) 0) d
  { d1 with host := { d1.host with msixEn := false, msixMask := 0xFF, msixPend := 0, spacing := 0, waiting := 0, d3hot := false,
                                   busMaster := false, linkUp := d1.host.linkUp && decide (kind < 2) } })

/-- OUTBOUND_TIMEOUT (R375): an outbound read of a master has no completion within 50 ms, and the master receives an error response; a
DMA channel of that port whose source it is ends its descriptor with SRC_ERR. -/
def execOutboundTimeout (master addr : Nat) (s : State) : Host.Outcome State Fault Refusal :=
  let hit := (List.range 16).filter fun n =>
    dmaPort n == master && (s.dev.ch n).copying && decide ((s.dev.ch n).src ≤ addr ∧ addr < (s.dev.ch n).src + (s.dev.ch n).len)
  .next (({ s with dev := hit.foldl (fun (e : Dev) n => e.dmaFail n 3) s.dev } : State).answer (errRsp 0))

/-- HEARTBEAT_TICK (R361, R456): firmware, where it runs, advances HEARTBEAT. -/
def execHeartbeatTick (s : State) : Host.Outcome State Fault Refusal := nextDev s (
  let d := s.dev
  if d.fwStuck || d.pwr.inReset || [FW_BOOT, FW_HALTED, FW_SHUTDOWN].contains d.fwState then d
  else d.setF DEVSTAT DEVSTAT_HEARTBEAT ((d.f DEVSTAT DEVSTAT_HEARTBEAT + 1) % 2 ^ 16))

/-! Jobs (R370 to R372). -/

/-- What a cancelled job held is let go. -/
def Dev.dropJob (d : Dev) (i : Nat) : Dev :=
  let beam := match d.beam.load with
    | some x => if x.1 = i then { d.beam with load := none } else d.beam
    | none => d.beam
  let lane := (d.job i).params.getD 0 0 % 256
  let d1 := if d.jobOp i = 0x0304 ∧ lane < 80 then d.setF (LN_EYE lane) LN_EYE_EN 0 else d
  { d1 with
    beam := beam,
    run := { d1.run with peeks := d1.run.peeks.filter fun k => k.job != i },
    jesd := d1.jesd.map fun x => (x.1, x.2.map fun (j : Jesd) => if j.armJob = some i then { j with armJob := none, armed := none } else j),
    lanes := d1.lanes.map fun x => (x.1, if x.2.exitJob = some i then { x.2 with exitJob := none } else x.2),
    net := { d1.net with queue := d1.net.queue.map fun q => if q.job = some i then { q with job := none } else q } }

/-- JOB_DONE: the work of a running job ends and its status word reaches DONE; a CANCELLING job ends PARTIAL with its results so far.
`bad` names the units that a self-test found failed. -/
def jobDone (i : Nat) (bad : List Nat) (s : State) : State :=
  if s.dev.jobState i = 4 then
    { s with dev := (s.dev.dropJob i).endJob i .partialDone (s.dev.jobCount i) }
  else if s.dev.jobState i = 2 then
    let r := jobWork (s.dev.jobOp i) bad i s
    match r.2 with
    | some (code, n) => { r.1 with dev := r.1.dev.endJob i code n }
    | none => r.1
  else s

/-- Meaning of JOB_DONE; firmware must run, or the boot ROM in HALTED. -/
def execJobDone (index : Nat) (bad : List Nat) (s : State) : Host.Outcome State Fault Refusal :=
  .next (if s.dev.mailServed then jobDone index bad s else s)

/-! SMBus and SPI (R377 to R379, R487). -/

/-- The bytes of a number with some of them replaced from an offset. -/
def overlay (n old off : Nat) (bs : List Nat) : Nat :=
  leNat ((List.range n).map fun i => if off ≤ i ∧ i < off + bs.length then bs.getD (i - off) 0 else old / 256 ^ i % 256)

/-- The SMBus or SPI controller rings SMB_DB (R378): once until the completion is written. -/
def Dev.smbRing (d : Dev) : Dev :=
  if d.rdN SMB_DB % 2 = 1 then d else { d.wrN SMB_DB 1 with host := { d.host with fwq := d.host.fwq ++ [SMB_SLOT] } }

/-- A write of the window of Table 12.12 from an offset: TIM_XO_TEMP, the mailbox while SMB_DB reads 0, and SMB_DB. -/
def Dev.winWrite (d : Dev) (off : Nat) (bs : List Nat) : Dev :=
  let n := bs.length
  let piece := fun (a : Nat) => (a - off, (bs.drop (a - off)).take (a + 4 - max off a))
  let hits := fun (a : Nat) => decide (off < a + 4 ∧ a < off + n)
  let word := fun (a old : Nat) => overlay 4 old (off - a) (piece a).2 % 2 ^ 32
  let d1 := if hits 0x14 then d.xoTempWrite (word 0x14 (d.rdN TIM_XO_TEMP)) else d
  let d2 := if d.rdN SMB_DB % 2 = 1 then d1
    else (List.range 16).foldl
      (fun (e : Dev) i => if hits (0x20 + 4 * i) then e.wrN (SMB_MB i) (word (0x20 + 4 * i) (e.rdN (SMB_MB i))) else e) d1
  if off ≤ 0xA0 ∧ 0xA0 < off + n ∧ bs.getD (0xA0 - off) 0 % 2 = 1 then d2.smbRing else d2

/-- The hottest live reading of a range of sensors. -/
def Dev.hottest (d : Dev) (lo n : Nat) : Nat :=
  match ((List.range n).map (· + lo)).filter d.sensLive with
  | [] => 0
  | a :: r => wrapN 16 (r.foldl (fun m k => max m (d.temp k)) (d.temp a))

/-- A byte of the window as it reads; the power estimate is a value that the manual gives no rule for. -/
def Dev.winByte (d : Dev) (off : Nat) : Nat :=
  let pick := fun (v base : Nat) => v / 256 ^ (off - base) % 256
  if off < 8 then pick (d.rdN DEVSTAT) 0
  else if off < 0x0C then pick (d.rdN ID_MODE) 8
  else if off < 0x0E then pick (d.hottest 0 52) 0x0C
  else if off < 0x10 then pick (d.hottest 52 4) 0x0E
  else if off < 0x12 then pick (d.f AV_CTRL AV_CTRL_VSET_MV) 0x10
  else if off < 0x14 then pick (d.free % 2 ^ 16) 0x12
  else if off < 0x18 then pick (d.rdN TIM_XO_TEMP) 0x14
  else if 0x20 ≤ off ∧ off < 0x60 then d.rdN (SMB_MB ((off - 0x20) / 4)) / 256 ^ (off % 4) % 256
  else if 0x60 ≤ off ∧ off < 0xA0 then d.rdN (SMB_CPL ((off - 0x60) / 4)) / 256 ^ (off % 4) % 256
  else if off = 0xA0 then d.rdN SMB_DB % 2
  else 0

/-- SMBUS_WRITE: a block write; one with a wrong PEC is discarded and counted. -/
def execSmbusWrite (off : Nat) (data : List Nat) (pecOk : Bool) (s : State) : Host.Outcome State Fault Refusal := nextDev s (
  let d := s.dev
  if !d.pwr.auxOn ∨ data.length > 64 then d
  else if !pecOk then { d with host := { d.host with pecErr := d.host.pecErr + 1 } }
  else d.winWrite off data)

/-- SMBUS_DOORBELL. -/
def execSmbusDoorbell (s : State) : Host.Outcome State Fault Refusal := nextDev s s.dev.smbRing

/-- SMBUS_TIMEOUT: the port releases the bus and discards the transaction. -/
def execSmbusTimeout (s : State) : Host.Outcome State Fault Refusal :=
  nextDev s { s.dev with host := { s.dev.host with smbTimeouts := s.dev.host.smbTimeouts + 1 } }

/-- SMBUS_ALERT_RESPONSE (R487): the device answers with its address and releases SMB_ALERT_N; a cause that arose during the answer
asserts it again. -/
def execSmbusAlertResponse (again : Bool) (s : State) : Host.Outcome State Fault Refusal := nextDev s (
  let d := s.dev
  if !d.host.smbAlert then d
  else ({ d with host := { d.host with smbAlert := again } } : Dev).emit .smbus (0x4C + d.pwr.smbAddr % 4) [])

/-- SPI_FRAME (R379): opcode, offset and data; a frame with another opcode is ignored. In compatibility mode the port carries a
protocol that the manual does not give. -/
def execSpiFrame (bytes : List Nat) (len : Nat) (s : State) : Host.Outcome State Fault Refusal :=
  let d := s.dev
  let off := bytes.getD 1 0
  if d.compat then .refused .spiProtocolNotGiven
  else nextDev s (
    if bytes.length < 2 then d
    else if bytes.getD 0 0 = 0x02 then d.winWrite off (bytes.drop 2)
    else if bytes.getD 0 0 = 0x03 then (d.emit .spi 0 ((List.range len).map fun i => d.winByte (off + i))).drew
    else d)

/-- SPI_CS_TIMEOUT (R483): the frame is abandoned. -/
def execSpiCsTimeout (s : State) : Host.Outcome State Fault Refusal :=
  nextDev s { s.dev with host := { s.dev.host with spiTimeouts := s.dev.host.spiTimeouts + 1 } }

end Sys2Proof.Machine
end

