-- ==== Sys2Proof/Machine/NetTx.lean ====
section
/-!
DEFINITION. What leaves a port at a frame boundary: priorities, round robin, token buckets, the lease and the packets of each class
(08_network_and_time R243, R249 to R254, R258; 05_accumulation R169, R176; 14_heat_wear_and_twins R417).
-/
namespace Sys2Proof.Machine

/-- A packet that stands ready on a stream: its UDP payload, its number, whether it is a GAP record, and what it comes from. -/
structure Ready where
  body : List Nat
  seq : Nat
  gap : Bool
  /-- The oldest waiting packet, or none for the next packet of a dump of this identifier and image. -/
  pkt : Option Pkt
  dump : Nat := 0
  image : Nat := 0

/-- The first packet ready on a stream: one that waits, or the next of the oldest dump being read (R169, R176). -/
def Dev.ready (d : Dev) (i : Nat) : Option Ready :=
  match d.waiting i with
  | p :: _ => some { body := p.body, seq := p.seq, gap := p.gap, pkt := some p }
  | [] => d.run.dumps.findSome? fun u => (u.nextOn i).map fun x =>
      { body := d.avpPacket u i x.1 x.2.1 x.2.2, seq := x.1, gap := false, pkt := none, dump := u.id, image := u.image }

/-- The rate of a stream in Mb/s: its own, and for a dump the lower of it and the route's (R169, R249). -/
def Dev.txRate (d : Dev) (i : Nat) (s : Stream) (r : Ready) : Nat :=
  let line := match r.pkt with
    | some _ => 0
    | none => ((d.run.dumps.find? fun u => u.id == r.dump && u.image == r.image).bind fun u => u.lines.find? fun l => l.stream == i).elim 0
        (·.rate)
  if s.rate = 0 then line else if line = 0 then s.rate else min s.rate line

/-- The token bucket of a stream now, in thousandths of a bit: it holds four packets of its MTU (R249). -/
def Stream.bucket (s : Stream) (now rate : Nat) : Nat := min (4 * s.mtu * 8000) (s.tokens + rate * (now - s.tokAt))

/-- The address of a stream's next hop as a MAC address, where it is known (R254). -/
def Dev.nextMac (d : Dev) (s : Stream) : Option Nat :=
  if isGroup s.v6 s.dst then some (groupMac s.v6 s.dst)
  else if s.static then some (s.words.getD 9 0 + s.words.getD 10 0 % 2 ^ 16 * 2 ^ 32)
  else match d.res s.mac s.v6 ((d.port s.mac).hop s.v6 s.dst) with
    | some r => if r.resolved then some r.mac else none
    | none => none

/-- The frame of a packet (R243, R253). -/
def Dev.streamFrame (d : Dev) (s : Stream) (mac : Nat) (body : List Nat) : List Nat :=
  let p := d.port s.mac
  let tag := if s.tagged then some (s.b 2 11 0, s.pcp) else none
  let src := if s.v6 then (if bit (s.words.getD 0 0) 25 then p.v6b else p.v6a) else p.v4
  let u := udpPacket s.v6 src s.dst (s.b 1 15 0) (s.b 1 31 16) body
  let ip := if s.v6 then ip6Header src s.dst 17 (s.b 2 21 16) (s.b 2 29 22) u.length else ip4Header src s.dst 17 (s.b 2 21 16) (s.b 2 29 22) u.length
  ethHeader mac p.mac tag (if s.v6 then 0x86DD else 0x0800) ++ ip ++ u

/-- A stream can send a packet now: its priority is not paused, its next hop is known, its bucket holds the packet, and on a twin the
lease lasts until the whole frame has left (R249, R251, R417). -/
def Dev.eligible (d : Dev) (i : Nat) (s : Stream) (r : Ready) : Bool :=
  let len := r.body.length + ipHeader s.v6
  let rate := d.txRate i s r
  let mbps := modeMbps (d.macMode s.mac)
  !bit (d.f (EM_STAT s.mac) EM_STAT_PAUSED) (if s.tagged then s.pcp else 0) && (d.nextMac s).isSome &&
    (rate == 0 || decide (len * 8000 ≤ s.bucket d.now rate)) && d.leaseOpen &&
    (!d.isTwin || decide (d.now + ceilDiv ((len + 18 + 4 * b2n s.tagged + 8) * 8000) (max mbps 1) ≤ d.twin.leaseEnd))

/-- The priority of a class (Table 8.2). -/
def clsPriority (cls : Nat) : Nat := match cls with | 5 => 2 | 3 => 3 | 2 => 4 | 1 => 5 | _ => 6

/-- The streams of a port and priority that can send, in the order of the round robin (R249). -/
def Dev.candidates (d : Dev) (m pri : Nat) : List (Nat × Stream × Ready) :=
  let xs := d.streamList.filterMap fun (i, s) =>
    if s.mac = m ∧ clsPriority s.cls = pri then
      match d.ready i with
      | some r => if d.eligible i s r then some (i, s, r) else none
      | none => none
    else none
  match tget (fun _ => none) d.net.rr (8 * m + pri) with
  | some k => xs.filter (fun x => decide (k < x.1)) ++ xs.filter (fun x => decide (x.1 ≤ k))
  | none => xs

/-- A code from its number. -/
def codeOfNum (n : Nat) : Code := if n = 2 then .partialDone else .ok

/-- Counters and bookkeeping of a packet sent (R176, R179, R200, R252). -/
def Dev.sentPacket (d : Dev) (i : Nat) (s : Stream) (r : Ready) : Dev :=
  let d1 := match s.cls, r.gap with
    | 1, false => d.cnt AC_PKTS 1
    | 1, true => (d.cntF AC_GAPS LO32 1).setF AC_CTRL AC_CTRL_GAP_SENT 1
    | 2, false => d.cntF BM_PKTS LO32 1
    | 2, true => d.cntF BM_PKTS HI32 1
    | _, _ => d
  match r.pkt with
  | some p =>
    let q := d1.net.queue
    let d2 := { d1 with net := { d1.net with queue := q.erase p } }
    match p.job with
    | none => d2
    | some j =>
      let x := d2.job j
      let d3 := d2.setJob j { x with bytes := x.bytes + (p.body.length - 64) }
      if p.last then d3.endJob j (codeOfNum (x.tally - 1)) (x.bytes + (p.body.length - 64)) else d3.jobProgress j (x.bytes + (p.body.length - 64))
  | none =>
    { d1 with run := { d1.run with dumps := d1.run.dumps.map fun u =>
        if u.id = r.dump ∧ u.image = r.image then { u with lines := u.lines.map fun l => if l.stream = i then { l with sent := l.sent + 1 } else l }
        else u } }

/-- PACKET_TRANSMIT on a MAC (R249). -/
def Dev.transmit (d : Dev) (m : Nat) : Dev :=
  if !d.portSends m then d
  else match [2, 3, 4, 5, 6].findSome? fun pri => (d.candidates m pri).head?.map fun x => (pri, x) with
  | none => d
  | some (pri, i, s, r) =>
    let rate := d.txRate i s r
    let len := r.body.length + ipHeader s.v6
    let left := if rate = 0 then s.tokens else s.bucket d.now rate - len * 8000
    let d1 := d.setStream i (some { s with tokens := left, tokAt := d.now, sentThrough := if r.gap then s.sentThrough else some r.seq })
    let d2 := { d1 with net := { d1.net with rr := tset (fun _ => none) d1.net.rr (8 * m + pri) (some i) } }
    (d2.sendFrame m (d2.streamFrame s ((d2.nextMac s).getD 0) r.body)).sentPacket i s r

/-- PACKET_TRANSMIT: ports 0 to 19 are the MACs, 20 to 23 the output lanes of the personalities. -/
def execPacketTransmit (port : Nat) (s : State) : Host.Outcome State Fault Refusal :=
  nextDev s (if port < 20 then s.dev.transmit port else if port < 24 ∧ s.dev.compat then s.dev.persSend (port - 20) else s.dev)

end Sys2Proof.Machine
end

