-- ==== Sys2Proof/Machine/Dispatch.lean ====
section
/-!
DEFINITION. The dispatch of every command to its meaning: one arm per constructor of Instr.
-/
namespace Sys2Proof.Machine

/-- The effect of a command on everything but the queue. -/
def exec (i : Instr) (s : State) : Host.Outcome State Fault Refusal :=
  match i with
  | .doorbellWrite v => Sys2Proof.Machine.execDoorbellWrite v s
  | .mailboxSlotWrite off size v => Sys2Proof.Machine.execMailboxSlotWrite off size v s
  | .bar0RefusedAccess write ep off size => Sys2Proof.Machine.execBar0RefusedAccess write ep off size s
  | .bar2Access write off len bytes ep => Sys2Proof.Machine.execBar2Access write off len bytes ep s
  | .commandTakeUp s0 s1 => Sys2Proof.Machine.execCommandTakeUp s0 s1 s
  | .msixSpacingEnd vector => Sys2Proof.Machine.execMsixSpacingEnd vector s
  | .endpointReset kind => Sys2Proof.Machine.execEndpointReset kind s
  | .outboundTimeout master addr => Sys2Proof.Machine.execOutboundTimeout master addr s
  | .heartbeatTick => Sys2Proof.Machine.execHeartbeatTick s
  | .jobDone index bad => Sys2Proof.Machine.execJobDone index bad s
  | .smbusWrite off data pecOk => Sys2Proof.Machine.execSmbusWrite off data pecOk s
  | .smbusDoorbell => Sys2Proof.Machine.execSmbusDoorbell s
  | .smbusTimeout => Sys2Proof.Machine.execSmbusTimeout s
  | .smbusAlertResponse again => Sys2Proof.Machine.execSmbusAlertResponse again s
  | .spiFrame bytes len => Sys2Proof.Machine.execSpiFrame bytes len s
  | .spiCsTimeout => Sys2Proof.Machine.execSpiCsTimeout s
  | .ping slot => Sys2Proof.Machine.execPing slot s
  | .devInfo slot => Sys2Proof.Machine.execDevInfo slot s
  | .jobQuery slot => Sys2Proof.Machine.execJobQuery slot s
  | .jobCancel slot => Sys2Proof.Machine.execJobCancel slot s
  | .jobRelease slot => Sys2Proof.Machine.execJobRelease slot s
  | .aperSet slot => Sys2Proof.Machine.execAperSet slot s
  | .copy slot => Sys2Proof.Machine.execCopy slot s
  | .roleSet slot => Sys2Proof.Machine.execRoleSet slot s
  | .modeSet slot s0 s1 => Sys2Proof.Machine.execModeSet slot s0 s1 s
  | .hostConfig slot => Sys2Proof.Machine.execHostConfig slot s
  | .sysReset slot => Sys2Proof.Machine.execSysReset slot s
  | .persStatus slot => Sys2Proof.Machine.execPersStatus slot s
  | .persAssign slot s0 s1 => Sys2Proof.Machine.execPersAssign slot s0 s1 s
  | .persReset slot => Sys2Proof.Machine.execPersReset slot s
  | .persLog slot => Sys2Proof.Machine.execPersLog slot s
  | .timRefSet slot => Sys2Proof.Machine.execTimRefSet slot s
  | .timLoopSet slot => Sys2Proof.Machine.execTimLoopSet slot s
  | .timForce slot => Sys2Proof.Machine.execTimForce slot s
  | .timPhaseStep slot => Sys2Proof.Machine.execTimPhaseStep slot s
  | .timOutput slot => Sys2Proof.Machine.execTimOutput slot s
  | .timSng slot => Sys2Proof.Machine.execTimSng slot s
  | .timXo slot => Sys2Proof.Machine.execTimXo slot s
  | .timHistory slot => Sys2Proof.Machine.execTimHistory slot s
  | .timStatus slot => Sys2Proof.Machine.execTimStatus slot s
  | .timSysrefGo slot => Sys2Proof.Machine.execTimSysrefGo slot s
  | .timClocks slot => Sys2Proof.Machine.execTimClocks slot s
  | .laneSet slot => Sys2Proof.Machine.execLaneSet slot s
  | .laneStatus slot => Sys2Proof.Machine.execLaneStatus slot s
  | .lanePower slot => Sys2Proof.Machine.execLanePower slot s
  | .eyeScan slot => Sys2Proof.Machine.execEyeScan slot s
  | .prbs slot => Sys2Proof.Machine.execPrbs slot s
  | .errInject slot => Sys2Proof.Machine.execErrInject slot s
  | .laneGroup slot => Sys2Proof.Machine.execLaneGroup slot s
  | .jesdLink slot => Sys2Proof.Machine.execJesdLink slot s
  | .jesdAlign slot => Sys2Proof.Machine.execJesdAlign slot s
  | .frontConfig slot => Sys2Proof.Machine.execFrontConfig slot s
  | .delayModel slot => Sys2Proof.Machine.execDelayModel slot s
  | .modelTable slot => Sys2Proof.Machine.execModelTable slot s
  | .coefLoad slot => Sys2Proof.Machine.execCoefLoad slot s
  | .gainLoad slot => Sys2Proof.Machine.execGainLoad slot s
  | .detectSet slot => Sys2Proof.Machine.execDetectSet slot s
  | .detectRead slot => Sys2Proof.Machine.execDetectRead slot s
  | .routeSet slot => Sys2Proof.Machine.execRouteSet slot s
  | .frontStart slot => Sys2Proof.Machine.execFrontStart slot s
  | .frontStatus slot => Sys2Proof.Machine.execFrontStatus slot s
  | .xcorPlan slot => Sys2Proof.Machine.execXcorPlan slot s
  | .bondRead slot => Sys2Proof.Machine.execBondRead slot s
  | .bondSet slot => Sys2Proof.Machine.execBondSet slot s
  | .tuckpoint slot => Sys2Proof.Machine.execTuckpoint slot s
  | .auditCtrl slot => Sys2Proof.Machine.execAuditCtrl slot s
  | .tileStatus slot => Sys2Proof.Machine.execTileStatus slot s
  | .runStart slot => Sys2Proof.Machine.execRunStart slot s
  | .runStop slot => Sys2Proof.Machine.execRunStop slot s
  | .integSet slot => Sys2Proof.Machine.execIntegSet slot s
  | .dumpRoute slot => Sys2Proof.Machine.execDumpRoute slot s
  | .dumpNow slot => Sys2Proof.Machine.execDumpNow slot s
  | .peek slot => Sys2Proof.Machine.execPeek slot s
  | .accStatus slot => Sys2Proof.Machine.execAccStatus slot s
  | .beamConfig slot => Sys2Proof.Machine.execBeamConfig slot s
  | .beamRoute slot => Sys2Proof.Machine.execBeamRoute slot s
  | .beamWload slot => Sys2Proof.Machine.execBeamWload slot s
  | .beamWswap slot => Sys2Proof.Machine.execBeamWswap slot s
  | .beamStatus slot => Sys2Proof.Machine.execBeamStatus slot s
  | .memStatus slot => Sys2Proof.Machine.execMemStatus slot s
  | .memQos slot => Sys2Proof.Machine.execMemQos slot s
  | .memRetrain slot => Sys2Proof.Machine.execMemRetrain slot s
  | .capConfig slot => Sys2Proof.Machine.execCapConfig slot s
  | .capArm slot => Sys2Proof.Machine.execCapArm slot s
  | .capTrigger slot => Sys2Proof.Machine.execCapTrigger slot s
  | .capRead slot => Sys2Proof.Machine.execCapRead slot s
  | .capRelease slot => Sys2Proof.Machine.execCapRelease slot s
  | .capStatus slot => Sys2Proof.Machine.execCapStatus slot s
  | .ethPort slot => Sys2Proof.Machine.execEthPort slot s
  | .streamSet slot => Sys2Proof.Machine.execStreamSet slot s
  | .acpRx slot => Sys2Proof.Machine.execAcpRx slot s
  | .netStatus slot => Sys2Proof.Machine.execNetStatus slot s
  | .addrTable slot => Sys2Proof.Machine.execAddrTable slot s
  | .ptpConfig slot => Sys2Proof.Machine.execPtpConfig slot s
  | .ptpStatus slot => Sys2Proof.Machine.execPtpStatus slot s
  | .timeSet slot => Sys2Proof.Machine.execTimeSet slot s
  | .timeGet slot => Sys2Proof.Machine.execTimeGet slot s
  | .pulseSet slot => Sys2Proof.Machine.execPulseSet slot s
  | .portDelay slot => Sys2Proof.Machine.execPortDelay slot s
  | .coreLoad slot => Sys2Proof.Machine.execCoreLoad slot s
  | .coreStart slot => Sys2Proof.Machine.execCoreStart slot s
  | .coreStop slot => Sys2Proof.Machine.execCoreStop slot s
  | .coreStatus slot => Sys2Proof.Machine.execCoreStatus slot s
  | .coreTuck slot => Sys2Proof.Machine.execCoreTuck slot s
  | .errRead slot => Sys2Proof.Machine.execErrRead slot s
  | .errAck slot => Sys2Proof.Machine.execErrAck slot s
  | .eccStatus slot => Sys2Proof.Machine.execEccStatus slot s
  | .scrubCtrl slot => Sys2Proof.Machine.execScrubCtrl slot s
  | .cvuSet slot => Sys2Proof.Machine.execCvuSet slot s
  | .eccInject slot => Sys2Proof.Machine.execEccInject slot s
  | .thermStatus slot => Sys2Proof.Machine.execThermStatus slot s
  | .thermSet slot => Sys2Proof.Machine.execThermSet slot s
  | .wearReport slot => Sys2Proof.Machine.execWearReport slot s
  | .reserveStatus slot => Sys2Proof.Machine.execReserveStatus slot s
  | .leaseConfig slot => Sys2Proof.Machine.execLeaseConfig slot s
  | .leaseStatus slot => Sys2Proof.Machine.execLeaseStatus slot s
  | .arbiterConfig slot => Sys2Proof.Machine.execArbiterConfig slot s
  | .healthRead slot => Sys2Proof.Machine.execHealthRead slot s
  | .profileRead slot => Sys2Proof.Machine.execProfileRead slot s
  | .profileWrite slot s0 s1 => Sys2Proof.Machine.execProfileWrite slot s0 s1 s
  | .commit slot => Sys2Proof.Machine.execCommit slot s
  | .holdupStatus slot s0 s1 => Sys2Proof.Machine.execHoldupStatus slot s0 s1 s
  | .fwImage slot => Sys2Proof.Machine.execFwImage slot s
  | .factoryDefaults slot s0 s1 => Sys2Proof.Machine.execFactoryDefaults slot s0 s1 s
  | .selftest slot => Sys2Proof.Machine.execSelftest slot s
  | .selftestResult slot => Sys2Proof.Machine.execSelftestResult slot s
  | .debugLock slot => Sys2Proof.Machine.execDebugLock slot s
  | .dc512Doorbell pers v writes => Sys2Proof.Machine.execDc512Doorbell pers v writes s
  | .dc512Reset pers slot => Sys2Proof.Machine.execDc512Reset pers slot s
  | .dc512Start pers slot => Sys2Proof.Machine.execDc512Start pers slot s
  | .dc512Stop pers slot => Sys2Proof.Machine.execDc512Stop pers slot s
  | .setDump pers slot => Sys2Proof.Machine.execSetDump pers slot s
  | .setOutput pers slot => Sys2Proof.Machine.execSetOutput pers slot s
  | .loadDsp pers slot => Sys2Proof.Machine.execLoadDsp pers slot s
  | .runDsp pers slot => Sys2Proof.Machine.execRunDsp pers slot s
  | .haltDsp pers slot => Sys2Proof.Machine.execHaltDsp pers slot s
  | .getStatus pers slot => Sys2Proof.Machine.execGetStatus pers slot s
  | .dc512Flr pers => Sys2Proof.Machine.execDc512Flr pers s
  | .dc512FrameReceived lane bytes => Sys2Proof.Machine.execDc512FrameReceived lane bytes s
  | .personalitySwitch core => Sys2Proof.Machine.execPersonalitySwitch core s
  | .signalDetect lane => Sys2Proof.Machine.execSignalDetect lane s
  | .cdrLock lane => Sys2Proof.Machine.execCdrLock lane s
  | .adaptationSettled lane => Sys2Proof.Machine.execAdaptationSettled lane s
  | .fecLock lane => Sys2Proof.Machine.execFecLock lane s
  | .frameLock lane inverted => Sys2Proof.Machine.execFrameLock lane inverted s
  | .identify lane srcDev link => Sys2Proof.Machine.execIdentify lane srcDev link s
  | .laneStateTimeout lane => Sys2Proof.Machine.execLaneStateTimeout lane s
  | .lossOfLaneLock lane kind => Sys2Proof.Machine.execLossOfLaneLock lane kind s
  | .lowpowerEnter lane => Sys2Proof.Machine.execLowpowerEnter lane s
  | .lowpowerExit lane => Sys2Proof.Machine.execLowpowerExit lane s
  | .lpExitLate lane => Sys2Proof.Machine.execLpExitLate lane s
  | .aslFrameReceived lane slot fecCorr fecUncorr header payload => Sys2Proof.Machine.execAslFrameReceived lane slot fecCorr fecUncorr header payload s
  | .bulkAuditPoint => Sys2Proof.Machine.execBulkAuditPoint s
  | .aslFrameSlot lane => Sys2Proof.Machine.execAslFrameSlot lane s
  | .bulkFrameSend link ch payload => Sys2Proof.Machine.execBulkFrameSend link ch payload s
  | .laneTuckpoint group num => Sys2Proof.Machine.execLaneTuckpoint group num s
  | .txMonitorFail lane => Sys2Proof.Machine.execTxMonitorFail lane s
  | .laneFailTimeout lane => Sys2Proof.Machine.execLaneFailTimeout lane s
  | .jesdMultiblockReceived link lane crcOk samples => Sys2Proof.Machine.execJesdMultiblockReceived link lane crcOk samples s
  | .sysrefEdge link cycles since => Sys2Proof.Machine.execSysrefEdge link cycles since s
  | .sysrefTimeout link => Sys2Proof.Machine.execSysrefTimeout link s
  | .jesdLinkFault link => Sys2Proof.Machine.execJesdLinkFault link s
  | .eyePointStart lane => Sys2Proof.Machine.execEyePointStart lane s
  | .eyePointDone lane errs ui => Sys2Proof.Machine.execEyePointDone lane errs ui s
  | .eyeScanWaitTimeout lane => Sys2Proof.Machine.execEyeScanWaitTimeout lane s
  | .checkerLock lane bits errs => Sys2Proof.Machine.execCheckerLock lane bits errs s
  | .injGo lane => Sys2Proof.Machine.execInjGo lane s
  | .periodicInjection lane => Sys2Proof.Machine.execPeriodicInjection lane s
  | .cntClr lane => Sys2Proof.Machine.execCntClr lane s
  | .sampleDeadline input group => Sys2Proof.Machine.execSampleDeadline input group s
  | .delayKnot => Sys2Proof.Machine.execDelayKnot s
  | .frontSpectrum => Sys2Proof.Machine.execFrontSpectrum s
  | .detectorIntervalEnd kind input channel interval => Sys2Proof.Machine.execDetectorIntervalEnd kind input channel interval s
  | .envelopeEvent input => Sys2Proof.Machine.execEnvelopeEvent input s
  | .kurtosisBlock => Sys2Proof.Machine.execKurtosisBlock s
  | .frontStartReached => Sys2Proof.Machine.execFrontStartReached s
  | .batchClose selftest => Sys2Proof.Machine.execBatchClose selftest s
  | .stagingReadComplete bad ce => Sys2Proof.Machine.execStagingReadComplete bad ce s
  | .courseDispatch => Sys2Proof.Machine.execCourseDispatch s
  | .itemSlot ce ue flips => Sys2Proof.Machine.execItemSlot ce ue flips s
  | .pauseCyclesEnd => Sys2Proof.Machine.execPauseCyclesEnd s
  | .mortarRelease => Sys2Proof.Machine.execMortarRelease s
  | .chunkPromote => Sys2Proof.Machine.execChunkPromote s
  | .dumpStart => Sys2Proof.Machine.execDumpStart s
  | .dumpComplete => Sys2Proof.Machine.execDumpComplete s
  | .reserveTileSelftest tile pass => Sys2Proof.Machine.execReserveTileSelftest tile pass s
  | .strikeExpiry tile => Sys2Proof.Machine.execStrikeExpiry tile s
  | .beamChannelCourse => Sys2Proof.Machine.execBeamChannelCourse s
  | .swap who => Sys2Proof.Machine.execSwap who s
  | .ready who => Sys2Proof.Machine.execReady who s
  | .trigInEdge pin rising holdNs => Sys2Proof.Machine.execTrigInEdge pin rising holdNs s
  | .trigTimeout pin => Sys2Proof.Machine.execTrigTimeout pin s
  | .capDrop seg off len => Sys2Proof.Machine.execCapDrop seg off len s
  | .commandSlot unit dt arrivals => Sys2Proof.Machine.execCommandSlot unit dt arrivals s
  | .refresh unit atLimit rows => Sys2Proof.Machine.execRefresh unit atLimit rows s
  | .retrainPause channel => Sys2Proof.Machine.execRetrainPause channel s
  | .retrainForced channel => Sys2Proof.Machine.execRetrainForced channel s
  | .parityAlert channel again => Sys2Proof.Machine.execParityAlert channel again s
  | .matrixAccess master wait others write addr len bytes lanes ecc => Sys2Proof.Machine.execMatrixAccess master wait others write addr len bytes lanes ecc s
  | .targetedScrub k e err => Sys2Proof.Machine.execTargetedScrub k e err s
  | .patrolScrub k err => Sys2Proof.Machine.execPatrolScrub k err s
  | .scrubLate k => Sys2Proof.Machine.execScrubLate k s
  | .spared k e spare => Sys2Proof.Machine.execSpared k e spare s
  | .errorHandling => Sys2Proof.Machine.execErrorHandling s
  | .pop => Sys2Proof.Machine.execPop s
  | .clrFirst => Sys2Proof.Machine.execClrFirst s
  | .clrLost => Sys2Proof.Machine.execClrLost s
  | .cvStart unit who => Sys2Proof.Machine.execCvStart unit who s
  | .cvFeedB unit who v => Sys2Proof.Machine.execCvFeedB unit who v s
  | .cvFeedH unit who v => Sys2Proof.Machine.execCvFeedH unit who v s
  | .cvFeedW unit who v => Sys2Proof.Machine.execCvFeedW unit who v s
  | .feedAbsorb unit => Sys2Proof.Machine.execFeedAbsorb unit s
  | .cvAliveGo unit who r => Sys2Proof.Machine.execCvAliveGo unit who r s
  | .cvResultRead unit => Sys2Proof.Machine.execCvResultRead unit s
  | .remap who => Sys2Proof.Machine.execRemap who s
  | .dmaStart ch who => Sys2Proof.Machine.execDmaStart ch who s
  | .resume ch who => Sys2Proof.Machine.execResume ch who s
  | .abort ch who moved => Sys2Proof.Machine.execAbort ch who moved s
  | .descriptorFetch ch => Sys2Proof.Machine.execDescriptorFetch ch s
  | .descriptorComplete ch => Sys2Proof.Machine.execDescriptorComplete ch s
  | .endCheck ch => Sys2Proof.Machine.execEndCheck ch s
  | .cmdStart core who => Sys2Proof.Machine.execCmdStart core who s
  | .cmdHalt core who => Sys2Proof.Machine.execCmdHalt core who s
  | .cmdReset core who => Sys2Proof.Machine.execCmdReset core who s
  | .kick core who => Sys2Proof.Machine.execKick core who s
  | .watchdogExpiry core => Sys2Proof.Machine.execWatchdogExpiry core s
  | .timerCompare core => Sys2Proof.Machine.execTimerCompare core s
  | .swset core line who => Sys2Proof.Machine.execSwset core line who s
  | .windowWriteError core => Sys2Proof.Machine.execWindowWriteError core s
  | .level1Interrupt core => Sys2Proof.Machine.execLevel1Interrupt core s
  | .level2Interrupt core => Sys2Proof.Machine.execLevel2Interrupt core s
  | .reserveCoreSelftest pass => Sys2Proof.Machine.execReserveCoreSelftest pass s
  | .rNop core => Sys2Proof.Machine.execRNop core s
  | .rRts core => Sys2Proof.Machine.execRRts core s
  | .rRti1 core => Sys2Proof.Machine.execRRti1 core s
  | .rRti2 core => Sys2Proof.Machine.execRRti2 core s
  | .rRtt core => Sys2Proof.Machine.execRRtt core s
  | .rEnddo core => Sys2Proof.Machine.execREnddo core s
  | .rSync core => Sys2Proof.Machine.execRSync core s
  | .rWait core => Sys2Proof.Machine.execRWait core s
  | .rTrap core => Sys2Proof.Machine.execRTrap core s
  | .rBra core => Sys2Proof.Machine.execRBra core s
  | .rBsr core => Sys2Proof.Machine.execRBsr core s
  | .rBcc core => Sys2Proof.Machine.execRBcc core s
  | .rDo core => Sys2Proof.Machine.execRDo core s
  | .rRep core => Sys2Proof.Machine.execRRep core s
  | .rMovei core => Sys2Proof.Machine.execRMovei core s
  | .rMover core => Sys2Proof.Machine.execRMover core s
  | .rMovem core => Sys2Proof.Machine.execRMovem core s
  | .rAnd core => Sys2Proof.Machine.execRAnd core s
  | .rOr core => Sys2Proof.Machine.execROr core s
  | .rEor core => Sys2Proof.Machine.execREor core s
  | .rBset core => Sys2Proof.Machine.execRBset core s
  | .rBclr core => Sys2Proof.Machine.execRBclr core s
  | .rBtst core => Sys2Proof.Machine.execRBtst core s
  | .rAddi core => Sys2Proof.Machine.execRAddi core s
  | .rMovesOnly core => Sys2Proof.Machine.execRMovesOnly core s
  | .rMpy core => Sys2Proof.Machine.execRMpy core s
  | .rMac core => Sys2Proof.Machine.execRMac core s
  | .rMsu core => Sys2Proof.Machine.execRMsu core s
  | .rMpyr core => Sys2Proof.Machine.execRMpyr core s
  | .rMacr core => Sys2Proof.Machine.execRMacr core s
  | .rMac2 core => Sys2Proof.Machine.execRMac2 core s
  | .rMsu2 core => Sys2Proof.Machine.execRMsu2 core s
  | .rAdd core => Sys2Proof.Machine.execRAdd core s
  | .rSub core => Sys2Proof.Machine.execRSub core s
  | .rAdda core => Sys2Proof.Machine.execRAdda core s
  | .rSuba core => Sys2Proof.Machine.execRSuba core s
  | .rCmp core => Sys2Proof.Machine.execRCmp core s
  | .rTst core => Sys2Proof.Machine.execRTst core s
  | .rClr core => Sys2Proof.Machine.execRClr core s
  | .rNeg core => Sys2Proof.Machine.execRNeg core s
  | .rAbs core => Sys2Proof.Machine.execRAbs core s
  | .rTfr core => Sys2Proof.Machine.execRTfr core s
  | .rRnd core => Sys2Proof.Machine.execRRnd core s
  | .rAsl core => Sys2Proof.Machine.execRAsl core s
  | .rAsr core => Sys2Proof.Machine.execRAsr core s
  | .rNorm core => Sys2Proof.Machine.execRNorm core s
  | .rExp core => Sys2Proof.Machine.execRExp core s
  | .rJmp core => Sys2Proof.Machine.execRJmp core s
  | .rJsr core => Sys2Proof.Machine.execRJsr core s
  | .rBccLong core => Sys2Proof.Machine.execRBccLong core s
  | .rDoLong core => Sys2Proof.Machine.execRDoLong core s
  | .rRepLong core => Sys2Proof.Machine.execRRepLong core s
  | .rMoveiLong core => Sys2Proof.Machine.execRMoveiLong core s
  | .rMovel core => Sys2Proof.Machine.execRMovel core s
  | .rNormf core => Sys2Proof.Machine.execRNormf core s
  | .rMacx core => Sys2Proof.Machine.execRMacx core s
  | .rMovex core => Sys2Proof.Machine.execRMovex core s
  | .ethFrameReceived port fcsOk bytes fill => Sys2Proof.Machine.execEthFrameReceived port fcsOk bytes fill s
  | .pfcPauseEnd port pri => Sys2Proof.Machine.execPfcPauseEnd port pri s
  | .pfcStorm port pri => Sys2Proof.Machine.execPfcStorm port pri s
  | .stormClear port pri => Sys2Proof.Machine.execStormClear port pri s
  | .pfcRenew port fill => Sys2Proof.Machine.execPfcRenew port fill s
  | .linkDown port localFault fecLock => Sys2Proof.Machine.execLinkDown port localFault fecLock s
  | .linkUp port remoteFault => Sys2Proof.Machine.execLinkUp port remoteFault s
  | .packetTransmit port => Sys2Proof.Machine.execPacketTransmit port s
  | .resolutionRetry => Sys2Proof.Machine.execResolutionRetry s
  | .entryRefresh port v6 ip => Sys2Proof.Machine.execEntryRefresh port v6 ip s
  | .trigTxDrop stream => Sys2Proof.Machine.execTrigTxDrop stream s
  | .ptpMessageTx port kind => Sys2Proof.Machine.execPtpMessageTx port kind s
  | .announceTimeout port => Sys2Proof.Machine.execAnnounceTimeout port s
  | .offsetMeasurement port t1 t2 t3 t4 delay => Sys2Proof.Machine.execOffsetMeasurement port t1 t2 t3 t4 delay s
  | .tsuTodSecRead => Sys2Proof.Machine.execTsuTodSecRead s
  | .stepArm => Sys2Proof.Machine.execStepArm s
  | .pulseEdge p => Sys2Proof.Machine.execPulseEdge p s
  | .activityFault r => Sys2Proof.Machine.execActivityFault r s
  | .periodFault r => Sys2Proof.Machine.execPeriodFault r s
  | .ppsInEdge pin rising holdNs => Sys2Proof.Machine.execPpsInEdge pin rising holdNs s
  | .frequencyMeasurement r y active periodOk => Sys2Proof.Machine.execFrequencyMeasurement r y active periodOk s
  | .switchComplete => Sys2Proof.Machine.execSwitchComplete s
  | .switchTimeout => Sys2Proof.Machine.execSwitchTimeout s
  | .narrowStep => Sys2Proof.Machine.execNarrowStep s
  | .lossOfLock => Sys2Proof.Machine.execLossOfLock s
  | .xoFail => Sys2Proof.Machine.execXoFail s
  | .holdoverUpdate => Sys2Proof.Machine.execHoldoverUpdate s
  | .historyRecord y => Sys2Proof.Machine.execHistoryRecord y s
  | .dailyEntry => Sys2Proof.Machine.execDailyEntry s
  | .xoChanged => Sys2Proof.Machine.execXoChanged s
  | .hoLimit => Sys2Proof.Machine.execHoLimit s
  | .tempStale => Sys2Proof.Machine.execTempStale s
  | .timXoTempWrite v => Sys2Proof.Machine.execTimXoTempWrite v s
  | .phaseStep v => Sys2Proof.Machine.execPhaseStep v s
  | .sysrefOutPulse n => Sys2Proof.Machine.execSysrefOutPulse n s
  | .sensorReading temps bad => Sys2Proof.Machine.execSensorReading temps bad s
  | .shutdownAssert => Sys2Proof.Machine.execShutdownAssert s
  | .sensorTuckpoint sensor => Sys2Proof.Machine.execSensorTuckpoint sensor s
  | .analogueTrip => Sys2Proof.Machine.execAnalogueTrip s
  | .avsAdjust margins ack => Sys2Proof.Machine.execAvsAdjust margins ack s
  | .leaseSync word => Sys2Proof.Machine.execLeaseSync word s
  | .leaseGrant word => Sys2Proof.Machine.execLeaseGrant word s
  | .leaseRevoke word => Sys2Proof.Machine.execLeaseRevoke word s
  | .healthReport word => Sys2Proof.Machine.execHealthReport word s
  | .leaseTimerExpiry => Sys2Proof.Machine.execLeaseTimerExpiry s
  | .noArbiter => Sys2Proof.Machine.execNoArbiter s
  | .healthSlot => Sys2Proof.Machine.execHealthSlot s
  | .arbiterSync => Sys2Proof.Machine.execArbiterSync s
  | .arbiterRenew => Sys2Proof.Machine.execArbiterRenew s
  | .arbiterGrant => Sys2Proof.Machine.execArbiterGrant s
  | .twinFailed node => Sys2Proof.Machine.execTwinFailed node s
  | .arbiterWaitEnd => Sys2Proof.Machine.execArbiterWaitEnd s
  | .powerOnReset straps => Sys2Proof.Machine.execPowerOnReset straps s
  | .resetN lowNs => Sys2Proof.Machine.execResetN lowNs s
  | .supplyMonitorLow supply ns => Sys2Proof.Machine.execSupplyMonitorLow supply ns s
  | .powerSeq step supply ns => Sys2Proof.Machine.execPowerSeq step supply ns s
  | .deviceResetEnd recovery testEn xoOk => Sys2Proof.Machine.execDeviceResetEnd recovery testEn xoOk s
  | .watchdogReset => Sys2Proof.Machine.execWatchdogReset s
  | .bootRomStart corePass flashOk chkBad => Sys2Proof.Machine.execBootRomStart corePass flashOk chkBad s
  | .restore ack => Sys2Proof.Machine.execRestore ack s
  | .train dimm rate units chans lanes tiles chkBad bodyOk => Sys2Proof.Machine.execTrain dimm rate units chans lanes tiles chkBad bodyOk s
  | .trainTimeout units chans lanes => Sys2Proof.Machine.execTrainTimeout units chans lanes s
  | .commitStart s0 s1 => Sys2Proof.Machine.execCommitStart s0 s1 s
  | .commitReadback same => Sys2Proof.Machine.execCommitReadback same s
  | .eraseComplete => Sys2Proof.Machine.execEraseComplete s
  | .tapReset => Sys2Proof.Machine.execTapReset s
  | .instructionLoad code supplies => Sys2Proof.Machine.execInstructionLoad code supplies s
  | .qdpAccess scan slow => Sys2Proof.Machine.execQdpAccess scan slow s
  | .halt => Sys2Proof.Machine.execHalt s
  | .qdpResume => Sys2Proof.Machine.execQdpResume s
  | .step => Sys2Proof.Machine.execStep s
  | .devReset => Sys2Proof.Machine.execDevReset s
  | .breakpoint core => Sys2Proof.Machine.execBreakpoint core s
  | .wordLatchRead addr => Sys2Proof.Machine.execWordLatchRead addr s
  | .registerWrite who addr size v => Sys2Proof.Machine.execRegisterWrite who addr size v s
  | .illegalInstruction core => Sys2Proof.Machine.execIllegalInstruction core s
  | .vddAuxRemoved whole => Sys2Proof.Machine.execVddAuxRemoved whole s
  | .deviceResetAfterRelease => Sys2Proof.Machine.execDeviceResetAfterRelease s
  | .hourlyCommitRetry => Sys2Proof.Machine.execHourlyCommitRetry s
  | .returnToD0 d3hot linkUp busMaster msixEn mask => Sys2Proof.Machine.execReturnToD0 d3hot linkUp busMaster msixEn mask s

end Sys2Proof.Machine
end

