-- ==== Sys2Proof/Machine/Step.lean ====
section
/-!
DEFINITION. One step of the block: the command at the front of the queue, or, with none waiting, one nanosecond (log entries 1 and 2).
-/
namespace Sys2Proof.Machine

/-- The first command is carried out with the rest of the queue left; with no command waiting a nanosecond passes (R259, R262). -/
def step (s : State) : Host.Outcome State Fault Refusal :=
  match s.pending with
  | [] => .next { s with dev := s.dev.tick }
  | c :: cs => exec c { s with pending := cs }

/-- The state with the command that a table word spells put in front of the queue; no word spells one. -/
def State.withFetchWord (s : State) (nbits w : Nat) : State :=
  match decodeTableWord nbits w with
  | some c => { s with pending := c :: s.pending }
  | none => s

end Sys2Proof.Machine
end

