-- ==== Sys2Proof/Safety.lean ====
section
/-!
DEFINITION. The words in which statements about the block are made: when a command is taken up and passes every common check, what
an answer is, and what a well-formed state of the block is.
-/
namespace Sys2Proof.Machine

/-- The slot holds, at the front of the doorbell order, a command of this opcode, and the command passes the checks of R365 that are
common to all: port, device mode, reserved bits, ranges and firmware state. -/
def ready (df : CmdDef) (slot s0 s1 : Nat) (s : State) : Bool :=
  let c := s.dev.readCmd slot s0 s1
  (s.dev.host.fwq.head? == some slot && slot ≤ SMB_SLOT && c.op == df.op && s.dev.mailServed) &&
  !(c.slot == SMB_SLOT && !smbOpcodes.contains df.op) && !(df.mode == 1 && s.dev.compat) && !(df.mode == 2 && !s.dev.compat) &&
  !(c.rsv != 0 || rsvSet c (df.masks c) || (c.rdest && (c.slot == SMB_SLOT || rdestBad s.dev c.ext)) || df.bad c s) &&
  served s.dev.fwState df.op == some true

/-- The command of a slot answered, the device changed. -/
def answered (c : Cmd) (r : Reply × Dev) (s : State) : State := finish c r.1 { s with dev := r.2 }

/-- The command of a slot answered OK with result words, the device changed to `d`. -/
def completed (c : Cmd) (ws : List Nat) (s : State) (d : Dev) : State := answered c ({ code := .ok, res := ws }, d) s

/-- The command of a slot answered ACCEPTED with a ticket, the device changed to `d`. -/
def accepted (c : Cmd) (ticket : Nat) (s : State) (d : Dev) : State := answered c ({ code := .accepted, ticket := ticket }, d) s

/-- The job that a command would become: its index and the device that holds it, where an index and an area are free (R369). -/
def Cmd.job (c : Cmd) (d : Dev) (unit : Nat) (area : Bool) : Option (Nat × Dev) :=
  d.acceptJob c.op c.ps unit area c.clear c.force

/-- Firmware takes up a slot of a personality that holds this command word (R444). -/
def readyDc (op p k : Nat) (s : State) : Bool :=
  s.dev.compat && p < 4 && k < 8 && s.dev.host.fwq.head? == some (dcSlot p k) && s.dev.dcWord p k 0 % 2 ^ 16 == op &&
    (s.dev.per p).en && s.dev.serving && !s.dev.fwStuck

/-- Core c executes instruction i next, fetched from s without a trap and with no breakpoint before it; it acts on s1 (R308, R513). -/
def nextIs (c : Nat) (i : RIns) (s s1 : State) : Prop :=
  s.dev.coreReady c = true ∧ (fetchR c s).1 = i ∧ (fetchR c s).2.1 = none ∧ s.breakCheck c = none ∧
    s1 = (fetchR c s).2.2.setCore c { (fetchR c s).2.2.core c with acc := [], skipBp := false }

/-- The state after an instruction of n words whose work left t and whose flow is f. -/
def doneR (c n : Nat) (f : Flow) (t : State) : State := ((t.advance c n f).tick c).halts c

/-- The events and accesses that change the device alone: no memory, no flash. -/
def deviceOnly (i : Instr) : Bool :=
  match i with
  | .doorbellWrite .. | .mailboxSlotWrite .. | .msixSpacingEnd .. | .endpointReset .. | .heartbeatTick ..
  | .smbusWrite .. | .smbusDoorbell .. | .smbusTimeout .. | .smbusAlertResponse .. | .spiCsTimeout ..
  | .dc512Doorbell .. | .dc512Flr .. | .dc512FrameReceived .. | .adaptationSettled .. | .frameLock ..
  | .identify .. | .lpExitLate .. | .bulkAuditPoint .. | .laneTuckpoint .. | .txMonitorFail ..
  | .laneFailTimeout .. | .sysrefTimeout .. | .checkerLock .. | .periodicInjection .. | .refresh ..
  | .retrainPause .. | .retrainForced .. | .scrubLate .. | .spared .. | .errorHandling ..
  | .pop .. | .clrFirst .. | .clrLost .. | .cvStart .. | .cvFeedB ..
  | .cvFeedH .. | .cvFeedW .. | .feedAbsorb .. | .cvAliveGo .. | .cvResultRead ..
  | .remap .. | .watchdogExpiry .. | .timerCompare .. | .windowWriteError .. | .level1Interrupt ..
  | .level2Interrupt .. | .pfcPauseEnd .. | .pfcStorm .. | .stormClear .. | .pfcRenew ..
  | .linkDown .. | .linkUp .. | .packetTransmit .. | .resolutionRetry .. | .entryRefresh ..
  | .trigTxDrop .. | .ptpMessageTx .. | .announceTimeout .. | .tsuTodSecRead .. | .stepArm ..
  | .activityFault .. | .periodFault .. | .ppsInEdge .. | .frequencyMeasurement .. | .switchComplete ..
  | .switchTimeout .. | .narrowStep .. | .lossOfLock .. | .xoFail .. | .holdoverUpdate ..
  | .historyRecord .. | .dailyEntry .. | .xoChanged .. | .hoLimit .. | .tempStale ..
  | .timXoTempWrite .. | .phaseStep .. | .sysrefOutPulse .. | .sensorReading .. | .shutdownAssert ..
  | .sensorTuckpoint .. | .analogueTrip .. | .avsAdjust .. | .leaseSync .. | .leaseGrant ..
  | .leaseRevoke .. | .healthReport .. | .trainTimeout .. | .tapReset .. | .halt ..
  | .qdpResume .. | .hourlyCommitRetry .. | .returnToD0 .. => true
  | _ => false

/-- The commands that may change the flash: the commit engine, the boot ROM, RESTORE, the end of a job and the loss of power. -/
def flashWork (i : Instr) : Bool :=
  match i with
  | .commitStart .. | .commitReadback .. | .eraseComplete | .bootRomStart .. | .restore .. | .jobDone .. | .vddAuxRemoved ..
  | .powerOnReset .. => true
  | _ => false

/-- The content of a slot of the flash: slot 1 for true. -/
def Flash.slot (f : Flash) (b : Bool) : RSlot := if b then f.slot1 else f.slot0

/-- The slots of the flash agree with the commits that wrote them: two valid slots have generations that follow each other, the selected
one is valid and the later, and while the engine programs, the slot it writes was blank and the buffer's generation is the next (R465 to
R467). -/
def Flash.genOk (f : Flash) : Bool :=
  (match f.slot0.gen?, f.slot1.gen? with
    | some a, some b => decide (a = (b + 1) % 2 ^ 32 ∨ b = (a + 1) % 2 ^ 32)
    | _, _ => true) &&
  (!f.selValid || (match (f.slot f.sel).gen?, (f.slot (!f.sel)).gen? with
    | some g, some h => g == (h + 1) % 2 ^ 32
    | some _, none => true
    | none, _ => false)) &&
  (!(f.engine == .programming || f.engine == .verifying) ||
    (f.clean && (!f.selValid || (f.slot f.sel).gen?.any fun g => f.bufGen == (g + 1) % 2 ^ 32)))

/-- The opcodes that Table 12.13 lists, by their ranges. -/
def listedOp (op : Nat) : Bool :=
  [(0x0101, 0x010B), (0x0110, 0x0113), (0x0201, 0x020B), (0x0301, 0x0309), (0x0401, 0x040A), (0x0501, 0x0506), (0x0507, 0x050D),
   (0x0601, 0x0605), (0x0701, 0x0709), (0x0801, 0x080B), (0x0901, 0x0905), (0x0A01, 0x0A06), (0x0B01, 0x0B08), (0x0C01, 0x0C06),
   (0x0D01, 0x0D03)].any fun r => decide (r.1 ≤ op ∧ op ≤ r.2)

end Sys2Proof.Machine
end

