-- ==== Sys2Proof/Certificates/Slice0/Obligations.lean ====
section
/-!
DEFINITION. The statements about the block, for the provers.
-/
open Sys2Proof Sys2Proof.Machine

/-- The system commands, taken up and past the common checks, are answered OK with what their rows of the command table give: PING
echoes and adds DEVSTAT; DEV_INFO reads the identity block; JOB_QUERY, JOB_CANCEL and JOB_RELEASE act on the job that the ticket
names (R369 to R372); APER_SET writes the aperture register (R373); ROLE_SET takes the role outside a batch (R2); MODE_SET records
the mode for the next boot with a commit (R1); HOST_CONFIG writes OB_BASE (R375); SYS_RESET changes nothing but its slot, whose
completion notes the reset that follows (R380); COPY becomes a job. Nothing but the device changes, and it as shown. -/
def Obligations.SystemCommandsAnswer : Prop :=
  ∀ (n s0 s1 : Nat) (s : State),
    let c := s.dev.readCmd n 0 0
    let k := s.dev.readCmd n s0 s1
    let d := s.dev
    (ready pingDef n 0 0 s = true → exec (.ping n) s = .next (completed c
      ([c.p 0 % 2 ^ 32, c.p 1 % 2 ^ 32, c.p 2 % 2 ^ 32, c.p 3 % 2 ^ 32] ++ lohi (d.rdN DEVSTAT)) s d)) ∧
    (ready devInfoDef n 0 0 s = true → exec (.devInfo n) s = .next (completed c
      ((List.range 62).map (fun i => d.hostWord (ID_MAGIC + 4 * i)) ++
        [imgVersion s.flash.imgA, imgVersion s.flash.imgB, s.flash.gen % 2 ^ 32]) s d)) ∧
    (ready jobQueryDef n 0 0 s = true → ∀ k, (d.job c.index).area = some k → exec (.jobQuery n) s = .next (completed c
      ((List.range 4).map (fun q => d.rdN (JOB_WORD (4 * c.index + q))) ++ lohi (d.areaAddr k) ++ lohi (d.job c.index).bytes) s d)) ∧
    (ready jobQueryDef n 0 0 s = true → (d.job c.index).area = none → exec (.jobQuery n) s = .next (completed c
      ((List.range 4).map (fun q => d.rdN (JOB_WORD (4 * c.index + q))) ++ [0, 0, 0, 0]) s d)) ∧
    (ready jobCancelDef n 0 0 s = true → d.jobState c.index = 1 →
      exec (.jobCancel n) s = .next (completed c [] s (d.endJob c.index .partialDone 0))) ∧
    (ready jobCancelDef n 0 0 s = true → d.jobState c.index = 2 → d.jobOp c.index ∉ noCancel →
      exec (.jobCancel n) s = .next (completed c [] s
        (d.setJobWord c.index (d.ticket c.index) 4 0x01 (d.jobOp c.index) 0xFFFF (d.jobCount c.index)).syncJobs)) ∧
    (ready jobCancelDef n 0 0 s = true → 3 ≤ d.jobState c.index → exec (.jobCancel n) s = .next (completed c [] s d)) ∧
    (ready jobReleaseDef n 0 0 s = true → d.jobState c.index = 3 →
      let e := d.setJobWord c.index (d.ticket c.index) 0 (bits (d.rdN (JOB_WORD (4 * c.index))) 31 24) (d.jobOp c.index) 1000
        (d.jobCount c.index)
      exec (.jobRelease n) s = .next (completed c [] s (e.setJob c.index { e.job c.index with area := none }))) ∧
    (ready aperSetDef n 0 0 s = true →
      exec (.aperSet n) s = .next (completed c [] s (d.wrN (APER (c.b 0 1 0)) (c.b 0 2 2 + c.b 0 3 3 * 2 + c.q 1 % 2 ^ 48)))) ∧
    (ready copyDef n 0 0 s = true → ∀ i e, c.job d 0x0107 false = some (i, e) →
      exec (.copy n) s = .next (accepted c (e.ticket i) s e)) ∧
    (ready roleSetDef n 0 0 s = true → d.batchOpen = false →
      exec (.roleSet n) s = .next (completed c [] s (d.setF ID_MODE ID_MODE_ROLE (c.b 0 1 0)))) ∧
    (ready modeSetDef n s0 s1 s = true → ((d.putSetting 0xFF00 [k.b 0 0 0]).huCheck s0 s1).1 = true →
      exec (.modeSet n s0 s1) s = .next (completed k [] s
        (((d.putSetting 0xFF00 [k.b 0 0 0]).huCheck s0 s1).2.wantCommit .mode none true))) ∧
    (ready hostConfigDef n 0 0 s = true → exec (.hostConfig n) s = .next (completed c [] s (d.wrN OB_BASE (c.q 0)))) ∧
    (ready sysResetDef n 0 0 s = true → exec (.sysReset n) s = .next (completed c [] s d) ∧
      (completed c [] s d).dev.host.sysReset = true)

/-- The commands of the timing core, taken up and past the common checks, are answered OK with the effect of their rows: references,
priorities and the revert rule (R281, R304), the loop's bandwidth, holdover and lock settings, a forced reference that is
qualified (R283), a phase step outside a run unless forced (R295), outputs and sequence generators not in use (R296 to R300, R305), the
oscillator's identity, which discards a history of another oscillator (R292), the status read, gapped SYSREF starts (R298) and the
clocks (R301). -/
def Obligations.TimingCommandsAnswer : Prop :=
  ∀ (n : Nat) (s : State),
    let c := s.dev.readCmd n 0 0
    let d := s.dev
    (ready timRefSetDef n 0 0 s = true →
      let d1 := (maskBits 8 (c.b 0 7 0)).zipIdx.foldl (fun (e : Dev) (r, j) => e.setRef r (c.q (2 + 4 * j)) (c.q (4 + 4 * j))) d
      let d2 := if bit (c.p 0) 8 then d1.wrN TIM_PRIO (c.p 1) else d1
      let d3 := (d2.setF TIM_CTRL TIM_CTRL_REVERT (c.b 0 9 9)).setF TIM_CTRL TIM_CTRL_PBO (c.b 0 10 10)
      exec (.timRefSet n) s = .next (completed c [] s (d3.reselect (d3.timSel < 8 && !d3.qualified d3.timSel) d3.lastRec))) ∧
    (ready timLoopSetDef n 0 0 s = true → c.p 5 = 0 → exec (.timLoopSet n) s = .next (completed c [] s
      (((d.wrN TIM_BW (c.q 0)).wrN TIM_HO (c.q 2)).setF TIM_CTRL TIM_CTRL_LOCK_DWELL (c.b 4 7 0)))) ∧
    (ready timLoopSetDef n 0 0 s = true → c.p 5 ≠ 0 → exec (.timLoopSet n) s = .next (completed c [] s
      (let e := ((d.wrN TIM_BW (c.q 0)).wrN TIM_HO (c.q 2)).setF TIM_CTRL TIM_CTRL_LOCK_DWELL (c.b 4 7 0)
       { e with tim := { e.tim with ppsMpw := c.p 5 } }))) ∧
    (ready timForceDef n 0 0 s = true → (c.b 0 3 0 = 15 ∨ d.qualified (c.b 0 3 0) = true) → d.timSt ≠ TS_SWITCH →
      let e := d.setF TIM_CTRL TIM_CTRL_FORCE (c.b 0 3 0)
      exec (.timForce n) s = .next (completed c [] s (e.reselect false e.lastRec))) ∧
    (ready timForceDef n 0 0 s = true → (c.b 0 3 0 = 15 ∨ d.qualified (c.b 0 3 0) = true) → d.timSt = TS_SWITCH →
      exec (.timForce n) s = .next (completed c [] s { d with tim := { d.tim with heldForce := some (c.b 0 3 0) } })) ∧
    (ready timPhaseStepDef n 0 0 s = true → (bit (c.p 1) 0 = true ∨ (d.run.active = false ∧ d.front.running = false ∧ d.capBusy = false)) →
      bit (c.p 1) 1 = false → exec (.timPhaseStep n) s = .next (completed c [] s (d.phaseStep (sext 32 (c.p 0), bit (c.p 1) 0)))) ∧
    (ready timPhaseStepDef n 0 0 s = true → (bit (c.p 1) 0 = true ∨ (d.run.active = false ∧ d.front.running = false ∧ d.capBusy = false)) →
      bit (c.p 1) 1 = true → exec (.timPhaseStep n) s = .next (completed c [] s
        ((d.wrN TIM_PHSLEW (c.b 2 19 0)).phaseStep (sext 32 (c.p 0), bit (c.p 1) 0)))) ∧
    (ready timOutputDef n 0 0 s = true →
      let p := outParts (c.p 0)
      (p.out.any fun x => d.outInUse x.1) = false → (p.lref.any fun x => d.lrefUsed x.1) = false →
      let d1 := p.apll.foldl (fun (e : Dev) (a, w) => e.wrN (TIM_APLL a) (c.b w 23 0 + 2 ^ 24)) d
      let d2 := p.out.foldl (fun (e : Dev) (m, w) => e.wrN (TIM_OUT m) (c.q w &&& (2 ^ 64 - 1 - 2 ^ 12))) d1
      let d3 := p.sysref.foldl
        (fun (e : Dev) (m, w) =>
          ({ e with tim := { e.tim with gap := tset (fun _ => none) e.tim.gap m none } } : Dev).wrN (TIM_SYSREF m) (c.q w)) d2
      exec (.timOutput n) s = .next (completed c [] s (p.lref.foldl (fun (e : Dev) (l, w) => e.wrN (TIM_LREF l) (c.q w)) d3))) ∧
    (ready timSngDef n 0 0 s = true → d.sngBusy (c.b 0 2 0) = false →
      let g := c.b 0 2 0
      let r := c.b 4 3 0
      let fault := b2n (decide (r < 8) && (d.qstate r == 4 || d.qstate r == 2))
      let d1 := (((d.wrN (TIM_SNG_NUM g) (c.q 1)).wrN (TIM_SNG_DEN g) (c.p 3 + r * 2 ^ 32 + fault * 2 ^ 36)).wrN (TIM_SNG_EP_SEC g)
        (c.q 5)).wrN (TIM_SNG_EP_NS g) (c.q 7)
      let v := d1.front.clkFault
      exec (.timSng n) s = .next (completed c [] s { d1 with
        front := { d1.front with clkFault := if fault = 1 then v ||| 2 ^ g else if bit v g then v - 2 ^ g else v } })) ∧
    (ready timXoDef n 0 0 s = true →
      let h := d.ret.hist
      let h1 := if h.xoId = c.p 1 then h else { h.discard with xoId := c.p 1 }
      let pts := (List.range 16).map fun k => (sext 32 (c.p (3 + 2 * k)), sext 32 (c.p (4 + 2 * k)) * 1000)
      let zero := (List.range 32).all fun k => c.p (3 + k) == 0
      let h2 := if bit (c.p 2) 1 then { h1 with tempTab := if zero then [] else pts } else h1
      let d1 := { d with ret := { d.ret with hist := h2 }, tim := { d.tim with xoHz := c.p 0, xoExt := bit (c.p 2) 0 } }
      exec (.timXo n) s = .next (completed c [] s (if bit (c.p 2) 0 then d1 else d1.setF TIM_STAT TIM_STAT_TEMP_EXT 0))) ∧
    (ready timHistoryDef n 0 0 s = true → ∀ i e, c.job d 0x0208 false = some (i, e) →
      exec (.timHistory n) s = .next (accepted c (e.ticket i) s e)) ∧
    (ready timStatusDef n 0 0 s = true →
      let ws := (timRegs ++ timCounters).flatMap (fun a => lohi (d.rdN a)) ++
        [d.ret.hist.a, d.ret.hist.b, d.ret.hist.c].flatMap (fun x => lohi (wrapN 64 (x / 2 ^ 32))) ++
        (List.range 8).flatMap (fun r => lohi ((tget (fun _ => none) d.tim.ts r).getD 0))
      exec (.timStatus n) s = .next (completed c ws s (if c.clear then d.clearRegs timCounters else d))) ∧
    (ready timSysrefGoDef n 0 0 s = true →
      let ns := (maskBits 4 (c.b 0 3 0)).filter fun m => d.f (TIM_SYSREF m) TIM_SYSREF_MODE == 2
      (ns.any fun m => earlier (c.q 1) (d.sngCount (d.f (TIM_SYSREF m) TIM_SYSREF_SNG) + 1024) 64) = false →
      exec (.timSysrefGo n) s = .next (completed c [] s (ns.foldl
        (fun (e : Dev) m =>
          { e with tim := { e.tim with gap := tset (fun _ => none) e.tim.gap m (some (c.q 1, e.f (TIM_SYSREF m) TIM_SYSREF_GAP_N)) } }) d))) ∧
    (ready timClocksDef n 0 0 s = true → d.run.active = false →
      exec (.timClocks n) s = .next (completed c [] s (d.setF TIM_CLK TIM_CLK_TCLK_MHZ (c.b 0 10 0))))

/-- The lane commands, taken up and past the common checks, are answered with the effect of their rows: a set of lanes that nothing
uses and that a PLL plan serves is set up (R49, R50, R86), status is read, low power entered at once and left as a job (R80, R81), an eye
scan becomes a job (R84), pattern generators and checkers are set and errors injected (R77 to R79), N+1 groups are defined, removed
or given a tuckpoint (R67, R69), and JESD204C links are defined, removed or armed (R71 to R73). -/
def Obligations.LaneCommandsAnswer : Prop :=
  ∀ (n : Nat) (s : State),
    let c := s.dev.readCmd n 0 0
    let d := s.dev
    (ready laneSetDef n 0 0 s = true →
      let ns := maskLanes (c.laneMask 0)
      let x := laneSetOf c
      ns.any d.laneUsed = false → (ns.any fun m => d.claimed m || (d.compat && m < 68)) = false → ∀ bs, d.pllPlan ns x = some bs →
      let d1 := bs.foldl (fun (e : Dev) b => e.setPll b.1 x.pll b.2) d
      exec (.laneSet n) s = .next (completed c [] s (ns.zipIdx.foldl (fun (e : Dev) q =>
        e.setupLane q.1 x (c.b (7 + q.2 / 4) (8 * (q.2 % 4) + 7) (8 * (q.2 % 4))) (c.b 11 q.2 q.2) (c.b 11 (16 + q.2) (16 + q.2))) d1))) ∧
    (ready laneStatusDef n 0 0 s = true →
      let m := c.p 0
      exec (.laneStatus n) s = .next (completed c
        (([LN_CTRL m, LN_STAT m, LN_ACC m, LN_WIN m] ++ laneCounters m).flatMap (fun a => lohi (d.rdN a)) ++
          [d.linkReport m, b2n ((d.rxGroup m).any fun g => g.skew)]) s d)) ∧
    (ready lanePowerDef n 0 0 s = true → bit (c.p 3) 0 = true →
      exec (.lanePower n) s = .next (completed c [] s
        ((maskLanes (c.laneMask 0)).foldl (fun (e : Dev) m => (e.setF (LN_CTRL m) LN_CTRL_LP 1).enterLow m) d))) ∧
    (ready lanePowerDef n 0 0 s = true → bit (c.p 3) 0 = false → ∀ i e, c.job d (0x0303 + 0x1000000 * d.jobSeq) false = some (i, e) →
      let ns := maskLanes (c.laneMask 0)
      let e1 := ns.foldl (fun (x : Dev) m => (x.setF (LN_CTRL m) LN_CTRL_LP 0).exitLow m (some i)) e
      exec (.lanePower n) s = .next (accepted c (e.ticket i) s
        (if ns.any fun m => (e1.lane m).exitJob == some i then e1 else e1.endJob i .ok 0))) ∧
    (ready eyeScanDef n 0 0 s = true → ∀ i e, c.job d (0x030400 + c.b 0 7 0) true = some (i, e) →
      exec (.eyeScan n) s = .next (accepted c (e.ticket i) s e)) ∧
    (ready prbsDef n 0 0 s = true →
      let m := c.p 0
      (bit (c.p 1) 4 && d.laneUsed m && !c.force) = false →
      let d1 := ((((d.setF (LN_PRBS m) LN_PRBS_GEN_PAT (c.b 1 3 0)).setF (LN_PRBS m) LN_PRBS_GEN_EN (c.b 1 4 4)).setF (LN_PRBS m)
        LN_PRBS_CHK_PAT (c.b 1 11 8)).setF (LN_PRBS m) LN_PRBS_CHK_EN (c.b 1 12 12)).wrN (LN_PRBS_USR m) (c.q 2)
      let d2 := if bit (c.p 1) 12 then d1 else d1.setF (LN_PRBS m) LN_PRBS_CHK_LOCK 0
      exec (.prbs n) s = .next (completed c (lohi (d.rdN (LN_PRBS_ERR m)) ++ lohi (d.rdN (LN_PRBS_BITS m))) s
        (if c.clear then (d2.wrN (LN_PRBS_ERR m) 0).wrN (LN_PRBS_BITS m) 0 else d2))) ∧
    (ready errInjectDef n 0 0 s = true → (d.laneUsed (c.b 0 6 0) && !c.force) = false → c.b 0 10 8 = 1 →
      exec (.errInject n) s = .next (completed c [] s
        (((d.setF (LN_PRBS (c.b 0 6 0)) LN_PRBS_INJ_MODE (c.b 0 12 11)).setF (LN_PRBS (c.b 0 6 0)) LN_PRBS_INJ_LOG2 (c.b 0 17 13)).injGo
          (c.b 0 6 0)))) ∧
    (ready errInjectDef n 0 0 s = true → (d.laneUsed (c.b 0 6 0) && !c.force) = false → c.b 0 10 8 ≠ 1 →
      exec (.errInject n) s = .next (completed c [] s
        (d.setLane (c.b 0 6 0) { d.lane (c.b 0 6 0) with inj := c.b 0 10 8, injSyms := c.p 1 }))) ∧
    (ready laneGroupDef n 0 0 s = true →
      let id := c.b 0 5 0
      let tx := bit (c.p 0) 8
      let ns := maskLanes (c.laneMask 1)
      let rest := d.lgroups.filter fun g => !(g.id == id && g.tx == tx)
      let mark := fun (e : Dev) (xs : List Nat) (v : Nat) => xs.foldl (fun (e : Dev) m => e.setF (LN_CTRL m) LN_CTRL_GROUP v) e
      let old := ((d.lgroups.find? fun g => g.id == id && g.tx == tx).map LGroup.lanes).getD []
      let d1 := mark d old 0xFF
      (c.b 0 7 6 = 0 → exec (.laneGroup n) s = .next (completed c [] s
        (mark { d1 with lgroups := rest ++ [{ id := id, tx := tx, data := ns, parity := c.b 0 15 9 }] } (c.b 0 15 9 :: ns) id))) ∧
      (c.b 0 7 6 = 1 → exec (.laneGroup n) s = .next (completed c [] s { d1 with lgroups := rest }))) ∧
    (ready laneGroupDef n 0 0 s = true → c.b 0 7 6 = 2 →
      let gs := d.lgroups.map fun g => if g.id == c.b 0 5 0 && g.tx == bit (c.p 0) 8 then { g with tuck := some (c.b 0 18 16, c.q 4) } else g
      exec (.laneGroup n) s = .next (completed c [] s { d with lgroups := gs })) ∧
    (ready jesdLinkDef n 0 0 s = true → bit (c.p 0) 8 = true →
      exec (.jesdLink n) s = .next (completed c [] s (d.setJlink (c.b 0 7 0) none))) ∧
    (ready jesdLinkDef n 0 0 s = true → bit (c.p 0) 8 = false →
      exec (.jesdLink n) s = .next (completed c [] s (d.setJlink (c.b 0 7 0) (some {
        lanes := maskLanes (c.laneMask 1), subclass := c.b 0 10 9,
        m := c.b 4 7 0, n := c.b 4 15 8, np := c.b 4 23 16, s := c.b 4 31 24, cs := c.b 5 7 0, e := c.b 5 15 8, rbd := c.b 5 31 16,
        internal := bit (c.p 0) 11 })))) ∧
    (ready jesdAlignDef n 0 0 s = true → ∀ j i e, d.jlink (c.b 0 7 0) = some j → c.job d (0x030900 + c.b 0 7 0) false = some (i, e) →
      exec (.jesdAlign n) s = .next (accepted c (e.ticket i) s (e.setJlink (c.b 0 7 0) (some { j with
        cont := bit (c.p 0) 8, armed := some e.now, armJob := some i, aligned := false, misalign := false, fault := false }))))

/-- The commands of the front, taken up and past the common checks and their own, are answered with the effect of their rows:
a shape that fits is configured, with its output rate, memory and demand reported (R88, R122), delay segments are loaded
(R95, R121), tables of models, coefficients and gains and the reading of detector results become jobs, the detectors and routes are
set, a start or stop at an SN that is not past is noted (R120), and the status is read. -/
def Obligations.FrontCommandsAnswer : Prop :=
  ∀ (n : Nat) (s : State),
    let c := s.dev.readCmd n 0 0
    let d := s.dev
    (ready frontConfigDef n 0 0 s = true →
      let k := c.b 1 11 0 + 1
      (d.role = 1 ∧ 256 ≤ k ∧ k ≤ 2048 ∨ d.role = 3 ∧ 2 ≤ k ∧ k ≤ 256) → d.front.running = false →
      ∀ bs, readTable d s.mem (c.q 6) (16 * k) = .ok bs →
      let es := (List.range k).map (frEntry bs)
      let xs := es.map fun x => x.1
      let mode := c.b 0 1 0
      let cplx := bit (c.p 0) 11
      let sk := bit (c.p 0) 16
      let width := c.b 0 13 12
      let p := 2 ^ c.b 0 5 2
      let hop := hopOf mode p
      let w := fmtW (bit (c.p 0) 14)
      let chans := c.b 2 31 16 + 1 - c.b 2 15 0
      let regs := frRegions cplx sk width (lineDepth (c.p 3) (c.p 4) (c.p 5)) k chans w d.front.mK
      let traffic := d.frTraffic cplx sk width hop chans w xs
      (es.any (fun x => !x.2) || sameSource xs) = false → ∀ g, log2G k chans = some g →
      (!d.frRatesOk cplx mode p xs || decide (regionMib regs > d.hbmMib) || !d.demandOk traffic) = false →
      let d1 := d.wrN FR_CTRL (2 * mode + 8 * c.b 0 5 2 + 128 * c.b 0 10 6 + 4096 * b2n cplx + 8192 * width + 32768 * c.b 0 14 14 +
        65536 * c.b 0 15 15 + 131072 * b2n sk + (d.rdN FR_CTRL / 2 ^ 18 % 2) * 2 ^ 18)
      let d2 := ((d1.wrN FR_SHAPE (c.b 1 11 0 + c.b 2 15 0 * 2 ^ 16 + c.b 2 31 16 * 2 ^ 32 + g * 2 ^ 48)).setF FR_TIME FR_TIME_MARGIN
        (c.p 4)).setF FR_TIME FR_TIME_PRE (c.p 5)
      let f := { d2.front with
        conf := true, inputs := xs, tauMax := c.p 3, startAt := none, stopAt := none, act := [], pend := [], past := [], samples := [],
        groups := [], tau := [], y := [], gainSwap := none, env := [], evt := [], detAt := [], stat := [], power := [], sk := [],
        held := [], demand := traffic, hbm := regionMib regs * 2 ^ 20 }
      exec (.frontConfig n) s = .next (completed c [g, regionMib regs, traffic / 10 ^ 9] s
        (({ d2 with front := f } : Dev).setF FR_CTRL FR_CTRL_GAIN_PEND 0))) ∧
    (ready delayModelDef n 0 0 s = true → d.front.conf = true →
      let gs := (List.range (c.b 0 1 0)).map fun e => (segEntry (fun k => c.p (1 + 22 * e + k)) d.front.inputs.length).1
      (∀ g ∈ gs, (d.loadSeg g).2 ≠ 2) →
      let r := gs.foldl (fun (acc : Dev × List Nat) g => let x := acc.1.loadSeg g; (x.1, acc.2 ++ [x.2])) (d, [])
      exec (.delayModel n) s = .next (completed c r.2 s r.1)) ∧
    (ready modelTableDef n 0 0 s = true → d.front.conf = true → ∀ i e, c.job d 0x0403 true = some (i, e) →
      exec (.modelTable n) s = .next (accepted c (e.ticket i) s e)) ∧
    (ready coefLoadDef n 0 0 s = true → d.front.running = false → ∀ i e, c.job d 0x0404 false = some (i, e) →
      exec (.coefLoad n) s = .next (accepted c (e.ticket i) s e)) ∧
    (ready gainLoadDef n 0 0 s = true → d.front.conf = true → ∀ i e, c.job d 0x0405 false = some (i, e) →
      exec (.gainLoad n) s = .next (accepted c (e.ticket i) s e)) ∧
    (ready detectSetDef n 0 0 s = true →
      let d1 := (((((d.setF FR_DET FR_DET_K (c.b 0 4 0)).setF FR_DET FR_DET_A (c.b 0 8 5)).setF FR_DET FR_DET_BLANK_EN (c.b 0 9 9)).setF
        FR_DET FR_DET_OVR_BLANK (c.b 0 10 10)).setF FR_DET FR_DET_EVT_TRIG (c.b 0 11 11)).setF FR_DET FR_DET_POST (c.p 1)
      exec (.detectSet n) s = .next (completed c [] s { d1 with front := { d1.front with
        eTh := c.p 2, evtHold := c.p 3, mP := c.p 4, mK := c.p 5, skLo := c.p 6, skHi := c.p 7, power := [], sk := [], stat := [] } })) ∧
    (ready detectReadDef n 0 0 s = true → d.front.conf = true → ∀ i e, c.job d 0x0407 false = some (i, e) →
      exec (.detectRead n) s = .next (accepted c (e.ticket i) s e)) ∧
    (ready routeSetDef n 0 0 s = true → (d.role = 1 ∨ d.role = 3) → d.front.running = false → d.front.conf = true →
      ∀ bs, readTable d s.mem (c.q 1) (32 * c.p 0) = .ok bs →
      let w := fmtW (d.on FR_CTRL FR_CTRL_FMT)
      let es := (List.range (c.p 0)).map fun k => frRoute bs k d.front.inputs.length d.chLo d.chHi w
      let rs := es.map fun x => x.1
      let near := (rs.drop 1).any (fun r => r.kind == 2) || ((rs.head?.any fun r => r.kind == 2) && d.role != 3)
      (es.any (fun x => !x.2) || !rs.all (d.routeFits w) || near) = false → d.routesFit rs = true →
      exec (.routeSet n) s = .next (completed c [] s { d with front := { d.front with route := rs } })) ∧
    (ready frontStartDef n 0 0 s = true → d.front.conf = true → d.front.running = false → earlier (c.q 1) d.outNow 64 = false →
      bit (c.p 0) 0 = false →
      exec (.frontStart n) s = .next (completed c [] s { d with front := { d.front with startAt := some (c.q 1) } })) ∧
    (ready frontStartDef n 0 0 s = true → d.front.conf = true → d.front.running = false → earlier (c.q 1) d.outNow 64 = false →
      bit (c.p 0) 0 = true →
      exec (.frontStart n) s = .next (completed c [] s { d with front := { d.front with stopAt := some (c.q 1) } })) ∧
    (ready frontStatusDef n 0 0 s = true →
      let f := d.front
      let d1 := if c.clear then d.clearRegs ((List.range 2048).flatMap frCounters) else d
      exec (.frontStatus n) s = .next (completed c
        ([d.rdN FR_CTRL] ++ lohi f.knotAt ++ lohi f.spn ++ lohi (f.gainSwap.getD 0) ++
          [b2n (tget (fun _ => none) f.pend (c.p 0)).isSome, b2n f.startAt.isSome + 2 * b2n f.stopAt.isSome] ++
          (frCounters (c.p 0)).flatMap (fun a => lohi (d.rdN a)) ++ f.route.flatMap fun r => lohi r.drops) s
        (if c.clear then { d1 with front := { d1.front with route := d1.front.route.map fun r => { r with drops := 0 } } } else d1)))

/-- The commands of the correlator and its integration, taken up and past the common checks and their own, are answered with the
effect of their rows: a plan is computed (R141 to R145, R153), the bonding table is read or replaced as a job (R154), a tile is
tuckpointed (R150), the audit set, tile status read, a run begun where every condition of RUN_START holds (R48, R145), the integration
length set at the next boundary (R158), the dump route replaced (R181), a peek accepted as a job (R171 to R173), and the status read. -/
def Obligations.RunCommandsAnswer : Prop :=
  ∀ (n : Nat) (s : State),
    let c := s.dev.readCmd n 0 0
    let d := s.dev
    let mhz := d.f TIM_CLK TIM_CLK_TCLK_MHZ
    (ready xcorPlanDef n 0 0 s = true →
      let f := if c.b 3 10 0 = 0 then mhz else c.b 3 10 0
      let lanes := if c.b 3 17 11 = 0 then 80 else c.b 3 17 11
      let avail := if c.p 2 = 0 then 0xFFFFFFFF else f * c.p 2 / 10 ^ 6
      let pl := planOf (c.b 0 12 0) (bit (c.p 0) 13) (c.b 1 16 0) (c.b 0 24 16) avail f (lanes * 10307)
      pl.k ≠ 0 → exec (.xcorPlan n) s = .next (completed c pl.words s d)) ∧
    (ready bondReadDef n 0 0 s = true → ∀ i e, c.job d 0x0502 false = some (i, e) →
      exec (.bondRead n) s = .next (accepted c (e.ticket i) s e)) ∧
    (ready bondSetDef n 0 0 s = true → d.run.par.n ≠ 0 → ∀ i e, c.job d 0x0503 true = some (i, e) →
      exec (.bondSet n) s = .next (accepted c (e.ticket i) s e)) ∧
    (ready tuckpointDef n 0 0 s = true → ∀ e, d.tuckTile (c.b 0 6 0) = some e →
      exec (.tuckpoint n) s = .next (completed c [] s e)) ∧
    (ready auditCtrlDef n 0 0 s = true →
      let d1 := if bit (c.p 0) 0 then d.setF XC_CTRL XC_CTRL_AUDIT_EN (c.b 0 1 1) else d
      exec (.auditCtrl n) s = .next (completed c [] s
        (if bit (c.p 0) 2 then (d1.setF XC_AUDIT XC_AUDIT_FORCE_POS (c.b 0 8 3)).setF XC_AUDIT XC_AUDIT_FORCE 1 else d1))) ∧
    (ready tileStatusDef n 0 0 s = true →
      exec (.tileStatus n) s = .next (completed c
        ((List.range 68).map (fun t => d.rdN (XC_TSTAT t)) ++ [d.rdN XC_AUDIT] ++ xcorCounters.flatMap (fun a => lohi (d.rdN a))) s
        (if c.clear then d.clearRegs xcorCounters else d))) ∧
    (ready runStartDef n 0 0 s = true →
      let p0 := runPar c
      let avail := mhz * p0.period / (2 ^ 16 * 10 ^ 6)
      let pl := planOf p0.n p0.c8 p0.nch (c.b 0 24 16) avail mhz d.lanePayload
      let p := { p0 with k := max pl.k 1, c := pl.c, cLast := pl.cLast }
      let beams := d.on BM_CTRL BM_CTRL_EN
      let bc := d.beamCheck p avail
      let mib := regionMib (runRegions p (c.p 11))
      let dem := d.demand p 1
      let w06 := if d.role = 3 then pl.words.set 5 0xFFFFFFFF else pl.words
      let res := w06 ++ [mib, dem / 10 ^ 9] ++ (if beams then [min bc.1 0xFFFFFFFF, min bc.2 0xFFFFFFFF] else [])
      (d.role = 2 ∨ d.role = 3) → d.run.active = false → d.on TSU_CTRL TSU_CTRL_VALID = true →
      d.f TIM_STAT TIM_STAT_STATE ≠ 0x0F → d.dumpCover p = true →
      (beams && (d.beam.n != p.n || d.beam.t != p.t || d.beam.nch != p.nch || !d.beamCover d.beam.route)) = false →
      pl.k ≠ 0 → pl.need ≤ avail → (beams = true → bc.1 ≤ bc.2) → mib + regionMib (d.heldRegions.map (·.2)) ≤ d.hbmMib →
      d.demandOk dem = true →
      let s1 := drainRun (d.run.mortar.length + d.run.promq.length) s
      let s2 := s1.dev.run.dumps.foldl (fun x _ => dumpComplete x) { s1 with dev := s1.dev.abandonDumps }
      exec (.runStart n) s = .next (completed c res s2 (s2.dev.runBegin c p pl.depth))) ∧
    (ready runStopDef n 0 0 s = true → d.run.active = true →
      let p := d.run.par
      let spn := barrierSpn d c
      let b := (spn - p.s0) / p.t
      (bit (c.p 0) 0 = true ∨ (p.s0 ≤ spn ∧ (spn - p.s0) % p.t = 0)) → d.run.firstBarrier ≤ b →
      (d.run.stopAt.any fun x => decide (b > x)) = false → d.run.barriers.any (·.stop) = false → 
      ∀ i e, c.job d (0x0508 + 0x10000 * c.seq + 0x1000000 * d.jobSeq) true = some (i, e) →
      let r := e.run.cutInteg b
      let e1 : Dev := { e with run := { r with
        barriers := r.barriers ++ [{ stop := true, batch := b, job := i }], stopAt := some b } }
      exec (.runStop n) s = .next (answered c ({ code := .accepted, ticket := e.ticket i, res := lohi spn },
        (e1.missBeyond b).syncPend) s)) ∧
    (ready dumpNowDef n 0 0 s = true → d.run.active = true →
      let p := d.run.par
      let spn := barrierSpn d c
      let b := (spn - p.s0) / p.t
      (bit (c.p 0) 0 = true ∨ (p.s0 ≤ spn ∧ (spn - p.s0) % p.t = 0)) → d.run.firstBarrier ≤ b →
      (d.run.stopAt.any fun x => decide (b > x)) = false → 
      ∀ i e, c.job d (0x0508 + 0x10000 * c.seq + 0x1000000 * d.jobSeq) true = some (i, e) →
      let r := e.run.cutInteg b
      let e1 : Dev := { e with run := { r with
        barriers := r.barriers ++ [{ stop := false, batch := b, job := i }], stopAt := r.stopAt } }
      exec (.dumpNow n) s = .next (answered c ({ code := .accepted, ticket := e.ticket i, res := lohi spn },
        e1.syncPend) s)) ∧
    (ready integSetDef n 0 0 s = true → d.run.active = true →
      (ndb (c.p 0) = ndb d.run.nint ∨ regionMib (runRegions d.run.par (c.p 0)) + d.front.hbm / 2 ^ 20 ≤ d.hbmMib) →
      let x := ({ d.run with pendNint := none } : Run).nextBoundary
      exec (.integSet n) s = .next (completed c (lohi (d.run.par.s0 + x * d.run.par.t)) s
        { d with run := { d.run with pendNint := some (c.p 0, x) } })) ∧
    (ready dumpRouteDef n 0 0 s = true → ∀ bs, readTable d s.mem (c.q 1) (16 * c.b 0 4 0) = .ok bs →
      let es := (List.range (c.b 0 4 0)).map (routeEntry bs)
      let dfmt := if d.run.active then d.run.par.dfmt else d.f AC_CTRL AC_CTRL_DFMT
      let log := if d.run.active then d.run.par.pktLog2 else d.f AC_CTRL AC_CTRL_PKT_LOG2
      es.all (d.dumpEntryOk (avpLargest dfmt log)) = true → (d.run.active && !coverOnce (es.map (·.1)) d.run.par.nch) = false →
      exec (.dumpRoute n) s = .next (completed c [] s { d with run := { d.run with route := es.map (·.1) } })) ∧
    (ready peekDef n 0 0 s = true → d.run.active = true →
      let r := d.run
      let p := r.par
      let spn := barrierSpn d c
      let chF := c.b 3 15 0
      let k := c.b 3 31 16 + 1
      let b := (spn - p.s0) / p.t
      let j := (spn - p.s0) % p.t / 256
      p.s0 ≤ spn → (spn - p.s0) % 256 = 0 → chF + k ≤ p.nch → ¬ (j = 0 ∧ r.isBoundary b = true) →
      r.bs + (if j = 0 then 2 else 4) ≤ b → (r.stopAt.any fun x => decide (spn > p.s0 + x * p.t)) = false →
      r.peeks.length < 4 → (j = 0 ∨ tget (fun _ => 0) r.inner b = 0 ∨ tget (fun _ => 0) r.inner b = j + 1) →
      peekBytes p (c.b 0 2 1) k ≤ c.q 6 → d.demandOk (d.demand p 2) = true →
      ∀ i e, c.job d (0x050C + 0x1000000 * d.jobSeq) true = some (i, e) →
      exec (.peek n) s = .next (accepted c (e.ticket i) s
        ({ e with run := { e.run with
            inner := if j = 0 then e.run.inner else tset (fun _ => 0) e.run.inner b (j + 1),
            peeks := e.run.peeks ++ [{ spn := spn, chFirst := chF, chCount := k, dest := c.q 4, dfmt := c.b 0 2 1, job := i }] } } : Dev).syncPend)) ∧
    (ready accStatusDef n 0 0 s = true →
      let p := d.run.par
      exec (.accStatus n) s = .next (completed c
        (([AC_CTRL, AC_INTEG, AC_BARRIER, AC_DIGEST] ++ accCounters).flatMap (fun a => lohi (d.rdN a)) ++
          [d.run.barriers.length + d.run.peeks.length] ++ d.run.barriers.flatMap (fun k => lohi (p.s0 + k.batch * p.t)) ++
          d.run.peeks.flatMap (fun k => lohi k.spn) ++ d.run.digests.flatMap (fun x => x.1 :: lohi x.2)) s
        (if c.clear then d.clearRegs accCounters else d)))

/-- The commands of the beam engine, the memories and the capture ring, taken up and past the common checks and their own, are
answered with the effect of their rows: BEAM_CONFIG lays out two weight buffers, zeroes them and reports their places (R187, R205),
or switches beams off; routes (R206), weight loads, swaps (R190) and status follow; MEM_STATUS reads, MEM_QOS sets latency targets
(R213) and MEM_RETRAIN asks for a pause (R219); CAP_CONFIG lays the ring out (R225 to R229, R240), CAP_ARM, CAP_TRIGGER, CAP_READ,
CAP_RELEASE and CAP_STATUS follow R230 to R237. -/
def Obligations.StoreCommandsAnswer : Prop :=
  ∀ (n : Nat) (s : State),
    let c := s.dev.readCmd n 0 0
    let d := s.dev
    (ready beamConfigDef n 0 0 s = true → d.run.active = false → (d.role = 2 ∨ d.role = 3) → bit (c.p 0) 0 = false →
      let d1 := d.setF BM_CTRL BM_CTRL_EN 0
      exec (.beamConfig n) s = .next (completed c [] s
        { d1 with beam := { d1.beam with configured := false, queue := [], det := [], volt := [], swapAt := none } })) ∧
    (ready beamConfigDef n 0 0 s = true → d.run.active = false → (d.role = 2 ∨ d.role = 3) → bit (c.p 0) 0 = true →
      let k := c.b 3 12 0
      let t := (c.b 3 20 13 + 1) * 256
      let nch := c.b 4 16 0
      let beams := 32 * (c.b 0 5 1 + 1)
      let bytes := wbufBytes k nch beams
      let mib := ceilDiv bytes (2 ^ 20)
      let vs := (List.range (c.b 0 5 1 + 1)).countP fun j => bit (c.p 1) j
      let ring := ringBytes nch t beams vs (2 ^ c.b 0 12 10) (bit (c.p 0) 6) (detValues (c.b 0 8 7) beams) (c.b 0 9 9) (c.b 2 11 0 + 1)
      2 * mib + ceilDiv ring (2 ^ 20) + d.front.hbm / 2 ^ 20 ≤ d.hbmMib →
      let b := HBM_BASE + mib * 2 ^ 20
      let d1 := (((((d.wrN BM_CTRL (c.p 0 % 2 ^ 13)).wrN BM_VMASK (c.p 1)).wrN BM_DET (c.b 2 11 0)).wrN BM_WBASE_A HBM_BASE).wrN
        BM_WBASE_B b).wrN BM_WCTRL (c.b 0 14 13 * 2 ^ 8)
      let d2 := d1.wrN BM_DONE_SPN 0
      let w := { d2.beam with configured := true, n := k, t := t, nch := nch, swapAt := none, oldUntil := none,
                              staleFrom := none, queue := [], det := [], volt := [] }
      exec (.beamConfig n) s = .next (completed c
        (lohi HBM_BASE ++ lohi b ++ lohi bytes ++ [beams * 128 * groups k * 4 * 10 ^ 6 / 256 / 1000] ++ lohi ring)
        { s with mem := (s.mem.zero HBM_BASE bytes).zero b bytes } { d2 with beam := w })) ∧
    (ready beamRouteDef n 0 0 s = true → d.run.active = false → d.beam.configured = true →
      ∀ bs, readTable d s.mem (c.q 1) (16 * c.b 0 5 0) = .ok bs →
      let xs := (List.range (c.b 0 5 0)).map (beamEntry bs)
      let es := xs.map (·.1)
      (xs.any fun x => !x.2) = false → es.all d.beamEntryOk = true → d.beamCover es = true →
      exec (.beamRoute n) s = .next (completed c [] s { d with beam := { d.beam with route := es } })) ∧
    (ready beamWloadDef n 0 0 s = true → d.beam.configured = true → d.beam.load = none →
      ∀ i e, c.job d 0x0603 false = some (i, e) →
      exec (.beamWload n) s = .next (accepted c (e.ticket i) s { e with beam := { e.beam with load := some (i, !e.bufAct, 0) } })) ∧
    (ready beamWswapDef n 0 0 s = true → d.beam.configured = true →
      let e := (d.wrN BM_WSPN (c.q 0)).swapRequest
      let r := e.f BM_WCTRL BM_WCTRL_RESULT
      r ≠ 3 → r ≠ 6 → exec (.beamWswap n) s = .next (completed c [r] s e)) ∧
    (ready beamStatusDef n 0 0 s = true →
      exec (.beamStatus n) s = .next (completed c
        (([BM_CTRL, BM_VMASK, BM_DET, BM_WBASE_A, BM_WBASE_B, BM_WCTRL, BM_WSPN, BM_DONE_SPN] ++ beamCounters).flatMap
          fun a => lohi (d.rdN a)) s (if c.clear then d.clearRegs beamCounters else d))) ∧
    (ready memStatusDef n 0 0 s = true →
      let qos := (List.range 9).map MC_QOS
      let d1 := if c.clear then (List.range 9).foldl (fun (e : Dev) p => e.setF (MC_QOS p) MC_QOS_LAT_MISS 0) (d.clearRegs memCounters) else d
      exec (.memStatus n) s = .next (completed c
        ([d.rdN MC_CTRL, d.rdN MC_MAP] ++ (qos ++ memCounters).flatMap (fun a => lohi (d.rdN a)) ++
          (List.range 72).map (fun k => d.rdN (MC_CHSTAT k)) ++ d.run.regions.flatMap fun r => [r.1] ++ lohi r.2.1 ++ lohi r.2.2) s d1)) ∧
    (ready memQosDef n 0 0 s = true →
      exec (.memQos n) s = .next (completed c [] s ((List.range 6).foldl
        (fun (e : Dev) k => if bit (c.p 0) k then e.setF (MC_QOS (3 + k)) MC_QOS_TARGET_NS (c.p (1 + k)) else e) d))) ∧
    (ready memRetrainDef n 0 0 s = true →
      exec (.memRetrain n) s = .next (completed c [] s (d.setMchan (c.b 0 6 0) { d.mchan (c.b 0 6 0) with forceNext := true }))) ∧
    (ready capConfigDef n 0 0 s = true → d.capState = 0 → ∀ bs, readTable d s.mem (c.q 1) (8 * c.b 0 6 0) = .ok bs →
      let sel := (List.range (c.b 0 6 0)).map (selEntry bs)
      (sel.any fun x => decide (x.1 > x.2.1 ∨ x.2.2.1 > x.2.2.2 ∨ x.2.1 > 4095)) = false →
      let w := d.capW
      let k := (capPairs sel).length
      let crs := segCourses k w
      let g := segGrains (d.grain false) k w crs
      let bytes := g * d.grain false
      let live := maskCount d.liveDdr
      let r := d.capRows * live / max g 1
      let per := d.capPeriod * 256 * crs
      let rate := if per = 0 then 0 else bytes * 10 ^ 12 * 2 ^ 16 / per
      let mts := 4800 + 400 * min (d.f MC_MAP MC_MAP_DDR_RATE) 4
      rate ≤ min (300 * 10 ^ 9) (37500000000 * live * mts / 6400) →
      let cap := { d.cap with sel := sel, selGen := (d.cap.selGen + 1) % 2 ^ 32, fwdKind := c.b 3 1 0, fwdStream := c.b 3 11 2,
                              fwdLink := c.b 3 19 12, segs := [], epochs := [], next := 0, live := 0,
                              fwdLanes := (List.range 80).filter fun m => bit (c.q 4 + c.b 6 15 0 * 2 ^ 64) m }
      exec (.capConfig n) s = .next (completed c [crs, r, r * per / (10 ^ 9 * 2 ^ 16), rate / 10 ^ 6] s
        (((((({ d with cap := cap } : Dev).wrN CAP_CTRL (c.b 7 9 0)).wrN CAP_TRIG (c.q 8 % 2 ^ 60)).wrN CAP_POST
          (c.b 10 23 0)).setF CAP_STAT CAP_STAT_SEG_CRS (crs % 256)).setF CAP_STAT CAP_STAT_SEGS r |>.setF CAP_STAT CAP_STAT_EPOCHS 0))) ∧
    (ready capArmDef n 0 0 s = true → d.capState = 0 → d.streaming = true → d.cap.sel ≠ [] →
      exec (.capArm n) s = .next (completed c [] s d.capArm)) ∧
    (ready capTriggerDef n 0 0 s = true →
      let st := if bit (c.p 0) 0 then d.cap.newest - 1 else c.q 1
      ∀ e, d.trigger 2 (c.b 0 15 8) st 0xFFFFFFFF 0xFFFFFFFF (c.p 3) [] = (e, some .accepted) →
      exec (.capTrigger n) s = .next (completed c (lohi st) s e)) ∧
    (ready capReadDef n 0 0 s = true → d.capState = 4 → ∀ i e, c.job d 0x0707 false = some (i, e) →
      exec (.capRead n) s = .next (accepted c (e.ticket i) s e)) ∧
    (ready capReleaseDef n 0 0 s = true → (bit (c.p 0) 0 = false ∨ d.streaming = true) →
      let d1 := (({ d with cap := { d.cap with log := [], freeze := none, firstSeg := none, segs := [] } } : Dev).setCap 0).setF
        CAP_STAT CAP_STAT_STOPPED 0
      exec (.capRelease n) s = .next (completed c [] s (if bit (c.p 0) 0 then d1.capArm else d1))) ∧
    (ready capStatusDef n 0 0 s = true →
      exec (.capStatus n) s = .next (completed c
        (([CAP_CTRL, CAP_STAT, CAP_TRIG, CAP_POST, FREEZE_SPN] ++ capCounters).flatMap (fun a => lohi (d.rdN a)) ++
          d.cap.epochs.flatMap (fun x => [x.1] ++ lohi x.2.1 ++ [x.2.2]) ++
          d.cap.log.flatMap (fun e => [e.kind] ++ lohi e.st ++ [e.timeS, e.timeNs, e.input, e.channel])) s
        (if c.clear then d.clearRegs capCounters else d)))

/-- The commands of the network, the cores and time, taken up and past the common checks and their own, are answered with the effect of
their rows: a port is configured (R253, R273), streams are defined where every MAC's rate holds (R250, R272), receive bindings and
resolution entries replaced (R254, R274), status read, PTP, time and pulses set (R261 to R269, R275), a port's latencies noted (R266); core memories are
loaded and tuckpointed as jobs, a core started with its windows, watchdog and lines (R309, R327, R333, R337), stopped, or its status read. -/
def Obligations.NetworkCommandsAnswer : Prop :=
  ∀ (n : Nat) (s : State),
    let c := s.dev.readCmd n 0 0
    let d := s.dev
    (ready ethPortDef n 0 0 s = true →
      let m := c.b 0 4 0
      let mode := c.b 0 7 5
      ∀ pll base, d.macPll m mode = some (pll, base) → d.portUsed m = false →
      ((macLanes m mode).any fun k => (d.compat && k < 68) || (!(macLanes m (d.macMode m)).contains k && d.laneFunc k != 0)) = false →
      (mode = 0 ∨ rateFits (modeMbps mode) (d.portStreams m) = true) →
      let d1 := d.portMode m mode (c.b 0 8 8) pll base
      let ctrl := mode + c.b 0 8 8 * 8 + c.b 0 9 9 * 16 + c.b 0 10 10 * 32 + c.b 0 11 11 * 64 + c.b 0 19 12 * 256 + c.b 1 13 0 * 65536
      let p := { d1.port m with mac := c.q 2 % 2 ^ 48, v4 := c.p 4, gw4 := c.p 5, pfx4 := c.b 6 5 0, pfx6 := c.b 6 15 8,
                                v6a := c.ip6 7, v6b := c.ip6 11, gw6 := c.ip6 15, vids := c.vids }
      exec (.ethPort n) s = .next (completed c [] s
        ((((d1.wrN (EM_CTRL m) ctrl).wrN (EM_PFC m) (c.b 1 25 16 + c.b 0 22 20 * 1024)).setPort m p).wantHops m))) ∧
    (ready streamSetDef n 0 0 s = true →
      let es := (List.range (c.b 0 2 0)).map c.entry
      let d1 := es.foldl (fun (e : Dev) w => e.applyStream w) d
      (d.run.active && es.any fun w => (d.stream (w.getD 0 0 % 1024)).isSome && d.routeNames (w.getD 0 0 % 1024)) = false →
      ((List.range 20).any fun m => d1.macMode m != 0 && es.any (fun w => ({ words := w } : Stream).mac == m) &&
        !rateFits (modeMbps (d1.macMode m)) (d1.portStreams m)) = false →
      exec (.streamSet n) s = .next (completed c [] s ((List.range 20).foldl (fun (e : Dev) m => e.wantHops m) d1))) ∧
    (ready acpRxDef n 0 0 s = true → ∀ bs, readTable d s.mem (c.q 1) (32 * c.b 0 6 0) = .ok bs →
      let es := (List.range (c.b 0 6 0)).map fun i => (bs.drop (32 * i)).take 32
      es.all bindOk = true → anyOverlap es = false →
      let d1 := { d with net := { d.net with bind := es.map fun b => { bytes := b } } }
      exec (.acpRx n) s = .next (completed c [] s
        ((List.range 20).foldl (fun (e : Dev) m => (e.reportGroups m false).reportGroups m true) d1))) ∧
    (ready netStatusDef n 0 0 s = true →
      let ports := (List.range 20).flatMap fun m =>
        [d.rdN (EM_CTRL m), d.rdN (EM_STAT m)] ++ (portCounters m).flatMap fun a => lohi (d.rdN a)
      let sts := d.streamList.flatMap fun x => [x.1 + x.2.mac * 2 ^ 16 + x.2.cls * 2 ^ 24, x.2.seq, d.queued x.1, x.2.discard]
      let bs := d.net.bind.flatMap fun b => (List.range 20).flatMap fun k => lohi (tget (fun _ => 0) b.cnt k)
      exec (.netStatus n) s = .next (completed c
        (ports ++ [d.net.streamReset, d.net.trigTxDrop, d.streamList.length] ++ sts ++ [d.net.bind.length] ++ bs) s
        (if c.clear then d.clearRegs ((List.range 20).flatMap portCounters) else d))) ∧
    (ready addrTableDef n 0 0 s = true →
      let m := c.b 0 4 0
      let v6 := bit (c.p 0) 5
      let ip := if v6 then c.ip6 1 else c.p 1
      (c.b 0 7 6 = 0 → exec (.addrTable n) s = .next (completed c (d.net.cache.length :: d.net.cache.flatMap resWords) s d)) ∧
      (c.b 0 7 6 = 1 → exec (.addrTable n) s = .next (completed c [] s
        (d.setRes { port := m, v6 := v6, ip := ip, mac := c.q 5 % 2 ^ 48, resolved := true, static := true, at' := d.now }))) ∧
      (c.b 0 7 6 = 2 → exec (.addrTable n) s = .next (completed c [] s
        (({ d with net := { d.net with cache := d.net.cache.filter fun r => !(r.port == m && r.v6 == v6 && r.ip == ip && r.static) } } : Dev).wantHops
          m)))) ∧
    (ready ptpConfigDef n 0 0 s = true →
      let d1 := { d with net := { d.net with ptpCfg := (List.range 10).map c.p } }
      exec (.ptpConfig n) s = .next (completed c [] s ((List.range 20).foldl
        (fun (e : Dev) m => e.setPort m { e.port m with master := none, hist := [], ptpSeq := [], ptp := if d1.ptpOn m then 1 else 0 }) d1))) ∧
    (ready ptpStatusDef n 0 0 s = true → ∃ ws, exec (.ptpStatus n) s = .next (completed c ws s d) ∧
      ws.take 4 = [wrapN 32 d.net.utc, b2n d.net.utcValid] ++ lohi (beNat d.clockId)) ∧
    (ready timeSetDef n 0 0 s = true →
      (bit (c.p 0) 4 = false ∨ (d.run.active = false ∧ d.front.running = false ∧ d.f CAP_STAT CAP_STAT_STATE ∉ [1, 2, 3])) →
      let d1 := d.setF TSU_CTRL TSU_CTRL_SRC (c.b 0 1 0)
      let d2 := if bit (c.p 0) 2 then { d1 with net := { d1.net with label := c.q 1 % 2 ^ 48, labelNew := true } } else d1
      let d3 := if bit (c.p 0) 3 then { d2 with net := { d2.net with utc := sext 32 (c.p 3), utcValid := true } } else d2
      exec (.timeSet n) s = .next (completed c [] s (if bit (c.p 0) 4 then d3.setF TSU_CTRL TSU_CTRL_STEP_ARM 1 else d3))) ∧
    (ready timeGetDef n 0 0 s = true →
      exec (.timeGet n) s = .next (completed c
        (lohi d.todSec ++ lohi d.todNsFrac ++ [d.rdN TSU_CTRL] ++ lohi (d.rdN TSU_OFFSET) ++ lohi (wrapN 64 d.net.slew) ++
          [wrapN 32 d.net.utc]) s d)) ∧
    (ready pulseSetDef n 0 0 s = true → d.on TSU_CTRL TSU_CTRL_VALID = true →
      let p := c.b 0 2 0
      let mode := c.b 0 4 3
      let d1 := ((((d.wrN (PO_CTRL p) (mode + c.b 0 5 5 * 4 + d.f (PO_CTRL p) PO_CTRL_MISSED * 16 + c.b 0 31 8 * 256)).wrN (PO_START_SEC p)
        (c.q 1)).wrN (PO_START_NS p) (c.q 3)).wrN (PO_PERIOD p) (c.q 5))
      let k := (d.pulse p).1
      ((mode = 0 ∨ mode = 3) → exec (.pulseSet n) s = .next (completed c [] s ((d1.setPulse p (k, none, false)).pulsePin p false))) ∧
      (mode ≠ 0 → mode ≠ 3 → d.tod + 1000 * 2 ^ 40 ≤ d1.pulseStart p →
        exec (.pulseSet n) s = .next (completed c [] s ((d1.setPulse p (k, some (d1.pulseStart p), false)).pulsePin p false)))) ∧
    (ready portDelayDef n 0 0 s = true →
      exec (.portDelay n) s = .next (completed c [] s ((d.wrN (EM_LAT (c.b 0 4 0)) (c.q 1)).wrN (EM_ASYM (c.b 0 4 0)) (c.p 3)))) ∧
    (ready coreLoadDef n 0 0 s = true → d.coreState (d.physOf c.coreNum) ≠ CORE_RUN →
      ∀ i e, c.job d (0x0901 + 0x10000 * c.coreNum) false = some (i, e) →
      exec (.coreLoad n) s = .next (accepted c (e.ticket i) s e)) ∧
    (ready coreStartDef n 0 0 s = true →
      let k := d.physOf c.coreNum
      d.coreState k ≠ CORE_RUN → (d.core k).qhalt = 0 → d.coreState k ≠ CORE_RETIRED →
      let d1 := ((d.wrN (CR_WIN_X k) (c.q 1)).wrN (CR_WIN_Y k) (c.q 3)).setF (CR_WDOG k) CR_WDOG_TIMEOUT_MS (c.p 5)
      let d2 := (d1.setF (CR_CTRL k) CR_CTRL_WDOG_EN (c.b 0 2 2)).setF (CR_CTRL k) CR_CTRL_START_PC (c.b 0 25 8)
      let d3 := (List.range 48).foldl (fun (e : Dev) l =>
        (e.setF (CR_INT k l) CR_INT_EN (b2n (bit (c.q 6) l))).setF (CR_INT k l) CR_INT_LEVEL (b2n (bit (c.q 8) l))) d2
      exec (.coreStart n) s = .next (completed c [] s (d3.coreStart k))) ∧
    (ready coreStopDef n 0 0 s = true → bit (c.p 0) 2 = true →
      exec (.coreStop n) s = .next (completed c [] s (d.coreClear (d.physOf c.coreNum)))) ∧
    (ready coreStopDef n 0 0 s = true → bit (c.p 0) 2 = false →
      let k := d.physOf c.coreNum
      let s1 := toBoundary k 800000 s
      (s1.dev.coreState k ≠ CORE_RUN → exec (.coreStop n) s = .next (completed c [] s1 s1.dev)) ∧
      (s1.dev.coreState k = CORE_RUN → (s1.core k).ctx.boundary = true →
        exec (.coreStop n) s = .next (completed c [] s1 (s1.dev.coreHalt k 5)))) ∧
    (ready coreStatusDef n 0 0 s = true → ∃ ws, exec (.coreStatus n) s = .next (completed c ws s d) ∧
      ws.take 2 = [d.rdN CR_MAP, d.physOf c.coreNum]) ∧
    (ready coreTuckDef n 0 0 s = true → (d.core (d.physOf c.coreNum)).qhalt = 0 → (d.core (d.physOf 3)).qhalt = 0 →
      d.reserveOk = true → ∀ i e, c.job d 0x0905 false = some (i, e) →
      exec (.coreTuck n) s = .next (accepted c (e.ticket i) s e))

/-- The commands of error handling, protection, thermal control and the lease, taken up and past the common checks and their own, are
answered with the effect of their rows: the error log read and acknowledged (R396, R397), ECC status, scrubbing set (R390), a
check-value unit that no core owns set (R400), an error put into a granule (R394), thermal state and limits (R404, R405), wear and
reserves read (R413, R414), and the twin or arbiter configured and read (R418 to R421, R429). -/
def Obligations.CareCommandsAnswer : Prop :=
  ∀ (n : Nat) (s : State),
    let c := s.dev.readCmd n 0 0
    let d := s.dev
    (ready errReadDef n 0 0 s = true →
      let cap := ((if c.slot = SMB_SLOT then 14 else if c.rdest then 8191 else 270) - 10) / 8
      let rest := d.ret.errLog.drop (c.p 0)
      rest.length ≤ cap → exec (.errRead n) s = .next (completed c
        (lohi (d.rdN ER_STAT) ++ (List.range 4).flatMap (fun i => lohi (d.rdN (ER_FIRST i))) ++
          (rest.take cap).flatMap fun e => e.words.flatMap lohi) s d)) ∧
    (ready errAckDef n 0 0 s = true →
      let d1 := if bit (c.p 0) 9 then d.errClrLost else d
      let d2 := if bit (c.p 0) 8 then d1.errClrFirst else d1
      exec (.errAck n) s = .next (completed c [] s (d2.errAck (c.b 0 7 0)))) ∧
    (ready eccStatusDef n 0 0 s = true → c.clear = false → ∃ ws, exec (.eccStatus n) s = .next (completed c ws s d)) ∧
    (ready eccStatusDef n 0 0 s = true → c.clear = true → ∃ ws e, exec (.eccStatus n) s = .next (completed c ws s e) ∧
      ∀ k, k < 7 → e.rd (EC_CNT k) = 0 ∧ e.rd (EC_PRD k) = 0) ∧
    (ready scrubCtrlDef n 0 0 s = true →
      let r := EC_CTRL (c.b 0 2 0)
      exec (.scrubCtrl n) s = .next (completed c [] s
        (((d.setF r EC_CTRL_SCRUB_EN (c.b 0 3 3)).setF r EC_CTRL_TARGETED (c.b 0 4 4)).setF r EC_CTRL_PERIOD_S (c.b 0 31 12)))) ∧
    (ready cvuSetDef n 0 0 s = true →
      let u := c.b 0 2 0
      d.f (CV_CFG u) CV_CFG_OWNER ≠ 1 → d.f (CV_CFG u) CV_CFG_OWNER ≠ 2 → bit (c.p 0) 5 = false →
      let e := ((((d.cvDrain u).setF (CV_CFG u) CV_CFG_OWNER (c.b 0 4 3)).setF (CV_CFG u) CV_CFG_WIDTH (c.b 0 12 6)).setF (CV_CFG u)
        CV_CFG_REFIN (c.b 0 13 13)).setF (CV_CFG u) CV_CFG_REFOUT (c.b 0 14 14)
      exec (.cvuSet n) s = .next (completed c [] s (((e.wrN (CV_POLY u) (c.q 1)).wrN (CV_INIT u) (c.q 3)).wrN (CV_XOROUT u) (c.q 5)))) ∧
    (ready eccInjectDef n 0 0 s = true →
      let k := c.b 0 2 0
      let a := c.q 1
      (d.granuleUsed k a && !c.force) = false →
      let g := (d.classSize k).2
      let data := (wordsToBytes ((List.range 16).map fun i => c.p (7 + i))).take g
      let o := Config.eccDecode k (leNat data) (c.q 3 + c.q 5 * 2 ^ 64)
      let m1 := if k = 3 ∨ k = 4 then s.mem else s.mem.store a (if o.1 % 4 = 1 then leBytes g o.2 else data) (o.1 % 4 == 3)
      exec (.eccInject n) s = .next (completed c []
        { s with mem := if o.1 % 4 = 1 ∨ o.1 % 4 = 2 then m1.setSoft k a (o.1 % 4) else m1 }
        ((d.wrN EC_INJ_LO (c.q 3)).wrN EC_INJ_HI (c.q 5)))) ∧
    (ready thermStatusDef n 0 0 s = true → exec (.thermStatus n) s = .next (completed c
      ([d.rdN TH_CTRL, d.rdN TH_LATCH] ++ (List.range 8).flatMap (fun z => lohi (d.rdN (TH_ZONE z))) ++
        (List.range 56).map (fun k => d.rdN (TH_SENS k)) ++ (List.range 56).map (fun k => wrapN 32 (d.offset k)) ++
        [d.rdN AV_CTRL] ++ thermCounters.flatMap fun a => lohi (d.rdN a)) s (if c.clear then d.clearRegs thermCounters else d))) ∧
    (ready thermSetDef n 0 0 s = true →
      let x := c.b 0 12 7
      (bit (c.p 0) 6 = true → d.f (TH_SENS x) TH_SENS_STATE ≠ 0) →
      let z := TH_ZONE (c.b 0 2 0)
      let d1 := if bit (c.p 0) 3 then d.wrN z (d.rdN z / 2 ^ 32 * 2 ^ 32 + c.p 1 % 2 ^ 32) else d
      let d2 := if bit (c.p 0) 4 then (d1.setF TH_CTRL TH_CTRL_STEP_UP_MS (c.b 2 6 0)).setF TH_CTRL TH_CTRL_STEP_DN_MS (c.b 2 25 16) else d1
      let d3 := if bit (c.p 0) 5 then d2.setF TH_CTRL TH_CTRL_DUTY_MAX (c.b 0 16 13) else d2
      exec (.thermSet n) s = .next (completed c [] s (if bit (c.p 0) 6 then d3.setF (TH_SENS x) TH_SENS_STATE 2 else d3))) ∧
    (ready wearReportDef n 0 0 s = true → ∃ ws, exec (.wearReport n) s = .next (completed c ws s d) ∧
      ws.take 4 = [d.f AV_CTRL AV_CTRL_VSET_MV, d.ret.wear.seqViol, d.reservesLeft, d.tileForecast]) ∧
    (ready reserveStatusDef n 0 0 s = true → ∃ ws, exec (.reserveStatus n) s = .next (completed c ws s d) ∧
      ws.take 2 = [(List.range 68).countP (fun t => d.tileRole t == 1), d.lgroups.countP (fun g => g.tx && g.moved.isNone)]) ∧
    (ready leaseConfigDef n 0 0 s = true → d.run.active = false → d.compat = false →
      let ms := (List.range 20).filter fun m => bit (c.p 3) m
      ∀ bs, readTable d s.mem (c.q 4) (20 * ms.length) = .ok bs →
      let id : LeaseId := { twin := bit (c.p 0) 0, pairId := c.b 0 31 16, node := c.b 0 1 1, gateAsl := bit (c.p 0) 2, mac := c.q 1,
                            portMask := c.p 3, svc := (List.range ms.length).map fun k => (at' bs (20 * k) 4, at' bs (20 * k + 4) 16) }
      let ctrl := b2n (bit (c.p 0) 0) + c.b 0 1 1 * 4 + c.b 0 2 2 * 8 + c.b 0 31 16 * 65536 + (d.rdN LS_CTRL &&& 0x10)
      let d1 := ({ d with ret := { d.ret with lease := id }, twin := { d.twin with holder := false } } : Dev).wrN LS_CTRL ctrl
      exec (.leaseConfig n) s = .next (completed c [] s ((d1.syncLease).wantCommit .lease none))) ∧
    (ready leaseStatusDef n 0 0 s = true → exec (.leaseStatus n) s = .next (completed c
      ([d.rdN LS_CTRL] ++ lohi d.leaseStat ++ leaseCounters.flatMap (fun a => lohi (d.rdN a)) ++ [d.twin.words.length] ++
        d.twin.words.flatMap fun w => (List.range 8).map fun k => at' w (4 * k) 4) s (if c.clear then d.clearRegs leaseCounters else d))) ∧
    (ready arbiterConfigDef n 0 0 s = true → d.isTwin = false → d.compat = false →
      let start := bit (c.p 0) 0
      let d1 := ((d.setF LS_CTRL LS_CTRL_ROLE (if start then 2 else 0)).setF LS_CTRL LS_CTRL_PREF (c.b 0 1 1)).setF LS_CTRL
        LS_CTRL_PAIR_ID (c.b 0 31 16)
      let t := d1.twin
      let t1 : Twin := if start && !d.isArb then
          { words := t.words, alive := t.alive, l := c.p 1, g := c.p 2, startAt := d.now, waiting := true }
        else { t with l := c.p 1, g := c.p 2 }
      exec (.arbiterConfig n) s = .next (completed c [] s ({ d1 with twin := t1 } : Dev).syncLease)) ∧
    (ready healthReadDef n 0 0 s = true →
      let k := if c.b 0 1 0 = 2 then d.f LS_CTRL LS_CTRL_NODE else c.b 0 1 0
      let xs := (d.twin.reports.filter (·.1 == k)).map (·.2)
      let ys := if c.b 0 1 0 = 2 && xs.isEmpty then [d.healthBody] else xs
      exec (.healthRead n) s = .next (completed c
        (ys.length :: ys.flatMap fun b => b.length :: (List.range (ceilDiv b.length 4)).map fun j => at' b (4 * j) 4) s d))

/-- The commands of retained state, self-tests, debugging and the DC-512 personalities, taken up and past the common checks and their
own, are answered with the effect of their rows: the profile read or replaced and committed (R471 to R474), commits and images as
jobs (R460, R467), the hold-up status (R468), factory defaults (R473), self-tests as jobs and their results (R517, R518), the debug
lock (R516), and the personalities assigned, reset and read (R435, R448). A commit that a command asks for needs a hold-up check that
passes; without one the answer is HOLDUP_LOW. -/
def Obligations.KeepCommandsAnswer : Prop :=
  ∀ (n s0 s1 : Nat) (s : State),
    let c := s.dev.readCmd n 0 0
    let k := s.dev.readCmd n s0 s1
    let d := s.dev
    (ready profileReadDef n 0 0 s = true →
      let bs := d.profileBytes'
      bs.length ≤ c.q 2 → bs ≠ [] → (memWrite d s.mem (c.q 0) bs false).1 = true →
      exec (.profileRead n) s = .next (completed c [bs.length, s.flash.gen % 2 ^ 32]
        { s with mem := (memWrite d s.mem (c.q 0) bs false).2 } d)) ∧
    (ready profileWriteDef n s0 s1 s = true → d.run.active = false → ∀ l, profileAfter k s = .ok l →
      let e : Dev := { d with ret := { d.ret with profile := l } }
      ((e.huCheck s0 s1).1 = true → exec (.profileWrite n s0 s1) s = .next (completed k [] s ((e.huCheck s0 s1).2.wantCommit .profile none true))) ∧
      ((e.huCheck s0 s1).1 = false → exec (.profileWrite n s0 s1) s = .next (answered k ({ code := .holdupLow }, (e.huCheck s0 s1).2.errSum 5) s))) ∧
    (ready commitDef n 0 0 s = true → ∀ i e, c.job d 0x0C03 false = some (i, e) →
      exec (.commit n) s = .next (accepted c (e.ticket i) s (e.wantCommit .user (some i)))) ∧
    (ready holdupStatusDef n s0 s1 s = true → (bit (k.p 0) 0 = false ∨ s.flash.engine = .idle) →
      let e := if bit (k.p 0) 0 then (d.huCheck s0 s1).2 else d
      exec (.holdupStatus n s0 s1) s = .next (completed k
        (lohi e.huRes ++ lohi (rsStat { s with dev := e }) ++ s.flash.slot0.status ++ s.flash.slot1.status) s e)) ∧
    (ready fwImageDef n 0 0 s = true → ∀ i e, c.job d 0x0C05 false = some (i, e) →
      exec (.fwImage n) s = .next (accepted c (e.ticket i) s e)) ∧
    (ready factoryDefaultsDef n s0 s1 s = true → d.run.active = false →
      let e : Dev := { d with ret := { d.ret with profile := [], lease := {} } }
      (e.huCheck s0 s1).1 = true →
      exec (.factoryDefaults n s0 s1) s = .next (completed k [] s ((e.huCheck s0 s1).2.wantCommit .factory none true))) ∧
    (ready selftestDef n 0 0 s = true → d.testReady (c.b 0 2 0) (c.b 0 15 8) = true →
      ∀ i e, c.job d (0x0D0000 + c.b 0 2 0 * 256 + c.b 0 15 8) false = some (i, e) →
      exec (.selftest n) s = .next (accepted c (e.ticket i) s e)) ∧
    (ready selftestResultDef n 0 0 s = true →
      exec (.selftestResult n) s = .next (completed c ([1, 2, 3, 4, 5].flatMap fun t => (testUnits t).flatMap fun u => d.testRecord t u) s d)) ∧
    (ready debugLockDef n 0 0 s = true →
      let l := c.b 0 1 0
      let d1 := d.setF SC_DBG SC_DBG_LEVEL l
      let d2 := if bit (c.p 0) 2 then d1.setF SC_DBG SC_DBG_DBG_MIN l else d1
      let d3 := if d.f SC_DBG SC_DBG_LEVEL < l then d2.lockRaised else d2
      exec (.debugLock n) s = .next (completed c [] s (if d2.rd SC_DBG = d.rd SC_DBG then d3 else d3.raise 0x000E 0xFF 0 l))) ∧
    (ready persStatusDef n 0 0 s = true →
      exec (.persStatus n) s = .next (completed c ([0, 1, 2, 3].flatMap fun p =>
        [b2n (d.per p).en + 2 * b2n (d.per p).running + 4 * b2n (d.per p).stopping, d.dcStatus p, (d.per p).k, d.rdN (DC_COUNTER p),
          d.rdN (DC_DUMPS p), (d.per p).pkt, b2n (d.per p).link]) s d)) ∧
    (ready persAssignDef n s0 s1 s = true → ([0, 1, 2, 3].any fun p => (d.per p).running) = false →
      d.persFits ([0, 1, 2, 3].map fun p => if bit (k.p 0) p then k.p (1 + p) else 0).sum (k.q 5) = true →
      let e := (d.persAssign k).putSetting 0x0111 (k.ps.take 18)
      (e.huCheck s0 s1).1 = true →
      exec (.persAssign n s0 s1) s = .next (completed k [] s ((e.huCheck s0 s1).2.wantCommit .pers none true))) ∧
    (ready persResetDef n 0 0 s = true → exec (.persReset n) s = .next (completed c [] s (d.persReset (c.b 0 1 0)))) ∧
    (ready persLogDef n 0 0 s = true → ∀ i e, c.job d 0x0113 false = some (i, e) →
      exec (.persLog n) s = .next (accepted c (e.ticket i) s e))

/-- The rows of the DC-512 personalities: a doorbell with its writes hands slots over (R363, R444); a slot that firmware takes up is
answered with the status and results of its command word (Table 15.5) and released, RESET and the FLR clear the personality (R445), START
runs it from the next dump boundary unless its rate is too high (R440), SET_DUMP takes effect at once or at the next boundary,
SET_OUTPUT, LOAD_DSP, RUN_DSP, HALT_DSP and GET_STATUS act as their rows say; a good frame is counted and aligned (R436 to R438);
a core that serves two enabled personalities exchanges its banks at a boundary (R447). -/
def Obligations.PersonalityRowsComplete : Prop :=
  ∀ (p k : Nat) (s : State),
    let d := s.dev
    let w := d.dcWord p k
    let x := d.per p
    (∀ v writes, d.compat = true → p < 4 → exec (.dc512Doorbell p v writes) s =
      .next { s with dev := (writes.foldl (fun (e : Dev) q => e.dcWrite p q.1 q.2) d).dcDoorbell p v }) ∧
    (readyDc 0x0001 p k s = true → exec (.dc512Reset p k) s = .next { s with dev := (d.persReset p).dcRelease p k 0x00 [] }) ∧
    (readyDc 0x0010 p k s = true → d.persRateBad p = false →
      let s1 := persRunStart s
      let y := s1.dev.per p
      let y1 : Pers := { y with running := true, stopping := false, start := none, re := [], im := [], bad := [], acct := [],
                                first := ceilDiv (s1.dev.counter64 p (w 1)).toNat (dumpSpan y.k) * dumpSpan y.k }
      exec (.dc512Start p k) s = .next { s1 with dev := (s1.dev.setPer p y1).dcRelease p k 0x00 [] }) ∧
    (readyDc 0x0010 p k s = true → d.persRateBad p = true →
      exec (.dc512Start p k) s = .next { s with dev := d.dcRelease p k 0x06 [] }) ∧
    (readyDc 0x0011 p k s = true → x.running = true → exec (.dc512Stop p k) s = .next { s with
      dev := (d.setPer p { x with stopping := true, start := none, re := [], im := [], bad := [], acct := [] }).dcRelease p k 0x00 [] }) ∧
    (readyDc 0x0020 p k s = true → w 1 ≤ 15 → exec (.setDump p k) s = .next { s with
      dev := (d.setPer p (if x.running then { x with nextK := some (w 1) } else { x with k := w 1 })).dcRelease p k 0x00 [] }) ∧
    (readyDc 0x0020 p k s = true → 15 < w 1 → exec (.setDump p k) s = .next { s with dev := d.dcRelease p k 0x02 [] }) ∧
    (readyDc 0x0030 p k s = true → x.running = false → exec (.setOutput p k) s = .next { s with
      dev := (d.setPer p { x with mac := w 1 + w 2 % 2 ^ 16 * 2 ^ 32, src := w 3, dst := w 4, ports := w 5, unit := w 6 % 256 }).dcRelease
        p k 0x00 [] }) ∧
    (readyDc 0x0030 p k s = true → x.running = true → exec (.setOutput p k) s = .next { s with dev := d.dcRelease p k 0x03 [] }) ∧
    (readyDc 0x0040 p k s = true → w 1 ≤ 2 → 1 ≤ w 3 → w 3 ≤ 12 →
      w 2 + w 3 ≤ (if w 1 = 0 then 0x4000 else if w 1 = 1 then 0xFC00 else 0x10000) →
      let base := s.localBase (d.physOf (1 + p / 2)) (w 1) + 4 * ((if w 1 = 0 then 0x4000 else 0x10000) * (p % 2) + w 2)
      let bs := (List.range (w 3)).flatMap fun i => leBytes 3 (w (4 + i)) ++ [0]
      exec (.loadDsp p k) s = .next { s with mem := (memWrite d s.mem base bs false).2, dev := d.dcRelease p k 0x00 [] }) ∧
    (readyDc 0x0041 p k s = true → w 1 < 2 ^ 14 →
      let c := d.physOf (1 + p / 2)
      let d1 := if d.coreState c = CORE_RESET then (d.setCoreState c CORE_RUN).setF (CR_STAT c) CR_STAT_CS 1 else d
      let d2 := d1.setPersCtx p fun t => { t with pc := w 1, slots := none, rep := none, waiting := false, runs := true }
      exec (.runDsp p k) s = .next { s with dev := (d2.setPer p { d2.per p with fault := false }).dcRelease p k 0x00 [] }) ∧
    (readyDc 0x0042 p k s = true → exec (.haltDsp p k) s = .next { s with
      dev := (d.setPersCtx p fun t => { t with runs := false }).dcRelease p k 0x00 [] }) ∧
    (readyDc 0x0050 p k s = true → exec (.getStatus p k) s = .next { s with dev := d.dcRelease p k 0x00 (d.persStatus p) }) ∧
    (d.compat = true → p < 4 →
      let e := (d.persReset p).wrN (DC_DOORBELL p) 0
      exec (.dc512Flr p) s = .next { s with dev := { e with
        host := { e.host with fwq := e.host.fwq.filter fun q => !decide (dcSlot p 0 ≤ q ∧ q ≤ dcSlot p 7) } } }) ∧
    (∀ lane b, lane / 16 = p → p < 4 → d.compat = true → x.en = true → d.laneFunc lane = 4 → b.length = 268 →
      crc32 (b.take 264) = at' b 264 4 → at' b 0 4 % 8 = 0 → at' b 4 2 < x.nch → at' b 6 1 ≤ 15 →
      let l := at' b 6 1
      let c := d.counter64 p (at' b 0 4)
      let d1 := d.cnt (LN_FRAMES_OK lane) 1
      let d2 := if l ≠ lane % 16 then d1.setF (LN_STAT lane) LN_STAT_ORDER 1 else d1
      let r := d2.align false ((x.base : Int) + c).toNat (32 * l) 5 (x.chan0 + at' b 4 2) 0 ((b.drop 8).take 256)
      let d3 := r.1.alignCounts lane r.2
      let top := max (x.newest.getD 0) (c + 7).toNat
      exec (.dc512FrameReceived lane b) s =
        .next { s with dev := (d3.setPer p { d3.per p with newest := some top }).wrN (DC_COUNTER p) (top % 2 ^ 32) }) ∧
    (∀ core, core < 4 → d.compat = true → d.coreCs core = true → d.coreState core = CORE_RUN →
      let y := (d.core core).drain
      let q := 2 * (d.logicalOf core - 1)
      y.ctx.boundary = true → (d.per q).en = true → (d.per (q + 1)).en = true →
      exec (.personalitySwitch core) s = .next { s with dev := d.setCore core { y with bank := 1 - y.bank, ctx := y.alt, alt := y.ctx } })

/-- The host port's rows take effect as chapter 12 and R483 and R487 give it: a doorbell hands over the slots that firmware does not own
(R363, R366); a slot write changes the slot only while the host owns it (R362); refused accesses of BAR0 are counted (R358) and BAR2
goes through its aperture (R373, R374); a command at the front is taken up, an unknown opcode answered BAD_OPCODE (R381); spacing, D0
and link changes send what waited (R359, R376); endpoint resets clear the host interface (R360); a timed-out outbound read is answered with
an error (R375); HEARTBEAT advances; a running job ends with its work and a cancelled one PARTIAL (R370, R372); the SMBus and SPI ports
write their window, ring once, count and answer (R378, R379, R483, R487). -/
def Obligations.HostRowsComplete : Prop :=
  ∀ (s : State),
    let d := s.dev
    let h := d.host
    (∀ v,
      let own := d.rdN DOORBELL
      let ask := (List.range 32).filter fun k => bit v k
      let new := ask.filter fun k => !bit own k
      let d1 := (d.wrN DOORBELL (own ||| v % 2 ^ 32)).cntF HI_CNT HI_CNT_DB_IGN (ask.length - new.length)
      exec (.doorbellWrite v) s = .next { s with dev := { d1 with host := { d1.host with fwq := d1.host.fwq ++ new } } }) ∧
    (∀ off size v k, (size = 4 ∨ size = 8) → off % size = 0 → slotOf off = some k → bit (d.rdN DOORBELL) k = false →
      exec (.mailboxSlotWrite off size v) s =
        .next { s with dev := d.wrWords (DEVSTAT + off) ([v % 2 ^ 32, v / 2 ^ 32 % 2 ^ 32].take (size / 4)) }) ∧
    (∀ off size v k, (size = 4 ∨ size = 8) → off % size = 0 → slotOf off = some k → bit (d.rdN DOORBELL) k = true →
      exec (.mailboxSlotWrite off size v) s = .next { s with dev := (d.cntF HI_CNT HI_CNT_MB_VIOL 1).raise 0x1001 k off 0 }) ∧
    (∀ off size, exec (.bar0RefusedAccess true true off size) s = .next { s with dev := d.raise 0x1003 0xFF off size }) ∧
    (∀ ep off size, bar0Ok off size = false →
      exec (.bar0RefusedAccess false ep off size) s =
        .next (({ s with dev := d.cntF HI_CNT HI_CNT_BAD_ACC 1 } : State).answer { kind := .unsupported })) ∧
    (∀ off size, bar0Ok off size = false →
      exec (.bar0RefusedAccess true false off size) s = .next { s with dev := d.cntF HI_CNT HI_CNT_BAD_ACC 1 }) ∧
    (∀ off len bytes ep,
      let a := off / 0x4000000
      a < 4 → d.on (APER a) APER_EN = true →
      let addr := d.f (APER a) APER_BASE * 2 ^ 26 + off % 0x4000000
      (d.on (APER a) APER_WRITE = true → exec (.bar2Access true off len bytes ep) s =
        .next (busWrite 10 addr bytes (bytes.map fun _ => ep) s).2) ∧
      (d.on (APER a) APER_WRITE = false → exec (.bar2Access true off len bytes ep) s =
        .next { s with dev := (d.cntF HI_CNT HI_CNT_BAR2_WDROP 1).raise 0x1002 0xFF off 0 }) ∧
      ((busRead 10 addr len s).1.kind = .ok → exec (.bar2Access false off len bytes ep) s =
        .next ((busRead 10 addr len s).2.answer (busRead 10 addr len s).1))) ∧
    (∀ df ∈ commands, ∀ k s0 s1, ready df k s0 s1 s = true →
      let c := d.readCmd k s0 s1
      exec (.commandTakeUp s0 s1) s = .next (finish c (df.run c s).1 (df.run c s).2)) ∧
    (∀ k s0 s1, h.fwq.head? = some k → k ≤ SMB_SLOT → cmdOf (d.readCmd k s0 s1).op = none → d.mailServed = true →
      exec (.commandTakeUp s0 s1) s = .next (finish (d.readCmd k s0 s1) { code := .badOpcode } s)) ∧
    (∀ v, bit h.spacing v = true →
      exec (.msixSpacingEnd v) s = .next { s with dev := ({ d with host := { h with spacing := h.spacing - 2 ^ v } } : Dev).resend v }) ∧
    (∀ d3hot linkUp busMaster msixEn mask,
      let e := { d with host := { h with d3hot := d3hot, linkUp := linkUp, busMaster := busMaster, msixEn := msixEn, msixMask := mask % 256 } }
      exec (.returnToD0 d3hot linkUp busMaster msixEn mask) s =
        .next { s with dev := (List.range 8).foldl (fun (e : Dev) v => (e.resend v).unmask v) e }) ∧
    (∀ kind,
      let e := ((d.wr INT_EN (regReset INT_EN)).wr INT_MOD (regReset INT_MOD)).wr INT_CAUSE (regReset INT_CAUSE)
      let e1 := [0, 1, 2, 3].foldl (fun (e : Dev) a => e.wrN (APER a) 0) e
      exec (.endpointReset kind) s = .next { s with dev := { e1 with host := { e1.host with
        msixEn := false, msixMask := 0xFF, msixPend := 0, spacing := 0, waiting := 0, d3hot := false, busMaster := false,
        linkUp := e1.host.linkUp && decide (kind < 2) } } }) ∧
    (∀ master addr,
      let hit := (List.range 16).filter fun n =>
        dmaPort n == master && (d.ch n).copying && decide ((d.ch n).src ≤ addr ∧ addr < (d.ch n).src + (d.ch n).len)
      exec (.outboundTimeout master addr) s =
        .next (({ s with dev := hit.foldl (fun (e : Dev) n => e.dmaFail n 3) d } : State).answer (errRsp 0))) ∧
    (d.fwStuck = false → d.pwr.inReset = false → d.fwState ∉ [FW_BOOT, FW_HALTED, FW_SHUTDOWN] →
      exec .heartbeatTick s =
        .next { s with dev := d.setF DEVSTAT DEVSTAT_HEARTBEAT ((d.f DEVSTAT DEVSTAT_HEARTBEAT + 1) % 2 ^ 16) }) ∧
    (∀ i bad, d.mailServed = true → d.jobState i = 4 →
      exec (.jobDone i bad) s = .next { s with dev := (d.dropJob i).endJob i .partialDone (d.jobCount i) }) ∧
    (∀ i bad t code k, d.mailServed = true → d.jobState i = 2 → jobWork (d.jobOp i) bad i s = (t, some (code, k)) →
      exec (.jobDone i bad) s = .next { t with dev := t.dev.endJob i code k }) ∧
    (∀ off data, d.pwr.auxOn = true → data.length ≤ 64 →
      exec (.smbusWrite off data true) s = .next { s with dev := d.winWrite off data } ∧
      exec (.smbusWrite off data false) s = .next { s with dev := { d with host := { h with pecErr := h.pecErr + 1 } } }) ∧
    (d.rdN SMB_DB % 2 = 0 → exec .smbusDoorbell s =
      .next { s with dev := { d.wrN SMB_DB 1 with host := { h with fwq := h.fwq ++ [SMB_SLOT] } } }) ∧
    (exec .smbusTimeout s = .next { s with dev := { d with host := { h with smbTimeouts := h.smbTimeouts + 1 } } }) ∧
    (∀ again, h.smbAlert = true → exec (.smbusAlertResponse again) s =
      .next { s with dev := ({ d with host := { h with smbAlert := again } } : Dev).emit .smbus (0x4C + d.pwr.smbAddr % 4) [] }) ∧
    (∀ off data len, d.compat = false →
      exec (.spiFrame (0x02 :: off :: data) len) s = .next { s with dev := d.winWrite off data } ∧
      exec (.spiFrame (0x03 :: off :: data) len) s =
        .next { s with dev := (d.emit .spi 0 ((List.range len).map fun i => d.winByte (off + i))).drew }) ∧
    (exec .spiCsTimeout s = .next { s with dev := { d with host := { h with spiTimeouts := h.spiTimeouts + 1 } } })

/-- In compatibility mode the SPI port carries the DC-512 protocol, which the specification does not give (R379): such a frame is refused
by name. -/
def Obligations.SpiFrameRefusedInCompat : Prop :=
  ∀ (s : State) (bytes : List Nat) (len : Nat), s.dev.compat = true → exec (.spiFrame bytes len) s = .refused .spiProtocolNotGiven


/-- A lane's receiver moves as Table 2.2 says (R53 to R55, R63, R80, R81): each training event leads from its state to the next, a
mismatched identity to MISWIRED, a state's timeout back to CDR with a count in RETRAIN, loss of lock from UP to the state that its kind
names; LOWPOWER stops the receiver and idles the transmitter, and its exit goes to DETECT; eight timeouts within 60 s, 10 s out of UP
with a signal, or a failed transmitter with no parity lane declare the lane failed (R412). -/
def Obligations.LaneTrainingRowsComplete : Prop :=
  ∀ (n : Nat) (s : State),
    let d := s.dev
    let l := d.lane n
    (d.laneSt n = LST_CDR → exec (.cdrLock n) s = .next { s with dev := d.laneMove n LST_ADAPT }) ∧
    (d.laneSt n = LST_ADAPT → exec (.adaptationSettled n) s =
      .next { s with dev := (d.setLane n { l with adapted := true }).laneMove n LST_FEC }) ∧
    (d.laneSt n = LST_DETECT → exec (.signalDetect n) s =
      .next { s with dev := (d.setLane n { l with signal := true }).laneMove n LST_CDR }) ∧
    (d.laneSt n = LST_FEC → exec (.fecLock n) s = .next { s with dev := d.laneMove n LST_FRAME }) ∧
    (d.laneSt n = LST_FRAME → exec (.frameLock n false) s = .next { s with dev := d.laneMove n LST_IDENT }) ∧
    (d.laneSt n = LST_FRAME → exec (.frameLock n true) s = .next { s with
      dev := ((d.setF (LN_CTRL n) LN_CTRL_RX_INV 1).setF (LN_STAT n) LN_STAT_POL_DET 1).laneMove n LST_IDENT }) ∧
    (∀ src link, d.laneSt n = LST_IDENT ∨ d.laneSt n = LST_MISWIRED → d.identOk n src link = true →
      exec (.identify n src link) s = .next { s with dev := d.laneMove n LST_UP }) ∧
    (∀ src link, d.laneSt n = LST_IDENT → d.identOk n src link = false →
      exec (.identify n src link) s = .next { s with dev := d.laneMove n LST_MISWIRED }) ∧
    (LST_CDR ≤ d.laneSt n → d.laneSt n ≤ LST_IDENT →
      let rs := (d.now :: l.retrains).filter fun t => decide (d.now ≤ t + SIXTY_S)
      let d1 := (d.laneMove n LST_CDR).cnt (LN_RETRAIN n) 1
      let d2 := d1.setLane n { d1.lane n with retrains := rs.take 8 }
      (8 ≤ rs.length → d2.laneRxUsed n = true → exec (.laneStateTimeout n) s = .next { s with dev := d2.rxFail n }) ∧
      (rs.length < 8 ∨ d2.laneRxUsed n = false → exec (.laneStateTimeout n) s = .next { s with dev := d2 })) ∧
    (d.laneSt n = LST_UP →
      exec (.lossOfLaneLock n 0) s = .next { s with dev := d.laneMove n LST_CDR } ∧
      exec (.lossOfLaneLock n 1) s = .next { s with dev := d.laneMove n LST_FEC } ∧
      exec (.lossOfLaneLock n 2) s = .next { s with dev := d.laneMove n LST_FRAME }) ∧
    (d.laneRxUsed n = true → d.laneSt n ≠ LST_UP → l.signal = true → l.rxFailed = false →
      exec (.laneFailTimeout n) s = .next { s with dev := (d.setLane n { l with rxFailed := true }).laneFailed n }) ∧
    (d.on (LN_CTRL n) LN_CTRL_LP = true → d.laneSt n ≠ LST_OFF → d.laneSt n ≠ LST_LOWPOWER →
      let d1 := (d.laneMove n LST_LOWPOWER).scanPartial n
      exec (.lowpowerEnter n) s = .next { s with dev := (d1.setLane n { d1.lane n with txIdle := true }).groupPlls (n / 8) }) ∧
    (d.on (LN_CTRL n) LN_CTRL_LP = false → d.laneSt n = LST_LOWPOWER →
      let d1 := ((d.loadPll (n / 8) 0).loadPll (n / 8) 1).laneMove n LST_DETECT
      exec (.lowpowerExit n) s = .next { s with
        dev := d1.setLane n { d1.lane n with txIdle := false, exitAt := some d1.now, exitJob := none } }) ∧
    (l.exitAt.isSome = true → d.laneSt n ≠ LST_UP →
      exec (.lpExitLate n) s = .next { s with dev := (d.setLane n { l with exitAt := none }).raise 0x0301 n 0 0 }) ∧
    (let d1 := d.setLane n { l with txFailed := true };
      (∀ g, (d1.lgroups.find? fun g => g.tx && g.moved.isNone && g.data.contains n) = some g →
        exec (.txMonitorFail n) s = .next { s with dev := d1.tuckLane g (g.data.idxOf n) }) ∧
      ((d1.lgroups.find? fun g => g.tx && g.moved.isNone && g.data.contains n) = none →
        exec (.txMonitorFail n) s = .next { s with dev := d1.laneFailed n }))

/-- Traffic of the lanes: a received ASL frame goes through the checks of Table 2.5 in order and a failed one only counts (R61 to R63);
a group's slot is rebuilt from its parity frame (R68); a frame slot sends the oldest frame that waits (R57, R58); a bulk frame leaves
only with credit (R65), and an audit point is set on every ASL link (R66); a tuckpoint takes effect at the first frame at or after the
SPN it names (R69). -/
def Obligations.LaneTrafficRowsComplete : Prop :=
  ∀ (n : Nat) (s : State),
    let d := s.dev
    (∀ slot corr unc h p, d.laneSt n = LST_UP → d.laneFunc n = 1 → (d.lane n).rxFailed = false →
      let d1 := if corr = 0 then d else d.cnt (LN_FEC_CORR n) corr
      let d2 := if unc = 0 then d1 else d1.cnt (LN_FEC_UNCORR n) unc
      (frameCheck unc h p = 0 → (d2.frameBody n h p).rxGroup n = none →
        exec (.aslFrameReceived n slot corr unc h p) s = .next { s with dev := d2.frameBody n h p }) ∧
      (frameCheck unc h p ≠ 0 → d2.rxGroup n = none →
        exec (.aslFrameReceived n slot corr unc h p) s = .next { s with dev := d2.dropFrame n (frameCheck unc h p) }) ∧
      (frameCheck unc h p ≠ 0 → ∀ g, d2.rxGroup n = some g → g.skew = false →
        let g1 := { g with slots := g.slots ++ [{ slot := slot, pos := bits h 155 152, lane := n, check := frameCheck unc h p,
                                                  header := h, payload := p }], newest := max g.newest slot }
        (g1.slots.any fun x => decide (x.slot + 3 < g1.newest)) = false →
        exec (.aslFrameReceived n slot corr unc h p) s = .next { s with dev := (d2.setRxGroup g1).settleSlot g1 slot })) ∧
    (exec .bulkAuditPoint s = .next { s with dev := d.bulkAudit }) ∧
    (let d0 := { d with aslSlots := d.aslSlots + 1 };
      (∀ g, (d0.lgroups.find? fun g => g.tx && g.lanes.contains n) = some g →
        exec (.aslFrameSlot n) s = .next { s with dev := d0.groupSlot g }) ∧
      ((d0.lgroups.find? fun g => g.tx && g.lanes.contains n) = none → d0.sends n = true →
        exec (.aslFrameSlot n) s = .next { s with dev := ((d0.nextFrame n).2.putFrame n 0xF (d0.nextFrame n).1).2 })) ∧
    (∀ ch p rest, serialDiff (d.bulkOf n).credit (((d.bulkOf n).sent + d.bulkWaiting n) % 2 ^ 32) 32 > 0 → ∀ m, d.txLanes n = m :: rest →
      (d.bulkOf n).queue = [] →
      exec (.bulkFrameSend n ch p) s = .next { s with
        dev := (d.setBulk n { d.bulkOf n with queue := [] }).setLane m { d.lane m with
          txq := (d.lane m).txq ++ [{ type := 3, link := n, bulkCh := ch, payload := padTo 4096 p }] } }) ∧
    (∀ ch p, serialDiff (d.bulkOf n).credit (((d.bulkOf n).sent + d.bulkWaiting n) % 2 ^ 32) 32 ≤ 0 →
      exec (.bulkFrameSend n ch p) s = .next { s with
        dev := d.setBulk n { d.bulkOf n with queue := (d.bulkOf n).queue ++ [(ch, padTo 4096 p)] } }) ∧
    (∀ num g pos spn, (d.lgroups.find? fun g => g.tx && g.id == n) = some g → g.tuck = some (pos, spn) → earlier num spn 48 = false →
      exec (.laneTuckpoint n num) s = .next { s with dev := d.tuckLane g pos })

/-- JESD204C links, eye scans and patterns (R70 to R79, R82, R84, R85): a multiblock that fails its CRC counts and one of a link that is
not aligned delivers nothing; SYSREF aligns an armed link, and is ignored and counted when short or too soon; its timeout raises
SYSREF_TIMEOUT; a fault makes the link's inputs missing; an eye point is programmed in the scan's order and its counts written; the
checker locks, counts and unlocks; injection starts and repeats only while the generator runs; CNT_CLR zeroes the lane's counters. -/
def Obligations.LaneTestRowsComplete : Prop :=
  ∀ (n : Nat) (s : State),
    let d := s.dev
    (∀ k j xs, d.jlink k = some j → j.lanes.contains n = true → d.laneSt n = LST_UP → j.aligned = false →
      exec (.jesdMultiblockReceived k n false xs) s =
        .next { s with dev := (d.cnt (LN_JESD_CRC n) 1).setJlink k (some j) }) ∧
    (∀ k j xs, d.jlink k = some j → j.lanes.contains n = true → d.laneSt n = LST_UP → j.subclass = 0 →
      let j1 := { j with aligned := true }
      exec (.jesdMultiblockReceived k n true xs) s = .next { s with
        dev := xs.foldl (fun (e : Dev) x => e.jesdPlace k j1 true (d.on FR_CTRL FR_CTRL_CPLX) xs x) (d.setJlink k (some j1)) }) ∧
    (∀ j, d.jlink n = some j → j.subclass ≠ 0 →
      (∀ cycles since, cycles < 2 ∨ (j.lastEdge.isSome = true ∧ since < 2112 * max j.e 1) →
        exec (.sysrefEdge n cycles since) s = .next { s with dev := j.lanes.foldl (fun (e : Dev) m => e.cnt (LN_SYSREF_IGN m) 1) d }) ∧
      (∀ cycles since, 2 ≤ cycles → (j.lastEdge = none ∨ 2112 * max j.e 1 ≤ since) →
        (j.armed.isSome = true →
          let d1 := d.setJlink n (some { j with armed := none, armJob := none, lastEdge := some d.now, aligned := true, phase := 0,
                                                misalign := false, fault := false })
          (j.armJob = none → exec (.sysrefEdge n cycles since) s = .next { s with dev := d1 }) ∧
          (∀ i, j.armJob = some i → exec (.sysrefEdge n cycles since) s = .next { s with dev := d1.endJob i .ok 0 })) ∧
        (j.armed = none → j.aligned = true → j.fault = false →
          ((j.phase + since) % (2112 * max j.e 1) = 0 ∨ j.cont = true →
            exec (.sysrefEdge n cycles since) s = .next { s with dev := d.setJlink n (some { j with lastEdge := some d.now, phase := 0 }) }) ∧
          ((j.phase + since) % (2112 * max j.e 1) ≠ 0 → j.cont = false →
            exec (.sysrefEdge n cycles since) s = .next { s with
              dev := d.setJlink n (some { j with lastEdge := some d.now, phase := (j.phase + since) % (2112 * max j.e 1), misalign := true }) })))) ∧
    (∀ j, d.jlink n = some j → j.armed.isSome = true →
      let d1 := (d.setJlink n (some { j with armed := none, armJob := none })).raise 0x0302 (j.lanes.headD 0xFF) 0 n
      (j.armJob = none → exec (.sysrefTimeout n) s = .next { s with dev := d1 }) ∧
      (∀ i, j.armJob = some i → exec (.sysrefTimeout n) s = .next { s with dev := d1.endJob i .timeout 0 })) ∧
    (∀ j, d.jlink n = some j → j.aligned = true →
      exec (.jesdLinkFault n) s = .next { s with dev := d.setJlink n (some { j with fault := true }) }) ∧
    (d.laneSt n = LST_UP → d.scanOf n = none → d.on (LN_EYE n) LN_EYE_EN = true →
      exec (.eyePointStart n) s = .next { s with dev := ((d.setF (LN_EYE n) LN_EYE_DONE 0).wrN (LN_EYE_ERR n) 0).wrN (LN_EYE_UI n) 0 }) ∧
    (∀ i h v, d.laneSt n = LST_UP → d.scanOf n = some i → (scanPoints (d.job i).params)[(d.job i).tally]? = some (h, v) →
      let w := (d.job i).params.getD 0 0
      let d1 := ((((d.setF (LN_EYE n) LN_EYE_EN 1).setF (LN_EYE n) LN_EYE_EYE (bits w 9 8)).setF (LN_EYE n) LN_EYE_H_OFF (wrapN 7 h)).setF
        (LN_EYE n) LN_EYE_V_OFF (wrapN 8 v)).setF (LN_EYE n) LN_EYE_DWELL (bits w 19 16)
      exec (.eyePointStart n) s = .next { s with dev := ((d1.setF (LN_EYE n) LN_EYE_DONE 0).wrN (LN_EYE_ERR n) 0).wrN (LN_EYE_UI n) 0 }) ∧
    (∀ errs ui, d.on (LN_EYE n) LN_EYE_EN = true → d.laneSt n = LST_UP →
      let d1 := (((d.wrN (LN_EYE_ERR n) errs).wrN (LN_EYE_UI n) ui).setF (LN_EYE n) LN_EYE_DONE 1).setF (LN_EYE n) LN_EYE_EN 0
      d1.scanOf n = none → exec (.eyePointDone n errs ui) s = .next { s with dev := d1 }) ∧
    (∀ i, d.laneSt n ≠ LST_UP → d.scanOf n = some i →
      exec (.eyeScanWaitTimeout n) s =
        .next { s with dev := (d.setF (LN_EYE n) LN_EYE_EN 0).endJob i .partialDone (d.job i).tally }) ∧
    (d.on (LN_PRBS n) LN_PRBS_CHK_EN = true →
      (d.on (LN_PRBS n) LN_PRBS_CHK_LOCK = false → ∀ b e, exec (.checkerLock n b e) s =
        .next { s with dev := d.setF (LN_PRBS n) LN_PRBS_CHK_LOCK 1 }) ∧
      (d.on (LN_PRBS n) LN_PRBS_CHK_LOCK = true → ∀ b e,
        let d1 := (d.cnt (LN_PRBS_BITS n) b).cnt (LN_PRBS_ERR n) e
        (64 ≤ e → b ≤ 1024 → exec (.checkerLock n b e) s = .next { s with dev := d1.setF (LN_PRBS n) LN_PRBS_CHK_LOCK 0 }) ∧
        (e < 64 ∨ 1024 < b → exec (.checkerLock n b e) s = .next { s with dev := d1 }))) ∧
    (let d1 := d.setF (LN_PRBS n) LN_PRBS_INJ_GO 0;
      (d.f (LN_PRBS n) LN_PRBS_INJ_MODE = 1 → d.on (LN_PRBS n) LN_PRBS_GEN_EN = true →
        exec (.injGo n) s = .next { s with dev := d1.emit .frame n [] }) ∧
      (d.f (LN_PRBS n) LN_PRBS_INJ_MODE = 2 → exec (.injGo n) s = .next { s with dev := d1.setLane n { d1.lane n with inj := 1 } })) ∧
    ((d.lane n).inj = 1 → d.f (LN_PRBS n) LN_PRBS_INJ_MODE = 2 → d.on (LN_PRBS n) LN_PRBS_GEN_EN = true →
      exec (.periodicInjection n) s = .next { s with dev := d.emit .frame n [] }) ∧
    (exec (.cntClr n) s = .next { s with dev := d.clearRegs (laneCounters n) })


/-- The front's own rows (chapter 3): the deadline of a group of samples marks what is missing and hands its samples to the detectors; a
block of 256 samples passes the delay lines once every input can read it; a spectrum of every input is made when its last sample is
there and its release follows at once without excision; an interval's results are reported and its sums begin again; an event closes
after its hold-off; a block of spectra is judged by its kurtosis and released; the front starts and stops at the samples it was told. -/
def Obligations.FrontRowsComplete : Prop :=
  ∀ (s : State),
    let d := s.dev
    let f := d.front
    (∀ i g x, d.frInput i = some x → f.conf = true → d.pastDeadline x (16 * g + 15) = true → tget (fun _ => 0) f.detAt i ≤ 16 * g →
      exec (.sampleDeadline i g) s = .next { s with
        dev := (f.groupsDue g i).foldl
          (fun (e : Dev) h =>
            let q := if e.front.groupMissing h i then e.front.markGroup h i 1 else e.front
            (List.range 16).foldl (fun (e : Dev) k => e.detectSample i (16 * h + k)) { e with front := q.markGroup h i 0 }) d }) ∧
    (∀ i ch n, (n + 1) * 2 ^ d.frK ≤ tget (fun _ => 0) f.detAt i → (d.frInput i).isSome = true →
      let o := tget (fun _ => (0, 0, 0, 0)) f.stat (frKey n i)
      exec (.detectorIntervalEnd 0 i ch n) s = .next { s with
        dev := { d with
          front := { f.pushResult 0 i 0 (n * 2 ^ d.frK) [isqrt o.1, o.2.1, o.2.2.1, o.2.2.2] with
            stat := tset (fun _ => (0, 0, 0, 0)) f.stat (frKey n i) (0, 0, 0, 0) } } }) ∧
    (∀ i ch n, (n + 1) * f.mP ≤ f.spn → (d.frInput i).isSome = true →
      let o := tget (fun _ => (0, 0)) f.power (frKey (n * 16384 + ch) i)
      exec (.detectorIntervalEnd 1 i ch n) s = .next { s with
        dev := { d with
          front := { f.pushResult 1 i ch (n * f.mP) [o.1, o.2] with
            power := tset (fun _ => (0, 0)) f.power (frKey (n * 16384 + ch) i) (0, 0) } } }) ∧
    (∀ i x a b, d.frInput i = some x → tget (fun _ => none) f.evt i = some (a, b) → b + 1 + f.evtHold ≤ tget (fun _ => 0) f.detAt i →
      d.on FR_DET FR_DET_BLANK_EN = false → f.events.length ≤ Config.eventRing → d.on FR_DET FR_DET_EVT_TRIG = false →
      exec (.envelopeEvent i) s = .next { s with
        dev := { d with front := { f with evt := tset (fun _ => none) f.evt i none, events := (i, a, b) :: f.events } } }) ∧
    (f.running = true → (f.inputs.zipIdx.all fun x => d.readable x.2 x.1 (f.knotAt + 255)) = true →
      (f.stopAt.any fun n => decide (n ≤ f.knotAt)) = false →
      let d1 := f.inputs.zipIdx.foldl (fun (e : Dev) x => e.knotInput x.2 x.1 f.knotAt) d
      exec .delayKnot s = .next { s with dev := { d1 with front := { d1.front with knotAt := f.knotAt + 256 } } }) ∧
    (f.running = true → f.spn * d.frHop + d.frP * d.frTaps / 2 ≤ f.knotAt →
      let d1 := d.gainSwap f.spn
      let d2 := d1.front.inputs.zipIdx.foldl (fun (e : Dev) x => e.frSpectrumInput x.2 x.1 f.spn) d1
      let lo := (f.spn + 1) * d.frHop - d.frP * d.frTaps / 2
      let d3 : Dev := { d2 with front := { d2.front with spn := f.spn + 1, y := d2.front.y.filter fun p => decide (lo ≤ p.1 / 2048) } }
      (d3.on FR_CTRL FR_CTRL_SK_EN = true → exec .frontSpectrum s = .next { s with dev := d3 }) ∧
      (d3.on FR_CTRL FR_CTRL_SK_EN = false → exec .frontSpectrum s = .next (frRelease { s with dev := d3 } f.spn))) ∧
    (f.running = true → d.on FR_CTRL FR_CTRL_SK_EN = true → f.mK ≠ 0 →
      let b := f.released / f.mK
      (b + 1) * f.mK ≤ f.spn →
      let d1 := (List.range f.inputs.length).foldl (fun (e : Dev) i => d.frOut.foldl (fun (e : Dev) c => e.skChannel b i c) e) d
      exec .kurtosisBlock s =
        .next (((List.range ((b + 1) * f.mK - f.released)).map (· + f.released)).foldl frRelease { s with dev := d1 })) ∧
    (∀ n, f.running = true → f.stopAt = some n → n ≤ f.knotAt →
      let e := ({ d with front := { f with running := false, stopAt := none } } : Dev).setF FR_CTRL FR_CTRL_EN 0
      (e.capFront = true → exec .frontStartReached s = .next { s with dev := e.capStop }) ∧
      (e.capFront = false → exec .frontStartReached s = .next { s with dev := e })) ∧
    (∀ n, f.running = false → f.startAt = some n → n ≤ d.outNow →
      let m := ceilDiv (n + d.frP * d.frTaps / 2) (max d.frHop 1)
      exec .frontStartReached s = .next { s with
        dev := ({ d with
          front := { f with running := true, startAt := none, knotAt := n, spn := m, released := m, y := [], held := [] } } : Dev).setF
          FR_CTRL FR_CTRL_EN 1 })

/-- The correlator's own rows (chapters 4 and 5): a batch closes at the end of its arrival window, or the run ends there (R29, R35, R171);
a staged course is counted and its lost bytes marked lost; a staged course is dispatched into its slot; a slot accumulates on every
working tile and the last one ends the course and begins the pause (R133, R146); contexts are released in mortar order and promoted into
their integration (R159 to R166); a closed dump is checked, reported and its jobs end (R168, R177); a reserve tile that fails its
self-test is retired (R147); strikes expire after 24 h (R411). -/
def Obligations.CorrelatorRowsComplete : Prop :=
  ∀ (s : State),
    let d := s.dev
    let r := d.run
    let p := r.par
    (∀ t, r.active = true → r.inSlot = none → p.s0 + (r.closed + 1) * p.t + p.w ≤ d.expSpn →
      (r.stopAt = some r.closed → exec (.batchClose t) s = .next { s with dev := d.cutOff.endRun r.closed }) ∧
      (r.stopAt ≠ some r.closed → exec (.batchClose t) s = .next (capBatch r.closed { s with dev := d.cutOff.openBatch r.closed t }))) ∧
    (r.active = true → r.closed ≠ 0 → r.staged < p.passes * p.courses →
      r.staged - r.dispatched < 0x2000000 / (p.k * (128 * groups p.n) * 256 * fmtW p.c8) →
      let rel := if r.staged / p.courses + 1 == p.passes then max r.released ((r.closed - 1) * p.t + 256 * (r.staged % p.courses + 1))
        else r.released
      exec (.stagingReadComplete [] []) s = .next { s with dev := { d with run := { r with staged := r.staged + 1, released := rel } } }) ∧
    (r.active = true → r.closed ≠ 0 → d.dispatchHeld = false → r.dispatched < p.passes * p.courses →
      (r.dispatched < r.staged → d.beamHolds (r.closed - 1) r.dispatched = false →
        let q := r.dispatched
        let r1 := r.countCourse (r.closed - 1) (q / p.courses) (q % p.courses) true
        let d1 : Dev := { d with run := { r1 with dispatched := q + 1, inSlot := some q, slot := 0, lateNoted := false } }
        exec .courseDispatch s = .next { s with
          dev := (((d1.setF XC_POS XC_POS_PASS (q / p.courses)).setF XC_POS XC_POS_COURSE (q % p.courses)).setF
            XC_POS XC_POS_SLOT 0).beamPush (r.closed - 1) q false }) ∧
      (r.staged ≤ r.dispatched → r.lateNoted = false →
        exec .courseDispatch s = .next { s with dev := ({ d with run := { r with lateNoted := true } } : Dev).cnt XC_STG_LATE 1 })) ∧
    (∀ q flips, r.inSlot = some q → (r.lastCourse (q % p.courses) && d.mortarFull) = false →
      let w := d.workTiles.foldl
        (fun (acc : Dev × List Saved) (pos, t, src) =>
          let x := acc.1.tileSlot pos t src r.slot (q / p.courses) (q % p.courses) [] ((flips.filter fun f => f.1 == t).map (·.2))
          (x.1, match x.2 with | some s => acc.2 ++ [s] | none => acc.2)) (d, [])
      let a := w.1.auditSave w.2
      let d1 : Dev := { a.1 with run := { a.1.run with mortar := a.1.run.mortar ++ a.2 } }
      let d2 := d1.ctxEcc r.slot [] []
      r.slot + 1 < passSlots p (q / p.courses) →
      exec (.itemSlot [] [] flips) s = .next { s with
        dev := ({ d2 with run := { d2.run with slot := r.slot + 1 } } : Dev).setF XC_POS XC_POS_SLOT (r.slot + 1) }) ∧
    (exec .pauseCyclesEnd s = .next { s with dev := { d with run := { r with pause := 0 } } }) ∧
    (∀ pos slot x, r.relItems[r.relDone]? = some (pos, slot) →
      let hit := fun (x : Saved) => x.batch == r.relBatch && x.chunk == r.relChunk && x.pass == r.relPass && x.pos == pos && x.slot == slot
      r.mortar.find? hit = some x →
      exec .mortarRelease s = .next { s with
        dev := { d with
          run := ({ r with mortar := r.mortar.filter (fun y => !hit y), promq := r.promq ++ [x], relDone := r.relDone + 1 } : Run).relAdvance } }) ∧
    (∀ x rest g, r.promq = x :: rest → r.integOf x.batch = some g → x.chunk ≠ 0 → x.batch + 1 ≠ g.stop →
      bit x.ctx.item 30 = false → bit x.ctx.item 31 = false →
      let r1 := ({ r with promq := rest } : Run).promoteCtx x false false (g.id % ndb r.nint)
      let s1 := servePeeks { s with dev := ({ d with run := r1 } : Dev).cnt AC_CHUNKS 1 }
      exec .chunkPromote s = .next { s1 with dev := s1.dev.persCollect }) ∧
    (∀ u, d.on AC_CTRL AC_CTRL_EN = true → (r.dumps.find? fun u => !u.started) = some u → r.acctBad u = false →
      (((List.range u.par.nch).map fun ch => r.weightFails u ch).foldl (· + ·) 0) = 0 →
      let u1 := { u with acctFail := false, started := true, digest := some (r.dumpDigest { u with acctFail := false }) }
      let fl := (List.range u.par.nch).map fun ch => r.chFlags u ch
      let sum := fun b => (fl.map fun x => x.getD b 0).foldl (· + ·) 0
      let d1 : Dev := { d with run := { r with dumps := r.dumps.map fun w => if w = u then u1 else w } }
      exec .dumpStart s = .next { s with
        dev := (((d1.cnt AC_POISONED (sum 0)).cnt AC_SCORCHED (sum 1)).cnt AC_INEXACT (sum 3)).setF AC_CTRL AC_CTRL_DUMP_BUSY 1 }) ∧
    (∀ u, r.dumps.find? Dump.finished = some u →
      let dg := u.digest.getD (r.dumpDigest u)
      let left := r.dumps.filter (· ≠ u)
      let tot := r.dumpTotals u
      let d1 := ({ d with run := { r with dumps := left, digests := ((u.id, dg) :: r.digests).take 16,
                                          lastDump := some (u.id, dg, tot.1, tot.2) } } : Dev).countAvail u
      let stop := u.par.s0 + u.stop * u.par.t
      let d2 := (((d1.cnt AC_DUMPS 1).wrN AC_DIGEST dg).wrN AC_BARRIER stop).setF AC_CTRL AC_CTRL_DUMP_BUSY (b2n (left.any fun w => w.started))
      exec .dumpComplete s = .next (u.jobs.foldl (fun s j => jobResult j .ok (lohi stop) s) { s with dev := d2 })) ∧
    (∀ t, (r.audit.map (·.2)) ≠ some t → d.tileRole t = 1 → t < 68 →
      let rest := r.tested.filter (· != t)
      (let e := d.noteTest 2 t 0;
        exec (.reserveTileSelftest t true) s = .next { s with dev := { e with run := { e.run with tested := t :: rest } } }) ∧
      (let e := d.noteTest 2 t 1;
        exec (.reserveTileSelftest t false) s = .next { s with
          dev := (({ e with run := { e.run with tested := rest } } : Dev).raise 0x000D t 0 0).retireTile t })) ∧
    (∀ t, exec (.strikeExpiry t) s = .next { s with
      dev := { d with
        run := { r with strikes := r.strikes.filter fun q => !(q.1 == t && decide (q.2 + 86400 * 10 ^ 9 ≤ d.now)) } } })


/-- Beam, capture and memory-control rows (chapters 6 and 7): firmware and an owning core set READY and request a swap, others are logged
(R189, R190); a course queued for the beams is formed from memory and may close an old table (R185, R191 to R201); an accepted trigger edge
is stamped and starts a trigger, and one that is short, too soon or of the other polarity is counted (R232); an overdue capture request is
dropped and marked (R229); the command slot of a unit issues the best request of its window or ages the rest (R212 to R215); a refresh
clears the activations of its rows (R216, R217); a retraining pause waits for urgent requests, at most 10 ms (R219); a parity alert replays
what was in flight and fails the channel at the third replay (R220, R221). -/
def Obligations.StoreRowsComplete : Prop :=
  ∀ (s : State),
    let d := s.dev
    (∀ who, d.beamOpen who = true → exec (.ready who) s = .next { s with dev := d.setF BM_WCTRL BM_WCTRL_READY 1 }) ∧
    (∀ who, d.beamOpen who = false → exec (.ready who) s = .next { s with dev := d.raise 0x0601 0xFF BM_WCTRL who }) ∧
    (∀ who, d.beamOpen who = true → d.rdN BM_WSPN % 256 ≠ 0 → exec (.swap who) s = .next { s with dev := d.swapResult 5 }) ∧
    (∀ who, d.beamOpen who = true → d.rdN BM_WSPN % 256 = 0 → d.run.active = false → d.on BM_WCTRL BM_WCTRL_OLD_BUSY = false →
      let sw := d.rdN BM_WSPN
      let d1 := ((({ d with beam := { d.beam with swapAt := some sw } } : Dev).setF BM_WCTRL BM_WCTRL_PEND 1).setF BM_WCTRL
        BM_WCTRL_SWAP 1).swapResult 1
      (d.on BM_WCTRL BM_WCTRL_READY = true → exec (.swap who) s = .next { s with dev := d1.swapDone sw }) ∧
      (d.on BM_WCTRL BM_WCTRL_READY = false → exec (.swap who) s = .next { s with dev := d1 })) ∧
    (∀ x rest, d.beam.queue = x :: rest → x.cut = false → d.run.inSlot = none →
      let d1 := ({ d with beam := { d.beam with queue := rest } } : Dev).swapDecide (d.courseSpn x)
      exec .beamChannelCourse s = .next { s with dev := (d1.beamCourse s.mem x).oldDone x }) ∧
    (∀ x rest, d.beam.queue = x :: rest → x.cut = true →
      let d1 := ({ d with beam := { d.beam with queue := rest } } : Dev).swapDecide (d.courseSpn x)
      exec .beamChannelCourse s = .next { s with dev := (d1.beamCut x).oldDone x }) ∧
    (∀ pin rising hold, pin < 4 → bit (d.f CAP_CTRL CAP_CTRL_PIN_EN) pin = true → bit (d.f CAP_CTRL CAP_CTRL_SRC_EN) 0 = true →
      let ignored := rising == bit (d.f CAP_TRIG CAP_TRIG_POL) pin || hold < clampN 1 100000 (d.f CAP_TRIG CAP_TRIG_MPW) * 10 ||
        (d.trigPin pin).1.any fun t => decide (d.now < t + clampN 1 (10 ^ 7) (d.f CAP_TRIG CAP_TRIG_MIN_INT) * 1000)
      (ignored = true → exec (.trigInEdge pin rising hold) s = .next { s with dev := d.cntF TRIG_ACC HI32 1 }) ∧
      (ignored = false →
        let d1 := { d with cap := { d.cap with pins := tset (fun _ => (none, false)) d.cap.pins pin (some d.now, false) } }
        exec (.trigInEdge pin rising hold) s = .next { s with dev := (d1.trigger 1 0 d1.spnNow 0xFFFFFFFF 0xFFFFFFFF 0 []).1 })) ∧
    (∀ pin, pin < 4 → bit (d.f CAP_CTRL CAP_CTRL_PIN_EN) pin = true → d.f CAP_TRIG CAP_TRIG_PIN_TIMEOUT ≠ 0 → (d.trigPin pin).2 = false →
      let d1 : Dev := { d with cap := { d.cap with pins := tset (fun _ => (none, false)) d.cap.pins pin ((d.trigPin pin).1, true) } }
      exec (.trigTimeout pin) s = .next { s with dev := d1.raise 0x0703 pin 0 pin }) ∧
    (∀ seg off len x, d.capWriting = true → tget (fun _ => none) d.cap.segs seg = some x → x.complete = false →
      let x1 := { x with flags := x.flags ||| 16, drops := (off, len) :: x.drops }
      let d1 : Dev := { d with cap := { d.cap with segs := tset (fun _ => none) d.cap.segs seg (some x1) } }
      exec (.capDrop seg off len) s = .next { s with dev := d1.cnt CAP_DROP 1 }) ∧
    (∀ u dt arr, u < 136 → (chanUnits (unitChan u)).contains u = true → d.f (MC_CHSTAT (unitChan u)) MC_CHSTAT_STATE = 1 →
      let x := d.munit u
      let q0 := x.queue.map (fun q => { q with age := q.age + dt }) ++
        (arr.filter fun a => 1 ≤ a.1 && a.1 ≤ 9).map fun (p, b, r, w) => { port := p, bank := b, row := r, write := w, age := 0 }
      let cand := freeReqs [] (if u < 128 then slotted 24 16 q0 else slotted 128 80 q0)
      (d.bestReq cand = none → exec (.commandSlot u dt arr) s = .next { s with dev := (d.setMunit u { x with queue := q0 }).syncUrg }) ∧
      (∀ b, d.bestReq cand = some b → d.urgency b ≠ 0 →
        let d2 := (d.setMunit u { x with queue := q0.erase b }).issue u b
        (b.age < d.target b.port → exec (.commandSlot u dt arr) s = .next { s with dev := d2.syncUrg }) ∧
        (d.target b.port ≤ b.age →
          exec (.commandSlot u dt arr) s = .next { s with dev := (d2.cntF (MC_QOS (b.port - 1)) MC_QOS_LAT_MISS 1).syncUrg }))) ∧
    (∀ u rows, u < 136 →
      let x := d.munit u
      (∀ lim, d.urgent u false = false ∨ lim = true → exec (.refresh u lim rows) s = .next { s with
        dev := d.setMunit u { x with postponed := 0, acts := x.acts.filter (fun a => !rows.contains (a.1, a.2.1)),
                                     openRow := x.openRow.filter fun p => !(rows.map (·.1)).contains p.1 } }) ∧
      (d.urgent u false = true →
        exec (.refresh u false rows) s = .next { s with dev := d.setMunit u { x with postponed := x.postponed + 1 } })) ∧
    (∀ c, c < 72 → d.f (MC_CHSTAT c) MC_CHSTAT_STATE = 1 →
      (((chanUnits c).any fun u => d.urgent u true) = false → exec (.retrainPause c) s = .next { s with dev := d.retrain c }) ∧
      (((chanUnits c).any fun u => d.urgent u true) = true → exec (.retrainPause c) s = .next { s with
        dev := d.setMchan c { d.mchan c with dueAt := some ((d.mchan c).dueAt.getD d.now) } })) ∧
    (∀ c t, c < 72 → (d.mchan c).dueAt = some t → exec (.retrainForced c) s = .next { s with dev := (d.retrain c).cntF MC_RETRAIN HI32 1 }) ∧
    (∀ c, c < 72 → d.f (MC_CHSTAT c) MC_CHSTAT_STATE ≠ 3 →
      let x := d.mchan c
      let d1 := (chanUnits c).foldl (fun (e : Dev) u => e.setMunit u { e.munit u with openRow := [] }) d
      let d2 := ((x.retry.drop (x.retry.length - x.latency)).foldl (fun (e : Dev) (u, q) => e.activate u q.bank q.row) d1).cntF MC_REPLAYS LO32 1
      exec (.parityAlert c false) s = .next { s with dev := d2.setF (MC_CHSTAT c) MC_CHSTAT_FAILED_REPLAYS 0 } ∧
      (let n := d.f (MC_CHSTAT c) MC_CHSTAT_FAILED_REPLAYS + 1;
        let d3 := (d2.cntF MC_REPLAYS HI32 1).setF (MC_CHSTAT c) MC_CHSTAT_FAILED_REPLAYS (min n 3)
        (3 ≤ n → exec (.parityAlert c true) s = .next { s with dev := d3.chanFailed c }) ∧
        (n < 3 → exec (.parityAlert c true) s = .next { s with dev := d3 })))

/-- Accesses through the matrix and the DMA rows (chapter 11): a burst of at most 8 beats within 4 KiB that its target grants is
executed and answered, aged requests first and oldest first, then by PRIO, then in turn, and one not granted waits; any other burst
is answered with an error and nothing done (R340 to R343); a register write is answered as R18 and R21 say; REMAP is open to
logical core 0 and a debugger (R344); START, RESUME and ABORT act for firmware and the channel's owner (R347, R354 to R356); a descriptor is read,
counted and checked (R348), copied and read back (R349 to R351), and the tail's end is checked again (R353). -/
def Obligations.MatrixRowsComplete : Prop :=
  ∀ (s : State),
    let d := s.dev
    (∀ m w others a n bytes lanes ecc, m < 12 → n ≤ 512 → (n = 0 ∨ a / 4096 = (a + n - 1) / 4096) →
      d.xbGrants (d.xbTarget m a) m w others = true →
      let s0 := { s with dev := d.xbGrant (d.xbTarget m a) m w, mem := s.mem.upset ecc }
      exec (.matrixAccess m w others false a n bytes lanes ecc) s = .next ((busRead m a n s0).2.answer (busRead m a n s0).1)) ∧
    (∀ m w others a len bytes lanes ecc, m < 12 → bytes.length ≤ 512 →
      (bytes.length = 0 ∨ a / 4096 = (a + bytes.length - 1) / 4096) → d.xbGrants (d.xbTarget m a) m w others = true →
      let s0 := { s with dev := d.xbGrant (d.xbTarget m a) m w, mem := s.mem.upset ecc }
      exec (.matrixAccess m w others true a len bytes lanes ecc) s =
        .next ((busWrite m a bytes lanes s0).2.answer (wrRsp (busWrite m a bytes lanes s0).1))) ∧
    (∀ m w others a n bytes lanes ecc, m < 12 → 512 < n ∨ (n ≠ 0 ∧ a / 4096 ≠ (a + n - 1) / 4096) →
      exec (.matrixAccess m w others false a n bytes lanes ecc) s = .next (s.answer (errRsp n))) ∧
    (∀ m w others a n bytes lanes ecc, m < 12 → n ≤ 512 → (n = 0 ∨ a / 4096 = (a + n - 1) / 4096) →
      d.xbGrants (d.xbTarget m a) m w others = false → exec (.matrixAccess m w others false a n bytes lanes ecc) s = .next s) ∧
    (∀ t m w, d.xbGrants t m w [] = true) ∧
    (∀ t m w o ow, m < 12 → o < 12 → m ≠ o →
      let age := min 4096 (max 16 (d.f XB_CTRL XB_CTRL_AGE))
      let prio := fun k => bits (d.rdN (XB_PRIO k)) (4 * t + 3) (4 * t)
      (age ≤ w → ow < w → d.goesBefore t m w o ow = true ∧ d.goesBefore t o ow m w = false) ∧
      (w < age → ow < age → prio o < prio m → d.goesBefore t m w o ow = true ∧ d.goesBefore t o ow m w = false) ∧
      (tget (fun _ => none) d.xbLast t = some o → w < age → ow < age → prio o = prio m → d.goesBefore t m w o ow = true)) ∧
    (∀ who a n v, exec (.registerWrite who a n v) s = .next ((regWrite who a n v s).2.answer (wrRsp (regWrite who a n v s).1))) ∧
    (∀ a, exec (.wordLatchRead a) s = .next ((regAccess a 4 s).2.answer (regAccess a 4 s).1)) ∧
    (∀ who, who = 0 ∨ (who = 11 ∧ d.f SC_DBG SC_DBG_LEVEL = 0 ∧ d.f (CR_STAT (d.physOf 0)) CR_STAT_STATE = 2) →
      exec (.remap who) s = .next { s with dev := d.setF SC_REMAP SC_REMAP_REMAP 1 }) ∧
    (∀ who, who ≠ 0 → (who = 11 → d.f SC_DBG SC_DBG_LEVEL ≠ 0 ∨ d.f (CR_STAT (d.physOf 0)) CR_STAT_STATE ≠ 2) →
      exec (.remap who) s = .next { s with dev := d.raise 0x0003 0xFF SC_REMAP who }) ∧
    (∀ n who, n < 16 → (who = 0 ∨ (who = 1 ∨ who = 2) ∧ d.f (DC_CTRL n) DC_CTRL_OWNER = who) →
      (d.chState n ≠ DMA_RUNNING → exec (.dmaStart n who) s = .next { s with
        dev := (((((d.setCh n {}).wrN (DC_CUR n) (d.rdN (DC_HEAD n) / 32 * 32)).wrN (DC_CNT n) 0).wrN (DC_BYTES n) 0).setF (DC_STAT n)
          DC_STAT_ERR 0).setF (DC_STAT n) DC_STAT_STATE DMA_RUNNING }) ∧
      (d.chState n = DMA_RUNNING → exec (.dmaStart n who) s = .next { s with dev := d.raise 0x0803 n (DC_CTRL n) 0 }) ∧
      ((d.ch n).endCheck = true → exec (.resume n who) s = .next { s with dev := d.setCh n { d.ch n with heldResume := true } }) ∧
      ((d.ch n).endCheck = false → d.chState n ≠ DMA_AT_END → exec (.resume n who) s = .next { s with dev := d.cntF (DC_RES n) LO32 1 }) ∧
      ((d.ch n).endCheck = false → d.chState n = DMA_AT_END → ∀ w, (reread n s).1 = some w → bit w 48 = false →
        let t := (reread n s).2
        exec (.resume n who) s = .next { t with
          dev := ((t.dev.setCh n {}).wrN (DC_CUR n) (w % 2 ^ 48)).setF (DC_STAT n) DC_STAT_STATE DMA_RUNNING }) ∧
      (d.chState n = DMA_RUNNING → (d.ch n).copying = false → ∀ moved, exec (.abort n who moved) s = .next { s with dev := d.dmaStop n 7 }) ∧
      (d.chState n = DMA_RUNNING → (d.ch n).copying = true → ∀ moved,
        let t := (dmaCopy n moved s).2.2
        exec (.abort n who moved) s = .next { t with dev := t.dev.dmaFail n 7 })) ∧
    (∀ n who, n < 16 → who ≠ 0 → who ≠ 1 → who ≠ 2 →
      exec (.dmaStart n who) s = .next { s with dev := d.raise 0x0802 n (DC_CTRL n) who }) ∧
    (∀ n, n < 16 → d.chState n = DMA_RUNNING → (d.ch n).copying = false → (d.ch n).endCheck = false →
      let r := busRead (dmaPort n) (d.rdN (DC_CUR n)) 32 s
      let s1 := { r.2 with dev := r.2.dev.setF (DC_CNT n) LO32 ((r.2.dev.f (DC_CNT n) LO32 + 1) % 2 ^ 32) }
      (r.1.kind ≠ .ok ∨ r.1.poison = true → exec (.descriptorFetch n) s = .next { s1 with dev := s1.dev.dmaFail n 1 }) ∧
      (r.1.kind = .ok → r.1.poison = false →
        let b := r.1.data
        let c := at' b 20 4
        let y : DmaCh := { src := at' b 0 6, dst := at' b 8 6, len := at' b 16 4, irq := bit c 0, srcSg := bit c 1, dstSg := bit c 2,
                           tag := bits c 15 8, nxt := at' b 24 6, fin := bit (at' b 30 2) 0, copying := true }
        at' b 6 2 = 0 → at' b 14 2 = 0 → bits c 7 3 = 0 → bits c 31 16 = 0 → at' b 30 2 / 2 = 0 → (y.fin = true ∨ y.nxt % 32 = 0) →
        y.srcSg = false → y.dstSg = false →
        exec (.descriptorFetch n) s = .next { s1 with dev := s1.dev.setCh n y })) ∧
    (∀ n, n < 16 → d.chState n = DMA_RUNNING → (d.ch n).copying = true →
      let x := d.ch n
      let c := dmaCopy n x.len s
      (c.2.1 ≠ 0 → exec (.descriptorComplete n) s = .next { c.2.2 with dev := c.2.2.dev.dmaFail n c.2.1 }) ∧
      (c.2.1 = 0 → (readBack n c.1 c.2.2).1 = true →
        let t := (readBack n c.1 c.2.2).2
        let e := (t.dev.dmaCounted n x.tag).setCh n { x with copying := false, endCheck := x.fin }
        (x.fin = true → exec (.descriptorComplete n) s = .next { t with dev := e.dmaEoc n }) ∧
        (x.fin = false → x.irq = true → exec (.descriptorComplete n) s = .next { t with dev := (e.wrN (DC_CUR n) x.nxt).dmaEoc n }) ∧
        (x.fin = false → x.irq = false → exec (.descriptorComplete n) s = .next { t with dev := e.wrN (DC_CUR n) x.nxt }))) ∧
    (∀ n w, n < 16 → (d.ch n).endCheck = true → (d.ch n).heldResume = false → (reread n s).1 = some w →
      let t := (reread n s).2
      let e := t.dev.setCh n {}
      (bit w 48 = true → exec (.endCheck n) s = .next { t with dev := e.setF (DC_STAT n) DC_STAT_STATE DMA_AT_END }) ∧
      (bit w 48 = false → exec (.endCheck n) s = .next { t with dev := (e.wrN (DC_CUR n) (w % 2 ^ 48)).cntF (DC_RES n) HI32 1 }))


/-- Chapter 13's own rows: a scrub reads the granule at its position, writes a corrected one back and moves on, a pass counting at the end
of the class (R389 to R391); a hard row is spared from its unit's spares or becomes UNSPARABLE (R387, R388); the oldest error is taken,
logged and popped, and ER_CMD clears the first-error and lost records (R395 to R397); a check-value unit starts, takes feeds of 8, 16
and 32 bits, absorbs them in order and is drained by a read of its result (R398, R399). -/
def Obligations.IntegrityRowsComplete : Prop :=
  ∀ (s : State),
    let d := s.dev
    (∀ k err, k ≤ 6 → d.on (EC_CTRL k) EC_CTRL_SCRUB_EN = true → (d.classSize k).1 ≠ 0 →
      let off := bits (d.rdN (EC_POS k)) 47 0
      let n := bits (d.rdN (EC_POS k)) 63 48
      let s1 := scrubOne k (classAddr k off) err s
      (off + (d.classSize k).2 < (d.classSize k).1 → exec (.patrolScrub k err) s =
        .next { s1 with dev := s1.dev.wrN (EC_POS k) (off + (d.classSize k).2 + n * 2 ^ 48) }) ∧
      ((d.classSize k).1 ≤ off + (d.classSize k).2 → exec (.patrolScrub k err) s = .next { s1 with
        dev := { s1.dev.wrN (EC_POS k) ((n + 1) % 2 ^ 16 * 2 ^ 48) with
          scrub := { s1.dev.scrub with start := tset (fun _ => 0) s1.dev.scrub.start k s1.dev.now,
                                       late := if bit s1.dev.scrub.late k then s1.dev.scrub.late - 2 ^ k else s1.dev.scrub.late } } })) ∧
    (∀ k e err, k ≤ 6 → k < 5 ∨ d.dead (d.ecEntry k e).addr = false → e < 32 → d.on (EC_CTRL k) EC_CTRL_TARGETED = true → (d.ecEntry k e).state = EC_LOGGED →
      let s1 := scrubOne k (d.ecEntry k e).addr err s
      exec (.targetedScrub k e err) s = .next { s1 with dev := s1.dev.ecRewritten k (d.ecEntry k e).addr }) ∧
    (∀ k, k ≤ 6 → d.on (EC_CTRL k) EC_CTRL_SCRUB_EN = true → bit d.scrub.late k = false →
      tget (fun _ => 0) d.scrub.start k + 2 * clampN 1 604800 (d.f (EC_CTRL k) EC_CTRL_PERIOD_S) * 10 ^ 9 ≤ d.now →
      exec (.scrubLate k) s = .next { s with
        dev := ({ d with scrub := { d.scrub with late := d.scrub.late ||| 2 ^ k } } : Dev).raise 0x0B06 k 0 0 }) ∧
    (∀ k e b, k ≤ 6 → e < 32 → (d.ecEntry k e).state = EC_HARD →
      let x := d.ecEntry k e
      let used := d.ret.spare.repairs.countP fun r => r.1 == k && spareUnit k r.2 == spareUnit k x.addr
      ((if k < 5 then spareRows k ≤ used else b = false) → exec (.spared k e b) s = .next { s with
        dev := (d.setEc k e { x with state := EC_UNSPARABLE }).raiseEc 0x0B04 k x.addr EC_UNSPARABLE }) ∧
      ((if k < 5 then used < spareRows k else b = true) →
        let left := d.f (EC_CTRL k) EC_CTRL_SPARES_LEFT
        let d1 := if left = 0xFFFF ∨ left = 0 then d else d.setF (EC_CTRL k) EC_CTRL_SPARES_LEFT (left - 1)
        let d2 := { d1 with ret := { d1.ret with spare := { d1.ret.spare with repairs := d1.ret.spare.repairs ++ [(k, x.addr)] } } }
        let d3 := ((d2.setEc k e { x with state := EC_SPARED }).raiseEc 0x0B03 k x.addr EC_SPARED).wantCommit .spare none
        exec (.spared k e b) s = .next { s with dev := if left = 1 then d3.raise 0x0A0A k 0 0 else d3 })) ∧
    (∀ e rest, d.errq = e :: rest → d.scrub.taken = false →
      let log := d.ret.errLog ++ [e]
      exec .errorHandling s = .next { s with
        dev := { d with ret := { d.ret with errLog := log.drop (log.length - 512) }, scrub := { d.scrub with taken := true } } }) ∧
    (exec .pop s = .next { s with dev := ({ d with errq := d.errq.tail, scrub := { d.scrub with taken := false } } : Dev).syncHead }) ∧
    (exec .clrFirst s = .next { s with
      dev := ((d.clearRegs ((List.range 4).map ER_FIRST)).setF ER_STAT ER_STAT_FIRST_VALID 0).setF ER_STAT ER_STAT_LATER 0 }) ∧
    (exec .clrLost s = .next { s with dev := (d.setF ER_STAT ER_STAT_LOST 0).setF ER_STAT ER_STAT_LOST_CNT 0 }) ∧
    (∀ u who, u < 8 → d.cvOpen u who = true →
      (let e := d.cvDrain u;
        exec (.cvStart u who) s = .next { s with
          dev := e.setCv u { e.cv u with reg := d.rdN (CV_INIT u) % 2 ^ d.cvWidth u, first := true } }) ∧
      (∀ v,
        let e := if 16 ≤ (d.cv u).queue.length then d.cvAbsorb u else d
        exec (.cvFeedB u who v) s = .next { s with dev := e.setCv u { e.cv u with queue := (e.cv u).queue ++ [.b (v % 2 ^ 8)] } } ∧
        exec (.cvFeedH u who v) s = .next { s with dev := e.setCv u { e.cv u with queue := (e.cv u).queue ++ [.h (v % 2 ^ 16)] } } ∧
        exec (.cvFeedW u who v) s = .next { s with dev := e.setCv u { e.cv u with queue := (e.cv u).queue ++ [.w (v % 2 ^ 32)] } }) ∧
      (∀ r, d.f (CV_CFG u) CV_CFG_ALIVE = 2 →
        let e := (d.cvFeed u (.b (r % 256))).setF (CV_ALIVE u) CV_ALIVE_LAST (r % 256)
        let df := serialDiff (r % 256) (d.f (CV_ALIVE u) CV_ALIVE_COUNT) 8
        ((e.cv u).first = true → exec (.cvAliveGo u who r) s = .next { s with
          dev := (e.setCv u { e.cv u with first := false }).setF (CV_ALIVE u) CV_ALIVE_COUNT (r % 256) }) ∧
        ((e.cv u).first = false → df = 1 → exec (.cvAliveGo u who r) s = .next { s with
          dev := e.setF (CV_ALIVE u) CV_ALIVE_COUNT (r % 256) }) ∧
        ((e.cv u).first = false → 1 < df → exec (.cvAliveGo u who r) s = .next { s with
          dev := ((e.setF (CV_ALIVE u) CV_ALIVE_COUNT (r % 256)).setF (CV_CFG u) CV_CFG_GAP 1).cntF (CV_CNT u) HI32 (df - 1).toNat }) ∧
        ((e.cv u).first = false → df ≤ 0 → exec (.cvAliveGo u who r) s = .next { s with
          dev := (e.setF (CV_CFG u) CV_CFG_REPEAT 1).cntF (CV_CNT u) LO32 1 })) ∧
      (∀ r, d.f (CV_CFG u) CV_CFG_ALIVE = 1 →
        let n := d.f (CV_ALIVE u) CV_ALIVE_COUNT
        exec (.cvAliveGo u who r) s = .next { s with dev := (d.cvFeed u (.b n)).setF (CV_ALIVE u) CV_ALIVE_COUNT ((n + 1) % 256) })) ∧
    (∀ u who v, u < 8 → d.cvOpen u who = false →
      exec (.cvFeedB u who v) s = .next { s with dev := d.regDrop (CV_FEED_B_R u) who }) ∧
    (∀ u q rest, (d.cv u).queue = q :: rest →
      let w := d.cvWidth u
      exec (.feedAbsorb u) s = .next { s with
        dev := d.setCv u { d.cv u with
          reg := q.bytes.foldl (crcByte w (d.rdN (CV_POLY u) % 2 ^ w) (d.on (CV_CFG u) CV_CFG_REFIN)) ((d.cv u).reg % 2 ^ w),
          queue := rest } }) ∧
    (∀ u,
      let e := d.cvDrain u
      exec (.cvResultRead u) s = .next { s with
        dev := { e with host := { e.host with rsp := { kind := .ok, data := leBytes 8 (e.cvResult u) } } } })

/-- Rows of the Rhaex cores' surroundings (R306, R310, R327 to R329, R333 to R335, R513): an enabled pending line is taken at its level,
saving PC and SR and going to its vector; a breakpoint halts the core before the instruction; a window write's error sets WERR and raises
line 18; the watchdog halts the core and records it, and that of logical core 0 makes a reset due; the timer raises line 17; firmware's
commands start, halt and reset a core, and its writes kick the watchdog and set a software line; a reserve that fails its test retires. -/
def Obligations.CoreRowsComplete : Prop :=
  ∀ (c : Nat) (s : State), c < 4 →
    let d := s.dev
    (∀ l, d.bestLine c = some (l, 1) → d.canTake c = true → d.coreCs c = false → d.ipl c < 2 →
      exec (.level1Interrupt c) s = .next { s with dev := d.intEntry c l RC_SPC RC_SSR 2 true }) ∧
    (∀ l, d.bestLine c = some (l, 2) → d.canTake c = true → d.ipl c = 0 →
      exec (.level2Interrupt c) s = .next { s with dev := d.intEntry c l RC_IPC2 RC_ISR2 1 false }) ∧
    (d.coreReady c = true → (d.core c).skipBp = false → d.breakAt c (d.core c).ctx.pc = true → (d.core c).ctx.boundary = true →
      exec (.breakpoint c) s = .next { s with dev := d.coreHalt c 2 }) ∧
    ((d.core c).werr ≠ 0 → exec (.windowWriteError c) s = .next { s with
      dev := (((d.setCore c { d.core c with werr := (d.core c).werr - 1 }).setF (CR_STAT c) CR_STAT_WERR 1).lineOn c 18).raise
        0x0F03 c 0 0 }) ∧
    (d.on (CR_CTRL c) CR_CTRL_WDOG_EN = true → (d.core c).qhalt = 0 → d.coreState c = CORE_RUN →
      (d.core c).wdogAt + d.wdogMs c * 10 ^ 6 ≤ d.now →
      let d1 := ((d.coreHalt c 5).setF (CR_STAT c) CR_STAT_WDOG_EXP 1).raise 0x0F04 c 0 0
      (d.logicalOf c ≠ 0 → exec (.watchdogExpiry c) s = .next { s with dev := d1 }) ∧
      (d.logicalOf c = 0 →
        let d2 := (d1.setF SC_WDOG SC_WDOG_PENDING 1).setF INT_CAUSE INT_CAUSE_WDOG 1
        exec (.watchdogExpiry c) s = .next { s with
          dev := ({ d2 with pwr := { d2.pwr with wdogDue := some d.now } } : Dev).cause 4 })) ∧
    (bit (d.rdN (CR_TCMP c)) 63 = true → d.rdN (CR_TCMP c) % 2 ^ 48 = d.crTimer c →
      exec (.timerCompare c) s = .next { s with dev := d.lineOn c 17 }) ∧
    (∀ r, regRow (CR_CTRL c) = some r →
      let e := fun (k : Nat) => d.wrN (CR_CTRL c) (plainWrite r (d.rdN (CR_CTRL c)) (2 ^ 32 - 1) ((d.rdN (CR_CTRL c) / 4 * 4 + k) % 2 ^ 32))
      exec (.cmdStart c 0) s = .next { s with dev := (e 1).coreStart c } ∧
      exec (.cmdHalt c 0) s = .next { s with dev := (e 2).coreStop c 5 } ∧
      exec (.cmdReset c 0) s = .next { s with dev := (e 3).coreClear c }) ∧
    (∀ r, regRow (CR_WDOG c) = some r →
      let e := d.wrN (CR_WDOG c) (plainWrite r (d.rdN (CR_WDOG c)) (2 ^ 32 - 1) (d.rdN (CR_WDOG c) % 2 ^ 31 + 2 ^ 31))
      exec (.kick c 0) s = .next { s with dev := e.setCore c { e.core c with wdogAt := e.now } }) ∧
    (∀ l r, 40 ≤ l → l < 48 → regRow (CR_INT c l) = some r →
      let e := d.wrN (CR_INT c l) (plainWrite r (d.rdN (CR_INT c l)) (2 ^ 32 - 1) (d.rdN (CR_INT c l) % 4 + 8))
      exec (.swset c l 0) s = .next { s with dev := (e.setF (CR_INT c l) CR_INT_SWSET 0).lineOn c l }) ∧
    (d.coreState (d.physOf 3) ≠ CORE_RUN → d.coreState (d.physOf 3) ≠ CORE_RETIRED →
      let s1 := coreTested 3 s
      exec (.reserveCoreSelftest true) s = .next { s1 with dev := s1.dev.noteTest 1 3 0 } ∧
      exec (.reserveCoreSelftest false) s = .next { s1 with dev := (s1.dev.noteTest 1 3 1).retireReserve })


/-- Control words and branches of the Rhaex cores (R321 to R330, Tables 10.7 and 10.9): when the row's instruction is the next one and is
fetched without a trap, it completes: returns and branches go to their target behind two delay slots, calls store the return address
first, DO pushes a loop, REP repeats, WAIT waits and SYNC lets the posted writes end; TRAP and an illegal instruction take vectors 5
and 1. -/
def Obligations.RhaexControlComplete : Prop :=
  ∀ (c : Nat) (s s1 : State),
    let cs := s1.dev.coreCs c
    let x := s1.core c
    let dest := fun (a back : Nat) => Flow.branch (pcAfter cs a 0) back
    (nextIs c .nop s s1 → exec (.rNop c) s = .next (doneR c 1 .next s1)) ∧
    (nextIs c .rts s s1 → ∀ v t, dataRead c false (if cs then s1.rv c (tD x) (RC_P0 + 7) % 2 ^ 16 else s1.rv c (tD x) (RC_P0 + 7)) s1 = .ok (v, t) →
      let t1 := t.rw c (tD x) (RC_P0 + 7) (wrapN (if cs then 16 else 24) ((s1.rv c (tD x) (RC_P0 + 7) : Int) + 1))
      exec (.rRts c) s = .next (doneR c 1 (.branch (pcAfter (t1.dev.coreCs c) v 0) 0) t1)) ∧
    (nextIs c .rti1 s s1 → exec (.rRti1 c) s = .next (doneR c 1 (dest (s1.rv c (tD x) RC_SPC) 1) s1)) ∧
    (nextIs c .rti2 s s1 → exec (.rRti2 c) s = .next (doneR c 1 (dest (s1.rv c (tD x) RC_IPC2) 2) s1)) ∧
    (nextIs c .rtt s s1 → exec (.rRtt c) s = .next (doneR c 1 (dest (s1.resumeAt c) 3) s1)) ∧
    (nextIs c .enddo s s1 → exec (.rEnddo c) s =
      .next (doneR c 1 .next (s1.setCore c { x with ctx := { x.ctx with loops := x.ctx.loops.tail } }))) ∧
    (nextIs c .sync s s1 → (s.core c).werr = 0 → exec (.rSync c) s = .next (doneR c 1 .next s1)) ∧
    (nextIs c .wait s s1 → exec (.rWait c) s = .next (doneR c 1 .next (s1.setCore c { x with ctx := { x.ctx with waiting := true } }))) ∧
    (nextIs c .trap s s1 → exec (.rTrap c) s = .next ((s1.setCore c x).trap c 5)) ∧
    (nextIs c .illegal s s1 → exec (.illegalInstruction c) s = .next ((s1.setCore c x).trap c 1)) ∧
    (∀ k, nextIs c (.bra k) s s1 → exec (.rBra c) s = .next (doneR c 1 (dest (s1.dispTo c k) 0) s1)) ∧
    (∀ k t, nextIs c (.bsr k) s s1 → callTo c 1 (s1.dispTo c k) s1 = .ok (.branch (pcAfter cs (s1.dispTo c k) 0) 0, t) →
      exec (.rBsr c) s = .next (doneR c 1 (dest (s1.dispTo c k) 0) t)) ∧
    (∀ cc k, nextIs c (.bcc cc k) s s1 →
      exec (.rBcc c) s = .next (doneR c 1 (.branch (if s1.cond c cc then pcAfter cs (s1.dispTo c k) 0 else pcAfter cs x.ctx.pc 3) 0) s1)) ∧
    (∀ a, nextIs c (.jmp false a) s s1 → exec (.rJmp c) s = .next (doneR c 2 (dest a 0) s1)) ∧
    (∀ a t, nextIs c (.jmp true a) s s1 → callTo c 2 a s1 = .ok (.branch (pcAfter cs a 0) 0, t) →
      exec (.rJsr c) s = .next (doneR c 2 (dest a 0) t)) ∧
    (∀ cc a, nextIs c (.bccLong cc a) s s1 →
      exec (.rBccLong c) s = .next (doneR c 2 (.branch (if s1.cond c cc then pcAfter cs a 0 else pcAfter cs x.ctx.pc 4) 0) s1)) ∧
    (∀ reg v off, nextIs c (.doLoop reg v off) s s1 → x.ctx.loops.length < 4 → s1.count c reg v ≠ 0 →
      let e := (pcAfter cs x.ctx.pc 1, pcAfter cs x.ctx.pc (1 + off), max 1 (s1.count c reg v))
      exec (.rDo c) s = .next (doneR c 1 .next (s1.setCore c { x with ctx := { x.ctx with loops := e :: x.ctx.loops } }))) ∧
    (∀ reg v off, nextIs c (.doLoop reg v off) s s1 → x.ctx.loops.length < 4 → s1.count c reg v = 0 → cs = false →
      exec (.rDo c) s = .next (doneR c 1 (.goto (pcAfter cs (pcAfter cs x.ctx.pc (1 + off)) 1)) s1)) ∧
    (∀ reg v off, nextIs c (.doLoop reg v off) s s1 → 4 ≤ x.ctx.loops.length → exec (.rDo c) s = .next ((s1.setCore c x).trap c 4)) ∧
    (∀ off n, nextIs c (.doLong off n) s s1 → x.ctx.loops.length < 4 → n ≠ 0 →
      let e := (pcAfter cs x.ctx.pc 2, pcAfter cs x.ctx.pc (2 + off), max 1 n)
      exec (.rDoLong c) s = .next (doneR c 2 .next (s1.setCore c { x with ctx := { x.ctx with loops := e :: x.ctx.loops } }))) ∧
    (∀ reg v, nextIs c (.rep reg v) s s1 →
      exec (.rRep c) s = .next (doneR c 1 (.rep (if cs then max 1 (s1.count c reg v) else s1.count c reg v)) s1)) ∧
    (∀ n, nextIs c (.repLong n) s s1 → exec (.rRepLong c) s = .next (doneR c 2 (.rep (if cs then max 1 n else n)) s1))

/-- Moves, logic and bit words of the Rhaex cores (R315, R318 to R320, R325): a register takes an immediate or another register's value,
limited on its way out of an accumulator; a load or store goes to the address that its pointer gives, the pointer updated by its mode;
AND, OR, EOR, BSET, BCLR and ADDI write 24 bits, and BTST only Z. -/
def Obligations.RhaexMovesComplete : Prop :=
  ∀ (c : Nat) (s s1 : State),
    let x := s1.core c
    let mv := fun (code v : Nat) (t : State) => writeCode c code (moveTime (t.core c) code) v t
    (∀ code v, nextIs c (.movei code v) s s1 → exec (.rMovei c) s = .next (doneR c 1 .next (mv code v s1))) ∧
    (∀ code v, nextIs c (.moveiLong code v) s s1 → exec (.rMoveiLong c) s = .next (doneR c 2 .next (mv code v s1))) ∧
    (∀ dst src, nextIs c (.mover dst src) s s1 →
      exec (.rMover c) s = .next (doneR c 1 .next (mv dst (readCode c src s1).1 (readCode c src s1).2))) ∧
    (∀ y code pn mode, nextIs c (.movem y false code pn mode) s s1 → ∀ v t,
      dataRead c y (agu c pn mode 1 s1).1 (agu c pn mode 1 s1).2 = .ok (v, t) →
      exec (.rMovem c) s = .next (doneR c 1 .next (writeCode c code (tE1 (t.core c)) v t))) ∧
    (∀ y code pn mode, nextIs c (.movem y true code pn mode) s s1 → ∀ t,
      let a := agu c pn mode 1 s1
      dataWrite c y a.1 (readCode c code a.2).1 (readCode c code a.2).2 = .ok ((), t) →
      exec (.rMovem c) s = .next (doneR c 1 .next t)) ∧
    (∀ y code pn, nextIs c (.movex y false code pn) s s1 → ∀ v t,
      dataRead c y ((s1.rv c (tD x) (RC_P0 + pn) + s1.rv c (tD x) (RC_N0 + pn)) % 2 ^ 24) s1 = .ok (v, t) →
      exec (.rMovex c) s = .next (doneR c 2 .next (writeCode c code (tE1 (t.core c)) v t))) ∧
    (∀ y code pn, nextIs c (.movex y true code pn) s s1 → ∀ t,
      dataWrite c y ((s1.rv c (tD x) (RC_P0 + pn) + s1.rv c (tD x) (RC_N0 + pn)) % 2 ^ 24) (readCode c code s1).1 (readCode c code s1).2 =
        .ok ((), t) →
      exec (.rMovex c) s = .next (doneR c 2 .next t)) ∧
    (∀ y k pn mode, nextIs c (.movel y true k pn mode) s s1 →
      let a := agu c pn mode 2 s1
      let a2 := (a.1 + 1) % 2 ^ 24
      let r := limited (a.2.accU c (tR (a.2.core c)) k) (a.2.rv c (tE1 (a.2.core c)) SR_SM == 1) 48
      let s2 := a.2.noteLimit c r.2
      s2.reachable c y a2 = true → ∀ t u, dataWrite c y a.1 (r.1 / 2 ^ 24) s2 = .ok ((), t) →
      dataWrite c y a2 (r.1 % 2 ^ 24) t = .ok ((), u) → exec (.rMovel c) s = .next (doneR c 2 .next u)) ∧
    (∀ y k pn mode, nextIs c (.movel y false k pn mode) s s1 → ∀ h l t u,
      let a := agu c pn mode 2 s1
      dataRead c y a.1 a.2 = .ok (h, t) → dataRead c y ((a.1 + 1) % 2 ^ 24) t = .ok (l, u) →
      exec (.rMovel c) s = .next (doneR c 2 .next (u.setAcc c (tE2 (u.core c)) k (sext 48 (h * 2 ^ 24 + l))))) ∧
    (∀ dst src,
      let a := readCode c dst s1
      let b := readCode c src a.2
      (nextIs c (.logic 0 dst src) s s1 → exec (.rAnd c) s = .next (doneR c 1 .next (mv dst ((a.1 &&& b.1) % 2 ^ 24) b.2))) ∧
      (nextIs c (.logic 1 dst src) s s1 → exec (.rOr c) s = .next (doneR c 1 .next (mv dst ((a.1 ||| b.1) % 2 ^ 24) b.2))) ∧
      (nextIs c (.logic 2 dst src) s s1 → exec (.rEor c) s = .next (doneR c 1 .next (mv dst ((a.1 ^^^ b.1) % 2 ^ 24) b.2)))) ∧
    (∀ code k,
      let a := readCode c code s1
      (nextIs c (.bitOp 3 code k) s s1 → exec (.rBset c) s = .next (doneR c 1 .next (mv code ((a.1 ||| 2 ^ k) % 2 ^ 24) a.2))) ∧
      (nextIs c (.bitOp 4 code k) s s1 →
        exec (.rBclr c) s = .next (doneR c 1 .next (mv code ((if bit a.1 k then a.1 - 2 ^ k else a.1) % 2 ^ 24) a.2))) ∧
      (nextIs c (.bitOp 5 code k) s s1 → exec (.rBtst c) s =
        .next (doneR c 1 .next (a.2.rw c (tE2 (a.2.core c)) SR_Z (b2n (bit a.1 k)))))) ∧
    (∀ code v, nextIs c (.addi code v) s s1 →
      let a := readCode c code s1
      exec (.rAddi c) s = .next (doneR c 1 .next (mv code (wrapN 24 (a.1 + v) % 2 ^ 24) a.2)))

/-- PAR words of the Rhaex cores (R313 to R317, Table 10.8), completing with the moves beside them where those do not trap: the operation
acts on what the accumulators and registers held before the moves; every sum, difference, product, shift and rounding keeps its exact
result modulo 2^56 and sets the flags of R314. MAC2 and MSU2 take the flags of one of their two results, which one the manual leaves
open: a free bit (log entry 3). NORMF and MACX are words of their own. -/
def Obligations.RhaexParallelComplete : Prop :=
  ∀ (c : Nat) (s s1 : State) (k src xm ym : Nat) (t : State),
    let par := fun (i : Instr) (op : Nat) (u : State) =>
      nextIs c (.par op k src xm ym) s s1 → parMoves c xm ym u = .ok ((), t) → exec i s = .next (doneR c 1 .next t)
    let a := s1.accNow c k
    let b := s1.accNow c src
    let p := s1.prod c (prodRegs src).1 (prodRegs src).2
    let o := s1.opnd c (opndReg src) * 2 ^ 24
    par (.rMovesOnly c) 0x00 s1 ∧
    par (.rMpy c) 0x01 (s1.arith c k p false) ∧
    par (.rMac c) 0x02 (s1.arith c k (a + p) (carryAdd a p)) ∧
    par (.rMsu c) 0x03 (s1.arith c k (a - p) (borrowSub a p)) ∧
    par (.rMpyr c) 0x04 (s1.arithRnd c k p false) ∧
    par (.rMacr c) 0x05 (s1.arithRnd c k (a + p) (carryAdd a p)) ∧
    par (.rMac2 c) 0x06 (twoProducts c k false s1) ∧
    par (.rMsu2 c) 0x07 (twoProducts c k true s1) ∧
    par (.rAdd c) 0x08 (s1.arith c k (a + o) (carryAdd a o)) ∧
    par (.rSub c) 0x09 (s1.arith c k (a - o) (borrowSub a o)) ∧
    par (.rAdda c) 0x0A (s1.arith c k (a + b) (carryAdd a b)) ∧
    par (.rSuba c) 0x0B (s1.arith c k (a - b) (borrowSub a b)) ∧
    par (.rCmp c) 0x0C (s1.flags c (!in56 (a - o)) (borrowSub a o) (keep56 (a - o))) ∧
    par (.rTst c) 0x0D (s1.flags c false false a) ∧
    par (.rClr c) 0x0E (s1.arith c k 0 false) ∧
    par (.rNeg c) 0x0F (s1.arith c k (0 - a) (borrowSub 0 a)) ∧
    (0 ≤ a → par (.rAbs c) 0x10 (s1.arith c k a false)) ∧
    (a < 0 → par (.rAbs c) 0x10 (s1.arith c k (0 - a) (borrowSub 0 a))) ∧
    par (.rTfr c) 0x11 (s1.arith c k b false) ∧
    par (.rRnd c) 0x12 (s1.arithRnd c k a false) ∧
    par (.rAsl c) 0x13 (s1.arith c k (2 * a) (decide (a < 0))) ∧
    par (.rAsr c) 0x14 (s1.arith c k (a / 2) false) ∧
    par (.rNorm c) 0x15 (doNorm c k (opndReg src) s1) ∧
    par (.rExp c) 0x16 ((s1.rw c (tE2 (s1.core c)) (opndReg src) (wrapN 24 (normShift a))).rw c (tE2 (s1.core c)) SR_Z (b2n (decide (a = 0)))) ∧
    (∀ code, nextIs c (.normf k code) s s1 → exec (.rNormf c) s = .next (doneR c 2 .next (doNormf c k code s1))) ∧
    (∀ y,
      let q := s1.prod c (RC_X0 + src) (RC_Y0 + y)
      (nextIs c (.macx k src y 0) s s1 → exec (.rMacx c) s = .next (doneR c 2 .next (s1.arith c k q false))) ∧
      (nextIs c (.macx k src y 1) s s1 → exec (.rMacx c) s = .next (doneR c 2 .next (s1.arith c k (a + q) (carryAdd a q)))) ∧
      (nextIs c (.macx k src y 2) s s1 → exec (.rMacx c) s = .next (doneR c 2 .next (s1.arith c k (a - q) (borrowSub a q)))))


/-- Frames and flow control of the ports (chapter 8): a frame with a wrong FCS is counted, a pause frame counted, a PFC frame obeyed, one
outside the port's sizes, tags or addresses dropped, and any other counted and handed on by its type (R243 to R245, R257); a pause ends, a storm
is cut and cleared, and a pause sent is renewed while the port stays above half (R245 to R247); a port with its link down counts it and
one that comes up renews its hops (R242, R254); the transmit port sends the first candidate of the highest priority (R249 to R251);
addresses are asked for again, and three failed refreshes lose them (R254); a trigger message that waited 10 ms is dropped (R258). -/
def Obligations.NetworkRowsComplete : Prop :=
  ∀ (m : Nat) (s : State),
    let d := s.dev
    (∀ fill, m < 20 → d.macMode m ≠ 0 → d.on (EM_STAT m) EM_STAT_LINK = true →
      (∀ bs, exec (.ethFrameReceived m false bs fill) s = .next { s with dev := d.cnt (EMC_RX_FCS m) 1 }) ∧
      (∀ bs, beAt bs 12 2 = 0x8808 → beAt (bs.drop 14) 0 2 = 1 →
        exec (.ethFrameReceived m true bs fill) s = .next { s with dev := d.cnt (EMC_PAUSE_RX m) 1 }) ∧
      (∀ bs, beAt bs 12 2 = 0x8808 → beAt (bs.drop 14) 0 2 = 0x0101 →
        exec (.ethFrameReceived m true bs fill) s = .next { s with dev := d.pfcRx m (bs.drop 14) }) ∧
      (∀ bs type, (type = beAt bs 12 2 ∧ type ≠ 0x8100 ∧ type ≠ 0x8808) →
        (60 ≤ bs.length → bs.length + 4 ≤ d.f (EM_CTRL m) EM_CTRL_MAX_FRAME → d.on (EM_CTRL m) EM_CTRL_UNTAGGED = true →
          d.acceptsDst m (at' bs 0 6) type = true →
          exec (.ethFrameReceived m true bs fill) s =
            .next { s with dev := (d.cnt (EMC_RX_FRAMES m) 1).frameRx m type (at' bs 6 6) fill (bs.drop 14) }) ∧
        (bs.length < 60 → exec (.ethFrameReceived m true bs fill) s = .next { s with dev := d.rxDrop m }))) ∧
    (∀ pri, m < 20 → pri < 8 →
      (d.stormed m pri = false → exec (.pfcPauseEnd m pri) s = .next { s with dev := d.setPaused m pri false none }) ∧
      (bit (d.f (EM_STAT m) EM_STAT_PAUSED) pri = true → exec (.pfcStorm m pri) s = .next { s with
        dev := (((d.setPaused m pri false (some d.now)).setF (EM_STAT m) EM_STAT_STORM (d.f (EM_STAT m) EM_STAT_STORM ||| 2 ^ pri)).cnt
          (EMC_PFC_STORM m) 1).raise 0x0D01 m 0 pri }) ∧
      (d.stormed m pri = true → exec (.stormClear m pri) s = .next { s with
        dev := (d.setF (EM_STAT m) EM_STAT_STORM (d.f (EM_STAT m) EM_STAT_STORM - 2 ^ pri)).setPaused m pri false none })) ∧
    (∀ fill, m < 20 → d.on (EM_CTRL m) EM_CTRL_PFC_TX_EN = true → (d.port m).pfcSent = true → 50 ≤ fill →
      exec (.pfcRenew m fill) s = .next { s with dev := (d.setFill m fill).pfcTx m 0xFFFF }) ∧
    (∀ lf fec, m < 20 → d.on (EM_STAT m) EM_STAT_LINK = true → exec (.linkDown m lf fec) s = .next { s with
      dev := (((d.setF (EM_STAT m) EM_STAT_LINK 0).setF (EM_STAT m) EM_STAT_LOCAL_FAULT (b2n lf)).setF (EM_STAT m) EM_STAT_FEC_LOCK
        (b2n fec)).cnt (EMC_LINK_DOWN m) 1 }) ∧
    (∀ rf, m < 20 → d.macMode m ≠ 0 → exec (.linkUp m rf) s = .next { s with
      dev := ((((d.setF (EM_STAT m) EM_STAT_LINK 1).setF (EM_STAT m) EM_STAT_LOCAL_FAULT 0).setF (EM_STAT m) EM_STAT_REMOTE_FAULT
        (b2n rf)).setF (EM_STAT m) EM_STAT_FEC_LOCK
        (b2n (!(d.macMode m == 1 && d.on (EM_CTRL m) EM_CTRL_NOFEC)))).wantHops m }) ∧
    (∀ pri i x r, m < 20 → d.portSends m = true →
      ([2, 3, 4, 5, 6].findSome? fun pri => (d.candidates m pri).head?.map fun x => (pri, x)) = some (pri, i, x, r) →
      let rate := d.txRate i x r
      let left := if rate = 0 then x.tokens else x.bucket d.now rate - (r.body.length + ipHeader x.v6) * 8000
      let d1 := d.setStream i (some { x with tokens := left, tokAt := d.now, sentThrough := if r.gap then x.sentThrough else some r.seq })
      let d2 := { d1 with net := { d1.net with rr := tset (fun _ => none) d1.net.rr (8 * m + pri) (some i) } }
      exec (.packetTransmit m) s = .next { s with
        dev := (d2.sendFrame m (d2.streamFrame x ((d2.nextMac x).getD 0) r.body)).sentPacket i x r }) ∧
    (exec .resolutionRetry s = .next { s with
      dev := (d.net.cache.filter fun r => !r.resolved && !r.static).foldl
        (fun (e : Dev) r => (e.setRes { r with at' := e.now }).askFor r.port r.v6 r.ip) d }) ∧
    (∀ v6 ip r, d.res m v6 ip = some r → r.static = false → r.resolved = true →
      (3 ≤ r.fails → exec (.entryRefresh m v6 ip) s = .next { s with dev := d.setRes { r with resolved := false, fails := 0 } }) ∧
      (r.fails < 3 → exec (.entryRefresh m v6 ip) s = .next { s with dev := (d.setRes { r with fails := r.fails + 1 }).askFor m v6 ip })) ∧
    (∀ x, d.streamIs m 5 = true → ((d.waiting m).find? fun p => !p.gap) = some x →
      let r := d.abandonPkts (fun p => p == x) 1 false
      exec (.trigTxDrop m) s = .next { s with dev := { r.1 with net := { r.1.net with trigTxDrop := r.1.net.trigTxDrop + r.2 } } })

/-- Time rows (chapter 9): a port sends the PTP messages of its state (R266, R267) and loses a master whose Announces stop (R267); an
offset measurement corrects the time of day from the source that TSU_CTRL names (R261, R262); the seconds word latches the nanoseconds
beside it (R260); STEP_ARM lets the next measurement step the time (R263); a pulse output rises at its time and falls after its width (R268). -/
def Obligations.TimeRowsComplete : Prop :=
  ∀ (m : Nat) (s : State),
    let d := s.dev
    ((d.port m).ptp = 2 → d.ptpP2p m = false →
      let n := d.nextSeq m 1
      exec (.ptpMessageTx m 1) s = .next { s with dev := n.2.sendPtp m 1 (d.ptpMsg m 1 n.1 0 (ptpStamp (d.egress m)).2 0x7F
        ((ptpStamp (d.egress m)).1 ++ [])) }) ∧
    ((d.port m).ptp = 3 →
      let n := d.nextSeq m 11
      exec (.ptpMessageTx m 11) s = .next { s with dev := n.2.sendPtp m 11 (d.ptpMsg m 11 n.1 d.announceFlags 0
        (wrapN 8 (sext 4 (d.pc 7 15 12))) (d.announceBody m)) }) ∧
    (d.ptpOn m = true →
      let d1 := (d.setPort m { d.port m with master := none, hist := [] }).ptpDecide
      (d.ptpSlave.isSome = true → d1.ptpSlave = none → d1.refOn REF_PTP = true → exec (.announceTimeout m) s = .next { s with
        dev := (d1.setF (TIM_REFSTAT REF_PTP) TIM_REFSTAT_ACT_FAULT 1).disqualify REF_PTP (d1.todSec - 2) }) ∧
      (d.ptpSlave = none ∨ d1.ptpSlave.isSome = true ∨ d1.refOn REF_PTP = false →
        exec (.announceTimeout m) s = .next { s with dev := d1 })) ∧
    (∀ t1 t2 t3 t4 delay, d.f TSU_CTRL TSU_CTRL_SRC = 1 → (d.port m).ptp = 2 → (d.port m).hist.length ≠ 8 →
      let r := t2 - d.f (EM_LAT m) EM_LAT_INGRESS_LAT
      let x := t3 + d.f (EM_LAT m) EM_LAT_EGRESS_LAT
      let mean := if d.ptpP2p m then delay else ((r - t1) + (t4 - x)) / 2
      let off := r - t1 - mean - sext 32 (d.f (EM_ASYM m) EM_ASYM_ASYM)
      exec (.offsetMeasurement m t1 t2 t3 t4 delay) s = .next { s with
        dev := (d.setPort m { d.port m with hist := (off :: (d.port m).hist).take 8, mean := mean }).measured off }) ∧
    (∀ t1 t2 t3 t4 delay, 2 ≤ d.f TSU_CTRL TSU_CTRL_SRC →
      exec (.offsetMeasurement m t1 t2 t3 t4 delay) s = .next { s with
        dev := ({ d with net := { d.net with label := d.net.label + 1 } } : Dev).measured (t2 - (d.net.label * 10 ^ 9 * 2 ^ 16 : Nat)) }) ∧
    (let e : Dev := { d with latch := tset (fun _ => none) d.latch TOD_LATCH (some d.todNsFrac) };
      exec .tsuTodSecRead s = .next { s with
        dev := { e with host := { e.host with rsp := { kind := .ok, data := leBytes 8 d.todSec } } } }) ∧
    (exec .stepArm s = .next { s with dev := d.setF TSU_CTRL TSU_CTRL_STEP_ARM 1 }) ∧
    (∀ t, m < 8 → (d.pulse m).2.2 = false → (d.pulse m).2.1 = some t → d.on TSU_CTRL TSU_CTRL_VALID = true → t ≤ d.tod →
      let nx := if d.f (PO_CTRL m) PO_CTRL_MODE = 2 then some (t + d.pulsePeriod m * 2 ^ 40) else none
      exec (.pulseEdge m) s = .next { s with
        dev := ((d.setPulse m ((d.pulse m).1 + 1, nx, true)).cntF (PO_CNT m) LO32 1).pulsePin m true }) ∧
    (∀ t, m < 8 → (d.pulse m).2.2 = true → (d.pulse m).2.1 = some t → t - d.pulsePeriod m * 2 ^ 40 + d.pulseWidth m ≤ d.tod →
      exec (.pulseEdge m) s = .next { s with
        dev := (d.setPulse m ((d.pulse m).1, some t, false)).pulsePin m false })


/-- Rows of the timing core (chapter 9): a fault of activity or period disqualifies a reference (R277); a PPS edge is accepted and stamped
or counted (R278); a clean, soft or hard offset moves its qualification (R279, R280); the lock criterion, the steps of the narrow
bandwidth, a switch that times out and a loss of lock move the core between its states (R281 to R287); XO_FAIL ends in XO_FAULT (R294);
in holdover the prediction is followed and a limit noted once (R289, R293); LOCKED seconds are recorded and a changed oscillator discards
the history (R288, R292); the external temperature goes stale (R290); a phase step waits for the end of a switch (R295); SYSREF outputs
pulse at the counts of their generator (R298). -/
def Obligations.TimingRowsComplete : Prop :=
  ∀ (r : Nat) (s : State),
    let d := s.dev
    let hold := d.timSt = TS_HOLDOVER ∨ d.timSt = TS_HOLDOVER_POOR
    (d.refOn r = true → exec (.activityFault r) s = .next { s with
      dev := (d.setF (TIM_REFSTAT r) TIM_REFSTAT_ACT_FAULT 1).disqualify r (d.todSec - 2) }) ∧
    (d.refOn r = true → r ≠ REF_PTP → exec (.periodFault r) s = .next { s with
      dev := (d.setF (TIM_REFSTAT r) TIM_REFSTAT_PER_FAULT 1).disqualify r (d.todSec - 2) }) ∧
    (∀ rising ns, r < 2 →
      let early := (tget (fun _ => none) d.tim.ppsAt r).any fun t => decide (d.now < t + 5 * 10 ^ 8)
      let no := rising == d.on (TIM_REF (4 + r)) TIM_REF_POL || decide (ns < d.tim.ppsMpw) || early
      (no = true → exec (.ppsInEdge r rising ns) s = .next { s with dev := d.cntF TIMC_PPS_IGN (if r = 0 then LO32 else HI32) 1 }) ∧
      (no = false → exec (.ppsInEdge r rising ns) s = .next { s with
        dev := { d with tim := { d.tim with ppsAt := tset (fun _ => none) d.tim.ppsAt r (some d.now),
                                            ppsStamp := tset (fun _ => 0) d.tim.ppsStamp r (d.tod / 2 ^ 24) } } })) ∧
    (∀ y, d.refOn r = true →
      let soft := max 1 (d.f (TIM_REFTH r) TIM_REFTH_SOFT)
      let hard := max soft (d.f (TIM_REFTH r) TIM_REFTH_HARD)
      let e := fun (h : Nat) => (((d.setF (TIM_REFSTAT r) TIM_REFSTAT_ACT_FAULT 0).setF (TIM_REFSTAT r) TIM_REFSTAT_PER_FAULT 0).setF
        (TIM_REFSTAT r) TIM_REFSTAT_HARD h).setF (TIM_REFSTAT r) TIM_REFSTAT_OFFSET (wrapN 32 (y / 10 ^ 5))
      let clear := fun (x : Dev) => ({ x with tim := { x.tim with ts := tset (fun _ => none) x.tim.ts r none } } : Dev)
      (hard * 10 ^ 7 < y.natAbs → exec (.frequencyMeasurement r y true true) s = .next { s with dev := (e 1).disqualify r (d.todSec - 2) }) ∧
      (soft * 10 ^ 7 < y.natAbs → y.natAbs ≤ hard * 10 ^ 7 → d.qstate r = 2 → exec (.frequencyMeasurement r y true true) s = .next { s with
        dev := ((e 0).setF (TIM_REFSTAT r) TIM_REFSTAT_QSTATE 4).setF (TIM_REFSTAT r) TIM_REFSTAT_PROOF_LEFT 0 }) ∧
      (y.natAbs ≤ soft * 10 ^ 7 → d.qstate r = 3 → exec (.frequencyMeasurement r y true true) s = .next { s with
        dev := (clear (e 0)).setF (TIM_REFSTAT r) TIM_REFSTAT_QSTATE 1 }) ∧
      (y.natAbs ≤ soft * 10 ^ 7 → d.qstate r ≠ 3 → exec (.frequencyMeasurement r y true true) s = .next { s with
        dev := (clear (e 0)).cleanMeasure r })) ∧
    (d.timSt = TS_SWITCH → exec .switchComplete s = .next { s with dev := (d.setTim TS_LOCKED).afterSwitch }) ∧
    (d.timSt = TS_ACQUIRE → exec .switchComplete s = .next { s with dev := d.setTim (if d.noNarrow then TS_LOCKED else TS_NARROW) }) ∧
    (d.timSt = TS_SWITCH → d.timSel < 8 → exec .switchTimeout s = .next { s with
      dev := (d.cntF (TIM_DISQUAL d.timSel) HI32 1).disqualify d.timSel d.lastRec }) ∧
    (d.timSt = TS_NARROW → d.f TIM_STAT TIM_STAT_BW_STEP < 2 → exec .narrowStep s = .next { s with
      dev := d.setF TIM_STAT TIM_STAT_BW_STEP (d.f TIM_STAT TIM_STAT_BW_STEP + 1) }) ∧
    (d.timSt = TS_NARROW → 2 ≤ d.f TIM_STAT TIM_STAT_BW_STEP → exec .narrowStep s = .next { s with
      dev := (d.setF TIM_STAT TIM_STAT_BW_STEP 3).setTim TS_LOCKED }) ∧
    (d.timSt = TS_NARROW ∨ d.timSt = TS_LOCKED → exec .lossOfLock s = .next { s with
      dev := ((d.cnt TIMC_LOSS_OF_LOCK 1).setF TIM_STAT TIM_STAT_BW_STEP 0).setTim TS_ACQUIRE }) ∧
    (d.timSt = TS_SWITCH → exec .lossOfLock s = .next { s with
      dev := (((d.cnt TIMC_LOSS_OF_LOCK 1).setF TIM_STAT TIM_STAT_BW_STEP 0).setTim TS_ACQUIRE).afterSwitch }) ∧
    (d.timSt ≠ TS_XO_FAULT → exec .xoFail s = .next { s with dev := (((d.setTim TS_XO_FAULT).raise 0x0101 0xFF 0 0).endRunSoon).degrade }) ∧
    (hold → exec .holdoverUpdate s = .next { s with
      dev := ({ d with tim := { d.tim with y := d.predict d.tim.hoMean d.tim.hoTime, hoSecs := d.tim.hoSecs + 1 } } : Dev).cntF
        TIMC_HOLDOVER HI32 1 }) ∧
    (hold → d.f TIM_HO TIM_HO_HO_LIM ≠ 0 → d.f TIM_HO TIM_HO_HO_LIM * 3600 < d.tim.hoSecs → d.tim.hoNoted = false →
      exec .hoLimit s = .next { s with
        dev := ({ d with tim := { d.tim with hoNoted := true } } : Dev).raise 0x0103 0xFF 0 d.tim.hoSecs }) ∧
    (∀ y, d.timSt = TS_LOCKED → d.qualified d.timSel = true → 60 ≤ d.tim.lockSecs →
      let h := d.ret.hist.hourly d.todSec
      let e : HistRec := { t := d.todSec, off := y - tempFit d.xoTemp h.tempTab, temp := d.xoTemp }
      exec (.historyRecord y) s = .next { s with
        dev := { d with ret := { d.ret with hist := { h with secs := (h.secs ++ [e]).drop (h.secs.length + 1 - 86400) } } } }) ∧
    (60 ≤ d.tim.lockSecs → d.tim.xoChecked = false → d.ret.hist.modelValid = true → ∀ x, d.ret.hist.days.getLast? = some x →
      let d1 := { d with tim := { d.tim with xoChecked := true } }
      let lim := clampN 1 10000 (d.f TIM_HO TIM_HO_XO_JUMP) * 10 ^ 7
      let diff := (roundDiv d.tim.lockSum 60 - d.predict x.off x.t).natAbs
      (diff ≤ lim → exec .xoChanged s = .next { s with dev := d1 }) ∧
      (lim < diff → exec .xoChanged s = .next { s with
        dev := (({ d1 with ret := { d1.ret with hist := d1.ret.hist.discard } } : Dev).cntF TIMC_TEMP_STALE HI32 1).raise 0x0102 0xFF 0 0 })) ∧
    (d.on TIM_STAT TIM_STAT_TEMP_EXT = true → exec .tempStale s = .next { s with
      dev := (d.setF TIM_STAT TIM_STAT_TEMP_EXT 0).cntF TIMC_TEMP_STALE LO32 1 }) ∧
    (∀ v, d.tim.xoExt = true → exec (.timXoTempWrite v) s = .next { s with
      dev := (d.wrN TIM_XO_TEMP (v % 2 ^ 32)).setF TIM_STAT TIM_STAT_TEMP_EXT 1 }) ∧
    (∀ v, d.timSt = TS_SWITCH → exec (.phaseStep v) s = .next { s with
      dev := { d with tim := { d.tim with heldSteps := d.tim.heldSteps ++ [(sext 32 v, bit v 32)] } } }) ∧
    (∀ v, d.timSt ≠ TS_SWITCH → exec (.phaseStep v) s = .next { s with dev := d.phaseNow (sext 32 v, bit v 32) }) ∧
    (let n := d.sngCount (d.f (TIM_SYSREF r) TIM_SYSREF_SNG);
      r < 4 → d.f (TIM_SYSREF r) TIM_SYSREF_SPER ≠ 0 → n % d.f (TIM_SYSREF r) TIM_SYSREF_SPER = 0 →
      (d.f (TIM_SYSREF r) TIM_SYSREF_MODE = 1 → exec (.sysrefOutPulse r) s = .next { s with dev := d.emit .pin (16 + r) [n] }) ∧
      (∀ start left, d.f (TIM_SYSREF r) TIM_SYSREF_MODE = 2 → tget (fun _ => none) d.tim.gap r = some (start, left + 2) → start ≤ n →
        exec (.sysrefOutPulse r) s = .next { s with
          dev := ({ d with tim := { d.tim with gap := tset (fun _ => none) d.tim.gap r (some (start, left + 1)) } } : Dev).emit
            .pin (16 + r) [n] }))


/-- Rows of heat and wear (chapter 14, R401 to R409, R414): a reading is taken, failed elements found, offsets and estimates
kept and, with the thermal control on, warnings, shutdown and throttling follow; a sensor moves to its reserve element; an agreed shutdown
latches and stops the clocks; the analogue trip does so at once; a voltage step follows the lowest margin; a day's entry is made. -/
def Obligations.HeatRowsComplete : Prop :=
  ∀ (s : State),
    let d := s.dev
    (∀ temps bad, d.therm.shut = none → d.fwState ≠ FW_SHUTDOWN →
      let d1 := d.takeReadings temps bad
      let d3 := (((List.range 56).filter fun k => d1.elementBad k bad).foldl (fun (e : Dev) k => e.elementFails k) d1).takeOffsets.takeEst
      (d3.on TH_CTRL TH_CTRL_EN = false → exec (.sensorReading temps bad) s = .next { s with dev := d3.syncThermal }) ∧
      (d3.on TH_CTRL TH_CTRL_EN = true →
        let d4 := d3.warnings.shutTest.throttle
        (d4.f TH_CTRL TH_CTRL_DUTY = 0 → exec (.sensorReading temps bad) s = .next { s with dev := d4.syncThermal }) ∧
        (0 < d4.f TH_CTRL TH_CTRL_DUTY →
          exec (.sensorReading temps bad) s = .next { s with dev := (d4.cntF THC_THR_TIME LO32 1).syncThermal }))) ∧
    (∀ k, d.therm.prim.contains k = true →
      let d1 := { d with
        therm := { d.therm with prim := d.therm.prim.filter (· != k), diffAt := tset (fun _ => none) d.therm.diffAt k none,
                                code := tset (fun _ => none) d.therm.code k none },
        ret := { d.ret with spare := { d.ret.spare with sensors := d.ret.spare.sensors ++ [k] } } }
      exec (.sensorTuckpoint k) s = .next { s with
        dev := ((d1.setF (TH_SENS k) TH_SENS_ELEM 1).cntF THC_SENS_EVT HI32 1).tuckpointed k (d1.ret.spare.sensors.length == 52) }) ∧
    (∀ x a b, d.therm.shut = some (x, a, b) → d.fwState ≠ FW_SHUTDOWN →
      let d1 := (((d.setF TH_LATCH TH_LATCH_DIGITAL 1).setF TH_LATCH TH_LATCH_SENS_A a).setF TH_LATCH TH_LATCH_SENS_B b).raise 0x0A04 0xFF 0 0
      exec .shutdownAssert s = .next { s with
        dev := ({ d1 with pwr := { d1.pwr with auxShut := some (d.errEntry 0x0A04 0xFF 0 0) } } : Dev).shutDown }) ∧
    (d.fwState ≠ FW_SHUTDOWN → exec .analogueTrip s = .next { s with
      dev := (({ d with pwr := { d.pwr with reqs := [] } } : Dev).setF TH_LATCH TH_LATCH_ANALOGUE 1).shutDown }) ∧
    (d.fwState = FW_SHUTDOWN → exec .analogueTrip s = .next { s with dev := d.setF TH_LATCH TH_LATCH_ANALOGUE 1 }) ∧
    (∀ margins ack, d.on AV_CTRL AV_CTRL_EN = true → d.serving = true →
      let tab := (List.range 79).foldl (fun (t : Tbl Int) u => tset (fun _ => 0) t u (margins.getD u 0)) []
      let act := (List.range 79).filter d.unitActive
      let low := (act.map fun u => margins.getD u 0).foldl min (margins.getD 68 0)
      let v := d.f AV_CTRL AV_CTRL_VSET_MV
      let d0 : Dev := { d with therm := { d.therm with margins := tab, upAt := some d.now } }
      low < (clampN 50 1000 (d.f AV_CTRL AV_CTRL_M_TARGET) : Int) → v < 850 → d.therm.upAt = none → 
      let d1 := (d0.setVolt (v + 5) ack).cntF THC_AV_STEPS LO32 1
      exec (.avsAdjust margins ack) s = .next { s with dev := { d1 with therm := { d1.therm with avLimit := false } } }) ∧
    (let w := d.ret.wear;
      let es := d.therm.margins.map fun (u, m) => (u, d.todSec / 86400, Config.referMargin u m (d.f AV_CTRL AV_CTRL_VSET_MV))
      let w1 := { w with margins := w.margins ++ es, avail := ((0, 0) :: w.avail).take 365 }
      exec .dailyEntry s = .next { s with
        dev := ({ d with ret := { d.ret with hist := d.ret.hist.daily d.todSec, wear := w1 } } : Dev).wantCommit .history none })

/-- Rows of the lease link (R415 to R423): a bad word is dropped and counted; a good one is kept and acts: GRANT, REVOKE, SYNC and HEALTH;
a holder's timer ends its lease; 5 ms without SYNC raise NO_ARBITER; each slot a twin sends HEALTH and the arbiter SYNC; the arbiter renews
the valid holder, grants to a safe twin, counts missed reports and takes its GEN from them after a start. -/
def Obligations.LeaseRowsComplete : Prop :=
  ∀ (w : List Nat) (s : State),
    let d := s.dev
    let kept : Dev := { d with twin := { d.twin with words := (w :: d.twin.words).take 16 } }
    let good := (d.isTwin || d.isArb) && !d.leaseBad w
    ((d.isTwin || d.isArb) = true → d.leaseBad w = true →
      exec (.leaseGrant w) s = .next { s with dev := d.cntF LSC_LS_BAD LO32 1 } ∧
      exec (.leaseRevoke w) s = .next { s with dev := d.cntF LSC_LS_BAD LO32 1 } ∧
      exec (.leaseSync w) s = .next { s with dev := d.cntF LSC_LS_BAD LO32 1 } ∧
      exec (.healthReport w) s = .next { s with dev := d.cntF LSC_LS_BAD LO32 1 }) ∧
    (good = true → at' w 2 1 = 2 → exec (.leaseGrant w) s = .next { s with dev := (kept.grantRx w).syncLease }) ∧
    (good = true → at' w 2 1 = 3 → d.isTwin = true → at' w 4 1 = d.f LS_CTRL LS_CTRL_NODE →
      exec (.leaseRevoke w) s = .next { s with dev := (kept.endLease).syncLease }) ∧
    (good = true → at' w 2 1 = 1 → d.isTwin = true →
      ((d.twin.syncAt.any fun t => decide (d.now < t + 900000)) = true →
        exec (.leaseSync w) s = .next { s with dev := (kept.cntF LSC_LS_BAD HI32 1).syncLease }) ∧
      ((d.twin.syncAt.any fun t => decide (d.now < t + 900000)) = false →
        exec (.leaseSync w) s = .next { s with
          dev := ({ kept with twin := { kept.twin with syncAt := some d.now, noArb := false } } : Dev).syncLease })) ∧
    (good = true → at' w 2 1 = 4 →
      (d.isArb = true → exec (.healthReport w) s = .next { s with dev := (kept.healthArb w).syncLease }) ∧
      (d.isArb = false → exec (.healthReport w) s = .next { s with dev := (kept.healthTwin w).syncLease })) ∧
    (d.isTwin = true → d.twin.holder = true → d.twin.leaseEnd ≤ d.now →
      exec .leaseTimerExpiry s = .next { s with dev := ((d.endLease).cntF LSC_LS_CHANGES HI32 1).syncLease }) ∧
    (d.isTwin = true → d.twin.noArb = false → d.twin.syncAt.getD 0 + 5000000 ≤ d.now →
      exec .noArbiter s = .next { s with
        dev := (({ d with twin := { d.twin with noArb := true } } : Dev).raise 0x0E01 (d.f LS_CTRL LS_CTRL_NODE) 0 0).syncLease }) ∧
    (d.syncLease.isTwin = true →
      let e := d.syncLease
      let n := e.f LS_CTRL LS_CTRL_NODE
      let d1 := (e.leaseTx 4 n 2 (e.f LS_STAT LS_STAT_GEN) 0 0 e.healthBody).keepReport n e.healthBody
      exec .healthSlot s = .next { s with dev := { d1 with twin := { d1.twin with rot := d1.twin.rot + 64 } } }) ∧
    (d.isArb = true → 
      let d1 := d.leaseTx 1 2 0xFF 0 (d.twin.cycle % 2 ^ 32) 0 []
      exec .arbiterSync s = .next { s with dev := { d1 with twin := { d1.twin with cycle := d1.twin.cycle + 1, held := 0 } } }) ∧
    (∀ h, d.isArb = true → d.twin.waiting = false → d.twin.hold = some h → d.mayRenew h = true →
      exec .arbiterRenew s = .next { s with dev := d.sendGrant h d.twin.gen }) ∧
    (∀ h, d.isArb = true → d.twin.waiting = false → d.twin.hold = some h → d.mayRenew h = false → d.twin.cfgBad = false →
      d.mayGrant (1 - h) = true → d.grantSafe h = true →
      exec .arbiterGrant s = .next { s with dev := d.sendGrant (1 - h) ((d.twin.gen + 1) % 2 ^ 16) }) ∧
    (∀ k, k < 2 → d.isArb = true →
      (bit d.twin.got k = true → exec (.twinFailed k) s = .next { s with
        dev := { d with twin := { d.twin with got := setBit d.twin.got k false } } }) ∧
      (bit d.twin.got k = false →
        let n := tget (fun _ => 0) d.twin.miss k + 1
        let d1 := ({ d with twin := { d.twin with miss := tset (fun _ => 0) d.twin.miss k n } } : Dev).cntF LSC_HEALTH_MISS
          (if k = 0 then LO32 else HI32) 1
        (3 ≤ n → exec (.twinFailed k) s = .next { s with dev := d1.nodeFailed k }) ∧
        (n < 3 → exec (.twinFailed k) s = .next { s with dev := d1 }))) ∧
    (d.isArb = true → d.twin.waiting = true → d.twin.startAt + 30000000 + d.twin.g * 1000 ≤ d.now →
      let gens := ([0, 1].filterMap d.lastOf).map (·.gen)
      let top := gens.foldl (fun a b => if later b a 16 then b else a) (gens.headD 0)
      exec .arbiterWaitEnd s = .next { s with
        dev := ({ d with twin := { d.twin with waiting := false, gen := (top + 1) % 2 ^ 16 } } : Dev).syncLease })


/-- Rows of power, reset, boot and retained state (chapter 16): the pin, a supply, the watchdog, SYS_RESET and a broken sequence begin a
device reset (R453 to R457), which keeps what Table 16.3 keeps; its end samples the straps; removing VDD_AUX or a power-on reset leaves
only the flash and the fuses (R455, R470); the boot ROM halts without a usable image and otherwise starts the first that verifies (R459 to
R461); RESTORE and TRAIN lead to READY or DEGRADED (R218, R466, R471); a commit programs the slot that is not selected, its read-back
selects it, and an erase makes the other blank (R466, R467). -/
def Obligations.PowerRowsComplete : Prop :=
  ∀ (s : State),
    let d := s.dev
    let f := s.flash
    let begun := fun (cause : Nat) => ({ s with
      mem := { host := s.mem.host },
      dev := { d.afterReset with pwr := { d.afterReset.pwr with
        inReset := true, causes := (if d.pwr.inReset then d.pwr.causes else 0) ||| 2 ^ cause } } } : State)
    (d.pwr.auxOn = true →
      (∀ ns, 10000 ≤ ns → exec (.resetN ns) s = .next (begun CAUSE_PIN)) ∧
      (∀ k ns, 1 ≤ k → k ≤ 10 → 2000 < ns → exec (.supplyMonitorLow k ns) s = .next (begun CAUSE_SUPPLY)) ∧
      (∀ k ns, k ≤ 10 → ns ≤ 1000000 → exec (.powerSeq 2 k ns) s = .next (begun CAUSE_SUPPLY)) ∧
      (∀ step k ns, k ≤ 10 → step = 3 ∨ step = 5 → exec (.powerSeq step k ns) s = .next { s with dev := d.noteSeq step k }) ∧
      (∀ t, d.pwr.wdogDue = some t → t + 100000000 ≤ d.now → d.on SC_WDOG SC_WDOG_HOLD = false →
        exec .watchdogReset s = .next (begun CAUSE_WDOG)) ∧
      (d.host.sysReset = true → exec .deviceResetAfterRelease s = .next (begun CAUSE_SYS))) ∧
    (∀ rec test, d.pwr.inReset = true → d.pwr.auxOn = true → holdsReset d.tap.ir = false →
      let e := d.afterReset
      let e1 := (e.wrN SC_RSTCAUSE (e.rdN SC_RSTCAUSE ||| d.pwr.causes)).setF SC_ID SC_ID_RECOVERY (b2n rec)
      let e2 := { e1 with pwr := { e1.pwr with inReset := false, recovery := rec }, tap := { e1.tap with testEn := test } }
      exec (.deviceResetEnd rec test true) s = .next { s with
        mem := { host := s.mem.host },
        dev := e2.setF QD_STAT QD_STAT_TEST_EN (b2n test) } ∧
      exec (.deviceResetEnd rec test false) s = .next { s with
        mem := { host := s.mem.host },
        dev := (e2.setF QD_STAT QD_STAT_TEST_EN (b2n test)).xoFail }) ∧
    (let off := fun (aux : Bool) (straps : Nat) => ({ now := d.now, fresh := d.fresh, out := d.out,
                                                      pwr := { auxOn := aux, inReset := true, smbAddr := straps } } : Dev).fuseLock d;
      (∀ whole, exec (.vddAuxRemoved whole) s = .next { s with
        flash := { f.cut whole with sel := false, selValid := false, bufGen := 0, bufCommits := 0, buf := {} },
        mem := { host := s.mem.host },
        dev := off false 0 }) ∧
      (∀ straps, exec (.powerOnReset straps) s = .next { s with
        flash := { f.cut false with sel := false, selValid := false, bufGen := 0, bufCommits := 0, buf := {} },
        mem := { host := s.mem.host },
        dev := (off true (straps % 4)).emit .pin 36 [0, 1] })) ∧
    (d.pwr.inReset = false → d.pwr.auxOn = true → d.fwState = FW_BOOT → f.engine = .idle → ∀ pass s2,
      let s1 := { s with flash := f.select, dev := { d with ret := f.select.image } }
      bootCore pass s1 = some s2 → (s2.dev.romId).tap.testEn = false →
      let s3 := { s2 with dev := s2.dev.romId }
      exec (.bootRomStart pass true []) s = .next (match s3.flash.choose s3.dev.bootOrder true with
        | some (k, t, first) => bootImage k t first s3
        | none => { s3 with dev := s3.dev.setFw FW_HALTED })) ∧
    (∀ ack, d.fwState = FW_RESTORE → d.pwr.inReset = false → d.fwStuck = false →
      let d1 := (d.bootNotes (f.selValid && f.pick.2.2) (!f.selValid)).loadSpares.loadLease.startTiming.loadSettings
      let d2 := { d1 with pwr := { d1.pwr with commitTimes := List.replicate f.commits d1.now } }
      let d3 := d2.setVolt (clampN 700 850 (d2.ret.wear.setPoint + 10)) ack
      let s1 := { s with flash := f.erase, dev := d3 }
      let s2 := if d3.pwr.recovery then s1 else d3.ret.profile.foldl replayOne s1
      exec (.restore ack) s = .next { s2 with dev := (if f.selValid then s2.dev else s2.dev.wantCommit .spare none).setFw FW_TRAIN }) ∧
    (∀ dimm rate, d.fwState = FW_TRAIN → d.pwr.inReset = false → d.fwStuck = false →
      let d1 := (d.memUp dimm rate).reapply
      let d2 := ((List.range 68).filter fun t => d1.tileRole t == 1).foldl (fun (e : Dev) t => e.reserveTest t true) d1
      exec (.train dimm rate [] [] [] [] [] true) s = .next { s with dev := d2.enterReady } ∧
      exec (.train dimm rate [] [] [] [] [] false) s = .next { s with dev := d2.setFw FW_HALTED }) ∧
    (∀ us cs ls, d.fwState = FW_TRAIN → d.pwr.inReset = false → d.fwStuck = false →
      exec (.trainTimeout us cs ls) s = .next { s with dev := ((d.untrained us cs ls).degrade).setFw FW_DEGRADED }) ∧
    (∀ s0 s1, d.pwr.reqs ≠ [] → d.canCommit = true → f.engine = .idle → d.recentCommits.length < 12 →
      (f.clean = false → exec (.commitStart s0 s1) s = .next { s with flash := f.erase }) ∧
      (f.clean = true → (d.commitCheck s0 s1).1 = false →
        exec (.commitStart s0 s1) s = .next { s with dev := (d.commitCheck s0 s1).2.commitLow }) ∧
      (f.clean = true → (d.commitCheck s0 s1).1 = true →
        let e := (d.commitCheck s0 s1).2
        exec (.commitStart s0 s1) s = .next { s with
          flash := { f with engine := .programming, bufGen := (f.gen + 1) % 2 ^ 32, bufCommits := d.recentCommits.length, buf := e.ret.kept },
          dev := { e with pwr := { e.pwr with reqs := [], running := e.pwr.reqs, commitTimes := d.now :: d.recentCommits } } })) ∧
    (f.engine = .programming ∨ f.engine = .verifying →
      let js := d.pwr.running.filterMap (·.job)
      let e := { d with pwr := { d.pwr with running := [] } }
      let fl := fun (x : RSlot) => { f.putOther x with engine := .idle }
      exec (.commitReadback true) s = .next { s with
        flash := ({ fl (.ok f.bufGen f.bufCommits f.buf) with sel := f.target, selValid := true } : Flash).erase,
        dev := js.foldl (fun (e : Dev) i => e.endJob i .ok 0) e } ∧
      (d.pwr.running ≠ [] → exec (.commitReadback false) s = .next { s with
        flash := (fl .bad).erase,
        dev := js.foldl (fun (e : Dev) i => e.endJob i .hwFault 0) (e.raise 0x0008 0xFF 0 0) })) ∧
    (f.engine = .erasing → f.selValid = true →
      exec .eraseComplete s = .next { s with flash := { f.putOther .blank with engine := .idle } }) ∧
    (f.engine = .erasing → f.selValid = false →
      exec .eraseComplete s = .next { s with flash := { f with slot0 := .blank, slot1 := .blank, engine := .idle } }) ∧
    (∀ t, d.pwr.histLow = some t → t + 3600 * 10 ^ 9 ≤ d.now → d.serving = true →
      exec .hourlyCommitRetry s = .next { s with
        dev := ({ d with pwr := { d.pwr with histLow := none } } : Dev).wantCommit .history none })

/-- Rows of the debug port (chapter 19, R507 to R516): a TAP reset selects IDCODE, an instruction acts as Table 19.1 and the lock allow, and
a boundary-scan one holds the device in reset; through an open QDP the selected core halts, resumes, steps, and the device is reset; a
scan gives the last access's data and status, or busy, and makes its own access. -/
def Obligations.DebugRowsComplete : Prop :=
  ∀ (s : State),
    let d := s.dev
    let c := d.qdpCore
    (exec .tapReset s = .next { s with dev := { d with tap := { d.tap with ir := 0x02, data := 0, status := 0, late := none } } }) ∧
    (∀ code sup, d.pwr.auxOn = true →
      let k := d.tapCode (code % 256) sup
      let d1 := { d with tap := { d.tap with ir := k } }
      (k = 0x02 → exec (.instructionLoad code sup) s = .next { s with dev := d1.emit .tdo k [idCode] }) ∧
      (k ≠ 0x02 → holdsReset k = false → exec (.instructionLoad code sup) s = .next { s with dev := d1 }) ∧
      (k ≠ 0x02 → holdsReset k = true → exec (.instructionLoad code sup) s = .next (beginReset CAUSE_QDP { s with dev := d1 }))) ∧
    (d.qdpOpen = true →
      (d.coreState c = CORE_RUN → (d.core c).ctx.boundary = true → exec .halt s = .next { s with dev := d.coreHalt c 1 }) ∧
      (d.coreState c = CORE_RUN → (d.core c).ctx.boundary = false →
        exec .halt s = .next { s with dev := d.setCore c { d.core c with due := 1 } }) ∧
      ((d.core c).qhalt ≠ 0 → d.coreState c = CORE_HALTED →
        let x := d.core c
        let e := (d.setCore c { x with qhalt := 0, skipBp := true, wdogAt := x.wdogAt + (d.now - x.haltAt) }).setCoreState c CORE_RUN
        exec .qdpResume s = .next { s with dev := e } ∧
        (let t := toBoundary c (2 ^ 24 + 4) (stepCore c { s with dev := e });
          (t.dev.coreState c = CORE_RUN → exec .step s = .next { t with dev := t.dev.coreHalt c 4 }) ∧
          (t.dev.coreState c ≠ CORE_RUN → exec .step s = .next t))) ∧
      exec .devReset s = .next (beginReset CAUSE_QDP s)) ∧
    (∀ scan slow, d.tap.ir = 0x10 →
      (∀ x st, d.tap.late = some (x, st) → exec (.qdpAccess scan slow) s = .next { s with
        dev := { d.emit .tdo 0x10 [d.tap.data, 1] with tap := { d.tap with data := x, status := st, late := none } } }) ∧
      (d.tap.late = none →
        let r := qdAccess (bits scan 43 32) (bit scan 44) (scan % 2 ^ 32) { s with dev := d.emit .tdo 0x10 [d.tap.data, d.tap.status] }
        let t := r.2.2.dev.tap
        let x := if r.2.1 = 0 then r.1 else d.tap.data
        (slow = false → exec (.qdpAccess scan slow) s = .next { r.2.2 with
          dev := { r.2.2.dev with tap := { t with data := x, status := r.2.1 } } }) ∧
        (slow = true → exec (.qdpAccess scan slow) s = .next { r.2.2 with
          dev := { r.2.2.dev with tap := { t with late := some (x, r.2.1) } } })))

/-! The machine as a whole. -/

/-- One step carries out the command at the front of the queue, with the rest of the queue left. That there is such a queue is the
model's choice (log entry 1). -/
def Obligations.StepTakesFront : Prop :=
  ∀ (c : Instr) (cs : List Instr) (s : State), s.pending = c :: cs → step s = exec c { s with pending := cs }

/-- With no command waiting, a step is one nanosecond of the device's clock and changes only the clock, the time of day, which advances by
1 ns, and what a slewed phase step has left. That time passes there is the model's choice (log entries 1 and 2). -/
def Obligations.EmptyQueuePassesTime : Prop :=
  ∀ s : State, s.pending = [] → step s = .next { s with dev := s.dev.tick } ∧ s.dev.tick.now = s.dev.now + 1 ∧
    (∀ a, a ≠ TIM_PHREM → a ≠ TIM_PHTOT → s.dev.tick.rd a = s.dev.rd a) ∧ s.dev.tick.host = s.dev.host ∧ s.dev.tick.cores = s.dev.cores ∧
    (s.dev.net.slew = 0 → s.dev.rdN TIM_PHREM = 0 → s.dev.tick.tod = s.dev.tod + 2 ^ 40)

/-- The state after reset: every register reads its Reset column (R455), no slot is handed over and every job index is free (R367), the
queue and the memories are empty, in their canonical form, and no slot of the flash is selected. What the memories and the flash hold is the model's choice (log
entries 4 and 40). -/
def Obligations.ResetState : Prop :=
  (∀ a : Nat, State.reset.dev.rd a = regReset a) ∧ State.reset.pending = [] ∧ State.reset.mem = {} ∧ State.reset.mem.wf = true ∧
    State.reset.flash.selValid = false ∧ State.reset.flash.genOk = true ∧
    State.reset.dev.rdN DOORBELL = 0 ∧ State.reset.dev.host.fwq = [] ∧ State.reset.dev.jobs = [] ∧ State.reset.dev.errq = [] ∧
    State.reset.dev.fwState = FW_BOOT ∧ State.reset.dev.compat = false

/-- Every step keeps the memories in their canonical form: rising keys, and no entry at what an unlisted key reads as. -/
def Obligations.StepKeepsMemoryForm : Prop :=
  ∀ s t : State, s.mem.wf = true → step s = .next t → t.mem.wf = true

/-- No step touches the selected slot of retained state: whatever happens, power failures included, what stands in it stands there
afterwards; and every step keeps the generations of the slots in order (R465 to R467, R470). -/
def Obligations.StepKeepsSelectedSlot : Prop :=
  ∀ s t : State, step s = .next t →
    (s.flash.selValid = true → t.flash.slot s.flash.sel = s.flash.slot s.flash.sel) ∧ (s.flash.genOk = true → t.flash.genOk = true)

/-- A power failure during a commit leaves one whole state for the next boot to select: the old one until the header has been written in
full, the new one from then on, and the new one too while the old slot is erased (Table 16.8); RESTORE starts the erase of what is left
unselected. The slots' generations are in order, which every step keeps (StepKeepsSelectedSlot). -/
def Obligations.PowerFailureLeavesOneState : Prop :=
  ∀ (s : State), s.flash.genOk = true →
    (∀ (whole : Bool) (g c : Nat) (r : Retained), s.flash.selValid = true → s.flash.slot s.flash.sel = .ok g c r →
      ∃ t, exec (.vddAuxRemoved whole) s = .next t ∧ t.flash.select.selValid = true ∧
        ((s.flash.engine = .idle ∨ s.flash.engine = .erasing) → t.flash.select.image = r) ∧
        ((s.flash.engine = .programming ∨ s.flash.engine = .verifying) → t.flash.select.image = if whole then s.flash.buf else r)) ∧
    (∀ ack, s.dev.fwState = FW_RESTORE → s.dev.pwr.inReset = false → s.dev.fwStuck = false →
      ∃ t, exec (.restore ack) s = .next t ∧ t.flash = s.flash.erase)

/-- No command changes the queue of the commands that wait behind it. -/
def Obligations.CommandsKeepQueue : Prop :=
  ∀ (c : Instr) (s t : State), exec c s = .next t → t.pending = s.pending

/-- No command faults, and the only one that is ever refused is an SPI frame in compatibility mode, whose protocol the specification
does not give (R379). -/
def Obligations.OnlySpiFrameStops : Prop :=
  ∀ (c : Instr) (s : State), (∀ f, exec c s ≠ .fault f) ∧
    (∀ r, exec c s = .refused r → r = .spiProtocolNotGiven ∧ s.dev.compat = true ∧ ∃ bytes len, c = .spiFrame bytes len)

/-- The frame of the flash: every command but those of the commit engine, the boot ROM, RESTORE, the end of a job and the loss of power
leaves the flash as it is; and the end of a job changes the image slots alone. -/
def Obligations.FlashFrame : Prop :=
  ∀ (c : Instr) (s t : State), exec c s = .next t →
    (flashWork c = false → t.flash = s.flash) ∧
    (∀ i bad, c = .jobDone i bad → t.flash = { s.flash with imgA := t.flash.imgA, imgB := t.flash.imgB })

/-- The frame of the memories for the events and accesses that reach no memory: the device changes and nothing else. -/
def Obligations.DeviceOnlyFrame : Prop :=
  ∀ (c : Instr) (s t : State), deviceOnly c = true → exec c s = .next t → t = { s with dev := t.dev }

/-! Registers, counters and memories. -/

/-- An event counter saturates at all ones, in a register of its own or in a field, however many events are counted and in whatever
portions; once there it stays until it is cleared. -/
def Obligations.CountersSaturate : Prop :=
  ∀ (d : Dev) (a : Nat) (f : Fld) (ns : List Nat), f.lo ≤ f.hi → f.hi < 64 →
    (ns.foldl (fun (e : Dev) n => e.cnt a n) d).rdN a = min (d.rdN a + ns.sum) (2 ^ 64 - 1) ∧
    (ns.foldl (fun (e : Dev) n => e.cntF a f n) d).f a f = min (d.f a f + ns.sum) (2 ^ (f.hi + 1 - f.lo) - 1) ∧
    (d.rdN a = 2 ^ 64 - 1 → (ns.foldl (fun (e : Dev) n => e.cnt a n) d).rdN a = 2 ^ 64 - 1) ∧
    (d.f a f = 2 ^ (f.hi + 1 - f.lo) - 1 → (ns.foldl (fun (e : Dev) n => e.cntF a f n) d).f a f = 2 ^ (f.hi + 1 - f.lo) - 1) ∧
    ((d.wrN a 0).rdN a = 0 ∧ (d.setF a f 0).f a f = 0)

/-- The bytes of a memory after a write through the matrix: a byte outside the range the write reaches keeps its value, the bytes of SRAM
that it reaches read as written, and host memory changes only through the outbound window. A write that is refused changes nothing. -/
def Obligations.MemoryWriteFrame : Prop :=
  ∀ (d : Dev) (m : Mem) (a k : Nat) (bs : List Nat) (psn : Bool),
    let w := memWrite d m a bs psn
    (k < (d.route a).2 ∨ (d.route a).2 + bs.length ≤ k → w.2.rd8 k = m.rd8 k) ∧
    ((d.route a).1 = .sram → w.1 = true ∧
      ∀ i, i < bs.length → w.2.rd8 ((d.route a).2 + i) = bs.getD i 0 % 256) ∧
    ((d.route a).1 ≠ .out → w.2.host = m.host) ∧
    (w.1 = false → w.2 = m)

/-- Poison in a memory: a write clears the poison of the granules that it covers whole with good data, leaves poisoned a granule that it
covers in part, poisons every granule that poisoned data reaches, and leaves every other granule as it was (R346, R383, R384). -/
def Obligations.PoisonFollowsWrites : Prop :=
  ∀ (m : Mem) (a g : Nat) (bs : List Nat), granule g = granule a → g % granule g = 0 → g < 2 ^ 48 → a + bs.length ≤ 2 ^ 48 →
    granule (a + bs.length - 1) = granule a →
    (a ≤ g → g + granule g ≤ a + bs.length → (m.store a bs false).poisonAt g = false) ∧
    (g ∈ granulesOf a bs.length → ¬ (a ≤ g ∧ g + granule g ≤ a + bs.length) → m.poisonAt g = true → (m.store a bs false).poisonAt g = true) ∧
    (g ∈ granulesOf a bs.length → (m.store a bs true).poisonAt g = true) ∧
    (g ∉ granulesOf a bs.length → ∀ p, (m.store a bs p).poisonAt g = m.poisonAt g)

/-- Of two different values of a wrapping counter at most one is later by serial difference; equal values differ by nothing; a difference
of exactly half the range counts as earlier whichever way it is taken. -/
def Obligations.SerialOrder : Prop :=
  ∀ (n a b : Nat), 1 ≤ n → a < 2 ^ n → b < 2 ^ n →
    (later a b n = true ↔ serialDiff a b n > 0) ∧ (serialDiff a b n = 0 ↔ a = b) ∧
    (earlier a b n = true ↔ serialDiff a b n < 0) ∧
    (serialDiff a b n = -(2 ^ (n - 1)) → earlier a b n = true ∧ earlier b a n = true) ∧
    (serialDiff a b n ≠ -(2 ^ (n - 1)) → (later a b n = true ↔ earlier b a n = true)) ∧
    ((a : Int) - b - serialDiff a b n) % 2 ^ n = 0 ∧ -(2 ^ (n - 1)) ≤ serialDiff a b n ∧ serialDiff a b n < 2 ^ (n - 1)

/-- A received 48-bit SPN is extended to the 64-bit value that has these low 48 bits and lies nearest the expected SPN. -/
def Obligations.SpnExtended : Prop :=
  ∀ (e x : Nat), e < 2 ^ 64 → x < 2 ^ 48 →
    extend48 e x < 2 ^ 64 ∧ extend48 e x % 2 ^ 48 = x ∧ -(2 ^ 47) ≤ serialDiff (extend48 e x) e 64 ∧ serialDiff (extend48 e x) e 64 ≤ 2 ^ 47 - 1

/-- Convergent rounding: the quotient is the nearest integer, and of two equally near the even one. -/
def Obligations.RoundingIsConvergent : Prop :=
  ∀ (x q : Int) (n : Nat), 0 < n →
    2 * (x - n * roundDiv x n).natAbs ≤ n ∧ (2 * (x - n * roundDiv x n).natAbs = n → roundDiv x n % 2 = 0) ∧
    (2 * (x - n * q).natAbs < n → roundDiv x n = q)

/-- The requantiser: each part is the convergent quotient by 2^RQ_SHIFT, saturated to ±7 in C4 and ±127 in C8; each saturated part counts
one in REQ_SAT; no value gives the blank code, which stands where a spectrum or a channel is blanked. -/
def Obligations.RequantiserSaturates : Prop :=
  ∀ (c8 : Bool) (shift : Nat) (x : Int × Int), shift ≤ 23 →
    let top : Int := if c8 then 127 else 7
    let re := roundDiv x.1 (2 ^ shift)
    let im := roundDiv x.2 (2 ^ shift)
    let out : Int → Bool := fun v => decide (v > top) || decide (v < -top)
    (requantise c8 shift x).1 = codeOf c8 (max (-top) (min top re)) (max (-top) (min top im)) ∧
    (requantise c8 shift x).2 = b2n (out re) + b2n (out im) ∧ (requantise c8 shift x).1 ≠ blankCode c8 ∧
    (∀ (d : Dev) (i m c : Nat) (f : FInput) (seg : Option Seg) (v : Int × Int),
      let b := d.on FR_CTRL FR_CTRL_FMT
      let key := frKey (m * 16384 + c) i
      let z := mulGain (d.chanValue seg (m * d.frHop) c v) (d.gainOf i c)
      let g := requantise b f.rqShift z
      let t := d.frChannel i f m c seg false v
      let u := d.frChannel i f m c seg true v
      tget (fun _ => 0) t.front.held key = g.1 + 1 ∧ t.rdN (FR_REQ_SAT i) = min (d.rdN (FR_REQ_SAT i) + g.2) (2 ^ 64 - 1) ∧
      tget (fun _ => 0) u.front.held key = blankCode b + 1 ∧ u.rdN (FR_REQ_SAT i) = d.rdN (FR_REQ_SAT i))

/-! The error queue and the interrupts. -/

/-- An event raised in ERRC becomes one entry, of 32 bytes, with the next SEQ. While fewer than 16 wait it is queued behind them; when 16 wait
it is discarded, LOST is set and LOST_CNT adds one, and the entries queued stay. ER_FIRST takes the first entry raised since it was
cleared, queued or discarded, and LATER counts those after it. -/
def Obligations.ErrorEntriesQueue : Prop :=
  ∀ (d : Dev) (code inst addr info : Nat),
    let e := d.errEntry code inst addr info
    let t := d.raise code inst addr info
    (e.code = code ∧ e.inst = inst % 256 ∧ e.seq = d.errSeq % 2 ^ 32 ∧ e.addr = addr ∧ e.info = info ∧ e.timeS = d.todSec % 2 ^ 32 ∧
      e.timeNs = d.todNs ∧ e.words.length = 4 ∧ t.errSeq = d.errSeq + 1) ∧
    (d.errq.length < 16 → t.errq = d.errq ++ [e] ∧ t.f ER_STAT ER_STAT_LOST = d.f ER_STAT ER_STAT_LOST ∧
      t.f ER_STAT ER_STAT_LOST_CNT = d.f ER_STAT ER_STAT_LOST_CNT ∧ t.f ER_STAT ER_STAT_DEPTH = d.errq.length + 1 ∧
      ∀ k, k < 4 → t.rdN (ER_HEAD k) = ((t.errq.head?.map ErrEntry.words).getD []).getD k 0 % 2 ^ 64) ∧
    (16 ≤ d.errq.length → t.errq = d.errq ∧ t.f ER_STAT ER_STAT_LOST = 1 ∧
      t.f ER_STAT ER_STAT_LOST_CNT = min (d.f ER_STAT ER_STAT_LOST_CNT + 1) 0xFFFF) ∧
    (d.on ER_STAT ER_STAT_FIRST_VALID = true → t.on ER_STAT ER_STAT_FIRST_VALID = true ∧
      t.f ER_STAT ER_STAT_LATER = min (d.f ER_STAT ER_STAT_LATER + 1) 0xFFFFFFFF ∧ ∀ k, k < 4 → t.rdN (ER_FIRST k) = d.rdN (ER_FIRST k)) ∧
    (d.on ER_STAT ER_STAT_FIRST_VALID = false → t.on ER_STAT ER_STAT_FIRST_VALID = true ∧
      t.f ER_STAT ER_STAT_LATER = d.f ER_STAT ER_STAT_LATER ∧ ∀ k, k < 4 → t.rdN (ER_FIRST k) = e.words.getD k 0 % 2 ^ 64)

/-- Raising an entry sets the ERR_SUM bit of its code, bit 0 where it is queued and bit 4 where it is lost, and clears none. ERR_ACK
clears the bits it names, but not bit 0 while an entry is queued nor bit 4 while LOST is set, and sets none. -/
def Obligations.ErrorSummaryBits : Prop :=
  ∀ (d : Dev) (code inst addr info mask i : Nat), i < 8 →
    let v := d.f DEVSTAT DEVSTAT_ERR_SUM
    let listed := (errTable.find? fun r => r.1 == code).bind fun r => r.2.2
    bit ((d.raise code inst addr info).f DEVSTAT DEVSTAT_ERR_SUM) i =
      (bit v i || listed == some i || (i == 0 && decide (d.errq.length < 16)) || (i == 4 && decide (16 ≤ d.errq.length))) ∧
    bit ((d.errAck mask).f DEVSTAT DEVSTAT_ERR_SUM) i =
      (bit v i && (!bit mask i || (i == 0 && !d.errq.isEmpty) || (i == 4 && d.on ER_STAT ER_STAT_LOST)))

/-- DEV_READY and ERR_N follow DEVSTAT: DEV_READY is high in READY, RUN and DEGRADED alone; ERR_N is low while bit 1, 2 or 3 of ERR_SUM is
set and is released by an ERR_ACK of the three; an endpoint reset moves neither. -/
def Obligations.ReadyAndErrorPins : Prop :=
  ∀ (s : State) (kind : Nat),
    let d := s.dev
    (d.devReady = true ↔ d.fwState = FW_READY ∨ d.fwState = FW_RUN ∨ d.fwState = FW_DEGRADED) ∧
    (d.errN = false ↔ bit (d.f DEVSTAT DEVSTAT_ERR_SUM) 1 = true ∨ bit (d.f DEVSTAT DEVSTAT_ERR_SUM) 2 = true ∨
      bit (d.f DEVSTAT DEVSTAT_ERR_SUM) 3 = true) ∧
    (d.errAck 0x0E).errN = true ∧
    ∃ t, exec (.endpointReset kind) s = .next t ∧ t.dev.devReady = d.devReady ∧ t.dev.errN = d.errN

/-- An interrupt cause of PF0 (R359, R376): it sends a message where its INT_EN bit, MSI-X, the vector's mask, D0 and the link allow;
a masked vector sets its pending bit; one that must wait is remembered; and without INT_EN or MSI-X nothing happens. -/
def Obligations.InterruptCauses : Prop :=
  ∀ (d : Dev) (v : Nat),
    let h := d.host
    let wait := h.d3hot || !h.linkUp || bit h.spacing v
    (bit (d.rdN INT_EN) v = false ∨ h.msixEn = false → d.cause v = d) ∧
    (bit (d.rdN INT_EN) v = true → h.msixEn = true →
      (wait = true → d.cause v = { d with host := { h with waiting := h.waiting ||| 2 ^ v } }) ∧
      (wait = false → bit h.msixMask v = true → d.cause v = { d with host := { h with msixPend := h.msixPend ||| 2 ^ v } }) ∧
      (wait = false → bit h.msixMask v = false →
        (d.cause v).out = ⟨.msix, v, []⟩ :: d.out ∧
        (d.cause v).host = (if d.f INT_MOD INT_MOD_MOD_US = 0 then h else { h with spacing := h.spacing ||| 2 ^ v }) ∧
        (d.cause v).regs = d.regs))

/-! The mailbox and the jobs. -/

/-- Firmware checks a command in the order of R365, and one that fails a check is answered with that check's code and changes nothing; a
mailbox that is not served leaves its slots as they are (R367). -/
def Obligations.ChecksInOrder : Prop :=
  ∀ (df : CmdDef) (c : Cmd) (s : State) (slot s0 s1 : Nat),
    let port := c.slot == SMB_SLOT && !smbOpcodes.contains df.op
    let native := df.mode == 1 && s.dev.compat
    let compat := df.mode == 2 && !s.dev.compat
    let word := c.rsv != 0 || rsvSet c (df.masks c) || (c.rdest && (c.slot == SMB_SLOT || rdestBad s.dev c.ext)) || df.bad c s
    (port = true → carryOut df c s = ({ code := .badOpcode }, s)) ∧
    (port = false → native = true → carryOut df c s = ({ code := .nativeOnly }, s)) ∧
    (port = false → compat = true → carryOut df c s = ({ code := .compatOnly }, s)) ∧
    (port = false → native = false → compat = false → word = true → carryOut df c s = ({ code := .badParam }, s)) ∧
    (port = false → native = false → compat = false → word = false → served s.dev.fwState df.op ≠ some true →
      carryOut df c s = ({ code := .badState }, s)) ∧
    (port = false → native = false → compat = false → word = false → served s.dev.fwState df.op = some true →
      carryOut df c s = df.run c s) ∧
    (s.dev.mailServed = false → serve df slot s0 s1 s = s)

/-- The opcodes that firmware carries out are those that Table 12.13 lists, and any other completes with BAD_OPCODE. -/
def Obligations.UnlistedOpcodes : Prop :=
  (∀ op : Nat, (cmdOf op).isSome = listedOp op) ∧
  ∀ (s : State) (k s0 s1 : Nat), s.dev.host.fwq.head? = some k → k ≤ SMB_SLOT → s.dev.mailServed = true →
    listedOp (s.dev.readCmd k s0 s1).op = false →
    exec (.commandTakeUp s0 s1) s = .next (finish (s.dev.readCmd k s0 s1) { code := .badOpcode } s)

/-- The end of a command of a PCIe slot (R363, R364): its completion slot holds opcode, code and sequence number and then the ticket and
the result's length; in one step its DOORBELL bit is cleared and its CPL_STAT bit set, every other slot's bits staying; it leaves the
doorbell order; the flash and the queue stay, and the memories stay where no RDEST was given. -/
def Obligations.CompletionReleasesSlot : Prop :=
  ∀ (c : Cmd) (r : Reply) (s : State), c.slot < 32 → c.rdest = false →
    let t := finish c r s
    t.dev.rdN (CPL_WORD (16 * c.slot)) = c.op % 2 ^ 16 + r.code.num * 2 ^ 16 + c.seq % 2 ^ 8 * 2 ^ 24 ∧
    t.dev.rdN (CPL_WORD (16 * c.slot + 1)) % 2 ^ 16 = r.ticket % 2 ^ 16 ∧
    (∀ k, k < 32 → bit (t.dev.rdN DOORBELL) k = (bit (s.dev.rdN DOORBELL) k && k != c.slot)) ∧
    (∀ k, k < 32 → bit (t.dev.rdN CPL_STAT) k = (bit (s.dev.rdN CPL_STAT) k || k == c.slot)) ∧
    t.dev.host.fwq = s.dev.host.fwq.filter (· != c.slot) ∧ t.mem = s.mem ∧ t.flash = s.flash ∧ t.pending = s.pending ∧
    (c.noIrq = true → t.dev.out = s.dev.out)

/-- The acceptance of a job (R369 to R371): it takes the lowest free index, or where none is free that of a DONE job which no other DONE
job ended before; its generation is one higher modulo 64 than the index last carried; it is QUEUED behind a live job of its unit and
otherwise RUNNING; its JOB_DONE bit is cleared; the status words of other indices stay; and a job that needs an area gets one that no other
job holds. -/
def Obligations.JobsAreAccepted : Prop :=
  ∀ (d e : Dev) (op unit i : Nat) (ps : List Nat) (area clear force : Bool), d.acceptJob op ps unit area clear force = some (i, e) →
    i < 1024 ∧
    ((d.jobState i = 0 ∧ ∀ k, k < i → d.jobState k ≠ 0) ∨
      (d.jobState i = 3 ∧ ∀ k, k < 1024 → d.jobState k ≠ 0 ∧ (d.jobState k = 3 → (d.job i).endOrder ≤ (d.job k).endOrder))) ∧
    (e.job i).gen = ((d.job i).gen + 1) % 64 ∧ e.ticket i = i + (e.job i).gen * 1024 ∧ e.jobOp i = op % 2 ^ 16 ∧ e.jobCount i = 0 ∧
    e.jobState i = (if d.jobs.any (fun p => d.jobLive p.1 && p.2.unit == unit) then 1 else 2) ∧
    e.rdN (JOB_WORD (4 * i + 3)) = (d.rdN (JOB_WORD (4 * i + 3)) + 2) % 2 ^ 32 ∧
    bit (e.rdN (JOB_DONE_BITS (i / 32))) (i % 32) = false ∧
    (∀ k w, k < 1024 → w < 4 → k ≠ i → e.rdN (JOB_WORD (4 * k + w)) = d.rdN (JOB_WORD (4 * k + w)) ∧ e.job k = d.job k) ∧
    (area = false → (e.job i).area = none) ∧
    (area = true → ∃ n, n < 16 ∧ (e.job i).area = some n ∧ ∀ p ∈ d.jobs, p.1 ≠ i → p.2.area ≠ some n)

/-! Resets and power. -/

/-- RESET_N (R455, Table 16.3): a low pulse shorter than 10 µs is ignored; a longer one starts a device reset, after which every register of
the VDD_AUX domain holds what it held and every other its Reset column, every slot is the host's and every job index free (R367), the flash
stands, and the memories of the device are empty (log entry 4). A latched shutdown shows through the reset (R408). -/
def Obligations.ResetPin : Prop :=
  ∀ (n : Nat) (s : State),
    (n < 10000 → exec (.resetN n) s = .next s) ∧
    (10000 ≤ n → s.dev.pwr.auxOn = true → ∃ t, exec (.resetN n) s = .next t ∧ t.flash = s.flash ∧ t.mem = { host := s.mem.host } ∧
      t.pending = s.pending ∧ t.dev.pwr.inReset = true ∧ bit t.dev.pwr.causes CAUSE_PIN = true ∧ t.dev.host.fwq = [] ∧
      t.dev.rdN DOORBELL = 0 ∧ t.dev.jobs = [] ∧
      (s.dev.latched = false → ∀ a, t.dev.rd a = if auxReg a then s.dev.rd a else regReset a) ∧
      (s.dev.latched = true → t.dev.fwState = FW_SHUTDOWN ∧ t.dev.latched = true ∧
        ∀ a, a ≠ DEVSTAT → t.dev.rd a = if auxReg a then s.dev.rd a else regReset a))

/-- The manual's example of a check value (R398): a unit set as CRC-32C that firmware starts and feeds the nine bytes "123456789" as
two words and a byte reads 0xE306_9283, whatever else the device holds. -/
def Obligations.CheckValueExample : Prop :=
  ∀ (s : State) (u : Nat), u < 8 → s.dev.f (CV_CFG u) CV_CFG_WIDTH = 32 → s.dev.on (CV_CFG u) CV_CFG_REFIN = true →
    s.dev.on (CV_CFG u) CV_CFG_REFOUT = true → s.dev.rdN (CV_POLY u) = 0x1EDC6F41 → s.dev.rdN (CV_INIT u) = 0xFFFFFFFF →
    s.dev.rdN (CV_XOROUT u) = 0xFFFFFFFF →
    ∃ s1 s2 s3 s4 s5, exec (.cvStart u 0) s = .next s1 ∧ exec (.cvFeedW u 0 0x34333231) s1 = .next s2 ∧
      exec (.cvFeedW u 0 0x38373635) s2 = .next s3 ∧ exec (.cvFeedB u 0 0x39) s3 = .next s4 ∧ exec (.cvResultRead u) s4 = .next s5 ∧
      s5.dev.host.rsp.kind = .ok ∧ leNat s5.dev.host.rsp.data = 0xE3069283

/-- The debug level: it takes DBG_MIN at a power-on reset and keeps its value through device resets, TEST_EN changing nothing; DEBUG_LOCK
sets it to any value not below DBG_MIN, a lower one completing with BAD_PARAM; lowering it and BURN need CONFIRM; BURN raises DBG_MIN to
the new level. When it is raised, every breakpoint and watchpoint is disabled, every core that QDP halted resumes at its PC, HOLD is
cleared and an access not yet answered is denied; each change enters DEBUG_LEVEL in ERRC. -/
def Obligations.DebugLevel : Prop :=
  ∀ (s : State),
    let level := s.dev.f SC_DBG SC_DBG_LEVEL
    let least := s.dev.f SC_DBG SC_DBG_DBG_MIN
    (∀ straps, ∃ t, exec (.powerOnReset straps) s = .next t ∧ t.dev.f SC_DBG SC_DBG_LEVEL = least ∧ t.dev.f SC_DBG SC_DBG_DBG_MIN = least) ∧
    (∀ n, ∃ t, exec (.resetN n) s = .next t ∧ t.dev.rd SC_DBG = s.dev.rd SC_DBG) ∧
    (∀ recovery testEn xoOk, ∃ t, exec (.deviceResetEnd recovery testEn xoOk) s = .next t ∧ t.dev.rd SC_DBG = s.dev.rd SC_DBG) ∧
    (∀ n, let c := s.dev.readCmd n 0 0
      let l := c.b 0 1 0
      let burn := bit (c.p 0) 2
      (debugLockDef.bad c s = true ↔ l < least ∨ ((l < level ∨ burn = true) ∧ c.b 0 31 16 ≠ 0xA5C3)) ∧
      (debugLockDef.bad c s = true → n < 32 → s.dev.compat = false → carryOut debugLockDef c s = ({ code := .badParam }, s)) ∧
      (ready debugLockDef n 0 0 s = true → ∃ t, exec (.debugLock n) s = .next t ∧ t.dev.f SC_DBG SC_DBG_LEVEL = l ∧
        t.dev.f SC_DBG SC_DBG_DBG_MIN = (if burn then l else least) ∧
        (level < l → t.dev.on SC_WDOG SC_WDOG_HOLD = false ∧ t.dev.tap.late = s.dev.tap.late.map (fun _ => (0, 2)) ∧
          ∀ k, k < 4 → (∀ j, j < 4 → bit (t.dev.rdN (QD_BP k j)) 31 = false) ∧ (∀ j, j < 2 → bit (t.dev.rdN (QD_WP k j 3)) 31 = false) ∧
            (s.dev.coreState k = CORE_HALTED → (s.dev.core k).qhalt ≠ 0 →
              t.dev.coreState k = CORE_RUN ∧ (t.dev.core k).qhalt = 0 ∧ (t.dev.core k).ctx.pc = (s.dev.core k).ctx.pc)) ∧
        (t.dev.rd SC_DBG ≠ s.dev.rd SC_DBG → t.dev.errSeq = s.dev.errSeq + 1 ∧
          (s.dev.errq.length < 16 → ∃ e, t.dev.errq = s.dev.errq ++ [e] ∧ e.code = 0x000E ∧ e.info = l))))

/-- Addresses in the compatibility state: every update sets Pn to the sum modulo 2^16, so that bits [23:16] read zero, whatever Bn and Ln
hold; the address is Pn's low 16 bits, and lies in the bank of the core's memory that the personality has. -/
def Obligations.CompatAddresses : Prop :=
  ∀ (s : State) (c pn mode scale a : Nat) (y : Bool), s.dev.coreCs c = true → (mode = 0 ∨ mode = 1 ∨ mode = 2 ∨ mode = 3) →
    let t := tD (s.core c)
    let p := s.rv c t (RC_P0 + pn)
    let step : Int := if mode = 1 then 1 else if mode = 2 then -1 else sext 24 (s.rv c t (RC_N0 + pn))
    let q := ((p : Int) + step * scale) % 2 ^ 16
    (agu c pn mode scale s).1 = p % 2 ^ 16 ∧
    (mode = 0 → (agu c pn mode scale s).2 = s) ∧
    (mode ≠ 0 → (agu c pn mode scale s).2 = s.rw c t (RC_P0 + pn) q.toNat ∧ q.toNat < 2 ^ 16) ∧
    (a < 2 ^ 16 → y = true ∨ a < 0xFC00 →
      s.place c y a = .word (s.localBase c (if y then 2 else 1) + 4 * (0x10000 * (s.core c).bank + a))) ∧
    (0xFC00 ≤ a → a < 2 ^ 16 → s.place c false a = .page (2 * (s.dev.logicalOf c - 1) + (s.core c).bank) a)
end

