-- ==== Sys2Proof/Laws/Tables.lean ====
section
/-!
SUPPORT. Laws of keyed tables: a read after a write, and the canonical form that every write keeps.
-/
namespace Sys2Proof.Laws
open Sys2Proof (Tbl)
open Sys2Proof.Machine

/-- The keys of a table rise strictly. -/
def Rising {α : Type} (t : Tbl α) : Prop := t.Pairwise fun p q => p.1 < q.1

/-- The canonical form of a table as a proposition. -/
theorem twf_iff {α : Type} [DecidableEq α] (d : Nat → α) (t : Tbl α) :
    twf d t = true ↔ Rising t ∧ ∀ p ∈ t, p.2 ≠ d p.1 := by
  simp [twf, Rising, List.pairwise_map]

theorem tget_filter {α : Type} (d : Nat → α) (k k' : Nat) (h : k' ≠ k) (t : Tbl α) :
    tget d (t.filter fun p => p.1 != k) k' = tget d t k' := by
  induction t with
  | nil => rfl
  | cons p r ih =>
    obtain ⟨a, v⟩ := p
    by_cases ha : a = k
    · subst ha
      simp [tget, ih, Ne.symm h]
    · simp [ha, tget, ih]

theorem tget_filter_self {α : Type} (d : Nat → α) (k : Nat) (t : Tbl α) :
    tget d (t.filter fun p => p.1 != k) k = d k := by
  induction t with
  | nil => rfl
  | cons p r ih =>
    obtain ⟨a, v⟩ := p
    by_cases ha : a = k
    · simp [ha, ih]
    · simp [ha, tget, ih]

theorem tget_tins {α : Type} (d : Nat → α) (k k' : Nat) (v : α) (t : Tbl α) (h : ∀ p ∈ t, p.1 ≠ k) :
    tget d (tins k v t) k' = if k = k' then v else tget d t k' := by
  induction t with
  | nil => simp [tins, tget]
  | cons p r ih =>
    obtain ⟨a, w⟩ := p
    have ha : a ≠ k := h (a, w) (by simp)
    have hr := ih fun q hq => h q (by simp [hq])
    by_cases hk : k < a
    · simp [tins, hk, tget]
    · by_cases hka : a = k'
      · have : k ≠ k' := by rw [← hka]; exact Ne.symm ha
        subst hka
        simp [tins, hk, tget, this]
      · simp [tins, hk, tget, hka, hr]

/-- A key reads as the value it was given, and every other key as before. -/
theorem tget_tset {α : Type} [DecidableEq α] (d : Nat → α) (t : Tbl α) (k k' : Nat) (v : α) :
    tget d (tset d t k v) k' = if k = k' then v else tget d t k' := by
  by_cases hv : v = d k
  · by_cases hk : k = k'
    · subst hk; simp [tset, hv, tget_filter_self]
    · simp [tset, hv, hk, tget_filter d k k' (Ne.symm hk)]
  · have hp : ∀ p ∈ t.filter (fun p => p.1 != k), p.1 ≠ k := by
      intro p hp; simpa using (List.mem_filter.mp hp).2
    simp only [tset, hv, if_false, tget_tins d k k' v _ hp]
    by_cases hk : k = k'
    · simp [hk]
    · simp [hk, tget_filter d k k' (Ne.symm hk)]

@[simp] theorem tget_tset_self {α : Type} [DecidableEq α] (d : Nat → α) (t : Tbl α) (k : Nat) (v : α) :
    tget d (tset d t k v) k = v := by simp [tget_tset]

theorem tget_tset_ne {α : Type} [DecidableEq α] (d : Nat → α) (t : Tbl α) {k k' : Nat} (v : α) (h : k ≠ k') :
    tget d (tset d t k v) k' = tget d t k' := by simp [tget_tset, h]

theorem rising_filter {α : Type} {t : Tbl α} (f : Nat × α → Bool) (h : Rising t) : Rising (t.filter f) :=
  List.Pairwise.filter f h

theorem mem_tins {α : Type} {k : Nat} {v : α} {t : Tbl α} {p : Nat × α} (h : p ∈ tins k v t) :
    p = (k, v) ∨ p ∈ t := by
  induction t with
  | nil => simpa [tins] using h
  | cons q r ih =>
    obtain ⟨a, w⟩ := q
    by_cases hk : k < a
    · simpa [tins, hk] using h
    · simp only [tins, hk, if_false, List.mem_cons] at h
      rcases h with rfl | h
      · simp
      · rcases ih h with h | h <;> simp [h]

theorem rising_tins {α : Type} {k : Nat} {v : α} {t : Tbl α} (h : Rising t) (hk : ∀ p ∈ t, p.1 ≠ k) :
    Rising (tins k v t) := by
  induction t with
  | nil => simp [tins, Rising]
  | cons q r ih =>
    obtain ⟨a, w⟩ := q
    obtain ⟨h1, h2⟩ := List.pairwise_cons.mp h
    have ha : a ≠ k := hk (a, w) (by simp)
    by_cases hlt : k < a
    · simp only [tins, hlt, if_true]
      refine List.pairwise_cons.mpr ⟨fun p hp => ?_, h⟩
      rcases List.mem_cons.mp hp with rfl | hp
      · exact hlt
      · exact Nat.lt_trans hlt (h1 p hp)
    · simp only [tins, hlt, if_false]
      refine List.pairwise_cons.mpr ⟨fun p hp => ?_, ih h2 fun p hp => hk p (by simp [hp])⟩
      rcases mem_tins hp with rfl | hp
      · simp; omega
      · exact h1 p hp

/-- Writing one key keeps the canonical form. -/
theorem twf_tset {α : Type} [DecidableEq α] {d : Nat → α} {t : Tbl α} (k : Nat) (v : α) (h : twf d t = true) :
    twf d (tset d t k v) = true := by
  rw [twf_iff] at h ⊢
  obtain ⟨hr, hd⟩ := h
  have hf : Rising (t.filter fun p => p.1 != k) := rising_filter _ hr
  by_cases hv : v = d k
  · simp only [tset, hv, if_true]
    exact ⟨hf, fun p hp => hd p (List.mem_filter.mp hp).1⟩
  · simp only [tset, hv, if_false]
    have hk : ∀ p ∈ t.filter (fun p => p.1 != k), p.1 ≠ k := by
      intro p hp; simpa using (List.mem_filter.mp hp).2
    refine ⟨rising_tins hf hk, fun p hp => ?_⟩
    rcases mem_tins hp with rfl | hp
    · exact hv
    · exact hd p (List.mem_filter.mp hp).1

/-- Entries taken out keep the canonical form. -/
theorem twf_filter {α : Type} [DecidableEq α] {d : Nat → α} {t : Tbl α} (f : Nat × α → Bool) (h : twf d t = true) :
    twf d (t.filter f) = true := by
  rw [twf_iff] at h ⊢
  exact ⟨rising_filter f h.1, fun p hp => h.2 p (List.mem_filter.mp hp).1⟩

theorem tget_eq_default {α : Type} {d : Nat → α} {t : Tbl α} {k : Nat} (h : ∀ p ∈ t, k < p.1) : tget d t k = d k := by
  induction t with
  | nil => rfl
  | cons p r ih =>
    obtain ⟨a, v⟩ := p
    have h1 : a ≠ k := by have := h (a, v) (by simp); simp at this; omega
    simp [tget, h1, ih fun q hq => h q (by simp [hq])]

/-- Two canonical tables that read alike are the same table. -/
theorem twf_ext {α : Type} [DecidableEq α] {d : Nat → α} {t u : Tbl α} (ht : twf d t = true) (hu : twf d u = true)
    (h : ∀ k, tget d t k = tget d u k) : t = u := by
  rw [twf_iff] at ht hu
  obtain ⟨ht, htd⟩ := ht
  obtain ⟨hu, hud⟩ := hu
  induction t generalizing u with
  | nil =>
    cases u with
    | nil => rfl
    | cons q r =>
      have := h q.1
      simp [tget] at this
      exact absurd this.symm (hud q (by simp))
  | cons p r ih =>
    cases u with
    | nil =>
      have := h p.1
      simp [tget] at this
      exact absurd this (htd p (by simp))
    | cons q s =>
      obtain ⟨a, v⟩ := p
      obtain ⟨b, w⟩ := q
      obtain ⟨h1, h2⟩ := List.pairwise_cons.mp ht
      obtain ⟨h3, h4⟩ := List.pairwise_cons.mp hu
      have hab : a = b := by
        rcases Nat.lt_trichotomy a b with hl | he | hl
        · have e := h a
          rw [show tget d ((b, w) :: s) a = d a from tget_eq_default fun p hp => by
            rcases List.mem_cons.mp hp with rfl | hp
            · exact hl
            · exact Nat.lt_trans hl (h3 p hp)] at e
          simp [tget] at e
          exact absurd e (htd (a, v) (by simp))
        · exact he
        · have e := h b
          rw [show tget d ((a, v) :: r) b = d b from tget_eq_default fun p hp => by
            rcases List.mem_cons.mp hp with rfl | hp
            · exact hl
            · exact Nat.lt_trans hl (h1 p hp)] at e
          simp [tget] at e
          exact absurd e.symm (hud (b, w) (by simp))
      subst hab
      have hvw : v = w := by have := h a; simpa [tget] using this
      subst hvw
      congr 1
      refine ih (fun k => ?_) h2 (fun p hp => htd p (by simp [hp])) h4 (fun p hp => hud p (by simp [hp]))
      by_cases hk : a = k
      · subst hk
        rw [tget_eq_default h1, tget_eq_default h3]
      · have := h k
        simpa [tget, hk] using this

end Sys2Proof.Laws
end

