-- ==== Sys2Proof/Laws/Fields.lean ====
section
/-!
SUPPORT. Laws of register fields: what a field reads after a write of the same or of another field, and what registers read after
a register is written.
-/
namespace Sys2Proof.Laws
open Sys2Proof (Word64 Tbl)
open Sys2Proof.Machine

/-- A field lies within 64 bits and is not empty. -/
def FldOk (f : Fld) : Prop := f.lo ≤ f.hi ∧ f.hi < 64

theorem getF_testBit (f : Fld) (x : Word64) (j : Nat) :
    (getF f x).testBit j = (decide (j < f.hi + 1 - f.lo) && x.toNat.testBit (f.lo + j)) := by
  simp [getF, Nat.testBit_mod_two_pow, Nat.testBit_div_two_pow, Nat.add_comm]

theorem putF_toNat (f : Fld) (h : FldOk f) (v : Nat) (x : Word64) :
    (putF f v x).toNat = 2 ^ (f.hi + 1) * (x.toNat / 2 ^ (f.hi + 1)) +
      (2 ^ f.lo * (v % 2 ^ (f.hi + 1 - f.lo)) + x.toNat % 2 ^ f.lo) := by
  obtain ⟨h1, h2⟩ := h
  have hx := x.isLt
  have e : 2 ^ (f.hi + 1) = 2 ^ f.lo * 2 ^ (f.hi + 1 - f.lo) := by rw [← Nat.pow_add]; congr 1; omega
  have hlow : 2 ^ f.lo * (v % 2 ^ (f.hi + 1 - f.lo)) + x.toNat % 2 ^ f.lo < 2 ^ (f.hi + 1) := by
    have a := Nat.mod_lt v (Nat.two_pow_pos (f.hi + 1 - f.lo))
    have b := Nat.mod_lt x.toNat (Nat.two_pow_pos f.lo)
    calc _ < 2 ^ f.lo * (v % 2 ^ (f.hi + 1 - f.lo)) + 2 ^ f.lo := by omega
      _ = 2 ^ f.lo * (v % 2 ^ (f.hi + 1 - f.lo) + 1) := by rw [Nat.mul_add, Nat.mul_one]
      _ ≤ 2 ^ f.lo * 2 ^ (f.hi + 1 - f.lo) := Nat.mul_le_mul_left _ a
      _ = _ := e.symm
  have e64 : (2 : Nat) ^ 64 = 2 ^ (f.hi + 1) * 2 ^ (63 - f.hi) := by rw [← Nat.pow_add]; congr 1; omega
  have hdiv : x.toNat / 2 ^ (f.hi + 1) < 2 ^ (63 - f.hi) := by
    rw [Nat.div_lt_iff_lt_mul (Nat.two_pow_pos _), Nat.mul_comm, ← e64]; exact hx
  have hall : 2 ^ (f.hi + 1) * (x.toNat / 2 ^ (f.hi + 1)) +
      (2 ^ f.lo * (v % 2 ^ (f.hi + 1 - f.lo)) + x.toNat % 2 ^ f.lo) < 2 ^ 64 := by
    rw [e64]
    calc _ < 2 ^ (f.hi + 1) * (x.toNat / 2 ^ (f.hi + 1)) + 2 ^ (f.hi + 1) := Nat.add_lt_add_left hlow _
      _ = 2 ^ (f.hi + 1) * (x.toNat / 2 ^ (f.hi + 1) + 1) := by rw [Nat.mul_add, Nat.mul_one]
      _ ≤ _ := Nat.mul_le_mul_left _ hdiv
  have eq : x.toNat % 2 ^ f.lo + v % 2 ^ (f.hi + 1 - f.lo) * 2 ^ f.lo + x.toNat / 2 ^ (f.hi + 1) * 2 ^ (f.hi + 1) =
      2 ^ (f.hi + 1) * (x.toNat / 2 ^ (f.hi + 1)) +
        (2 ^ f.lo * (v % 2 ^ (f.hi + 1 - f.lo)) + x.toNat % 2 ^ f.lo) := by
    rw [Nat.mul_comm (v % _), Nat.mul_comm (x.toNat / _)]; omega
  simp only [putF, BitVec.toNat_ofNat, eq]
  exact Nat.mod_eq_of_lt hall

/-- Each bit of a register after a field is written. -/
theorem putF_testBit (f : Fld) (h : FldOk f) (v : Nat) (x : Word64) (i : Nat) :
    (putF f v x).toNat.testBit i =
      if f.lo ≤ i ∧ i ≤ f.hi then v.testBit (i - f.lo) else x.toNat.testBit i := by
  have h' := h
  obtain ⟨h1, h2⟩ := h
  have b := Nat.mod_lt x.toNat (Nat.two_pow_pos f.lo)
  have e : 2 ^ (f.hi + 1) = 2 ^ f.lo * 2 ^ (f.hi + 1 - f.lo) := by rw [← Nat.pow_add]; congr 1; omega
  have hlow : 2 ^ f.lo * (v % 2 ^ (f.hi + 1 - f.lo)) + x.toNat % 2 ^ f.lo < 2 ^ (f.hi + 1) := by
    have a := Nat.mod_lt v (Nat.two_pow_pos (f.hi + 1 - f.lo))
    calc _ < 2 ^ f.lo * (v % 2 ^ (f.hi + 1 - f.lo)) + 2 ^ f.lo := by omega
      _ = 2 ^ f.lo * (v % 2 ^ (f.hi + 1 - f.lo) + 1) := by rw [Nat.mul_add, Nat.mul_one]
      _ ≤ 2 ^ f.lo * 2 ^ (f.hi + 1 - f.lo) := Nat.mul_le_mul_left _ a
      _ = _ := e.symm
  rw [putF_toNat f h', Nat.testBit_two_pow_mul_add _ hlow]
  by_cases hi : i < f.hi + 1
  · simp only [hi, if_true, Nat.testBit_two_pow_mul_add _ b]
    by_cases hl : i < f.lo
    · have : ¬ (f.lo ≤ i ∧ i ≤ f.hi) := by omega
      simp [hl, this, Nat.testBit_mod_two_pow]
    · have : f.lo ≤ i ∧ i ≤ f.hi := by omega
      have h3 : i - f.lo < f.hi + 1 - f.lo := by omega
      simp [hl, this, Nat.testBit_mod_two_pow, h3]
  · have : ¬ (f.lo ≤ i ∧ i ≤ f.hi) := by omega
    have h3 : i - (f.hi + 1) + (f.hi + 1) = i := by omega
    simp [hi, this, Nat.testBit_div_two_pow, h3]

/-- A field reads what was written to it, its higher bits dropped. -/
theorem getF_putF (f : Fld) (h : FldOk f) (v : Nat) (x : Word64) :
    getF f (putF f v x) = v % 2 ^ (f.hi + 1 - f.lo) := by
  apply Nat.eq_of_testBit_eq
  intro j
  rw [getF_testBit, putF_testBit f h, Nat.testBit_mod_two_pow]
  obtain ⟨h1, h2⟩ := h
  by_cases hj : j < f.hi + 1 - f.lo
  · have : f.lo ≤ f.lo + j ∧ f.lo + j ≤ f.hi := by omega
    simp [hj, this]
  · simp [hj]

/-- A field reads as before after a write of a field that shares no bit with it. -/
theorem getF_putF_ne (f g : Fld) (h : FldOk f) (hd : g.hi < f.lo ∨ f.hi < g.lo) (v : Nat) (x : Word64) :
    getF g (putF f v x) = getF g x := by
  apply Nat.eq_of_testBit_eq
  intro j
  rw [getF_testBit, getF_testBit, putF_testBit f h]
  by_cases hj : j < g.hi + 1 - g.lo
  · have : ¬ (f.lo ≤ g.lo + j ∧ g.lo + j ≤ f.hi) := by omega
    simp [this]
  · simp [hj]

/-- A field is below two to its width. -/
theorem getF_lt (f : Fld) (x : Word64) : getF f x < 2 ^ (f.hi + 1 - f.lo) := Nat.mod_lt _ (Nat.two_pow_pos _)

/-! Registers. -/

/-- A register reads the value it was given, and every other register as before. -/
theorem rd_wr (d : Dev) (a b : Nat) (v : Word64) : (d.wr a v).rd b = if a = b then v else d.rd b := by
  simp [Dev.rd, Dev.wr, tget_tset]

@[simp] theorem rd_wr_self (d : Dev) (a : Nat) (v : Word64) : (d.wr a v).rd a = v := by simp [rd_wr]

theorem rd_wr_ne (d : Dev) {a b : Nat} (v : Word64) (h : a ≠ b) : (d.wr a v).rd b = d.rd b := by simp [rd_wr, h]

theorem rdN_wrN (d : Dev) (a b v : Nat) : (d.wrN a v).rdN b = if a = b then v % 2 ^ 64 else d.rdN b := by
  by_cases h : a = b <;> simp [Dev.rdN, Dev.wrN, rd_wr, h]

@[simp] theorem rdN_wrN_self (d : Dev) (a v : Nat) : (d.wrN a v).rdN a = v % 2 ^ 64 := by simp [rdN_wrN]

theorem rdN_wrN_ne (d : Dev) {a b : Nat} (v : Nat) (h : a ≠ b) : (d.wrN a v).rdN b = d.rdN b := by simp [rdN_wrN, h]

theorem rd_setF_ne (d : Dev) {a b : Nat} (f : Fld) (v : Nat) (h : a ≠ b) : (d.setF a f v).rd b = d.rd b :=
  rd_wr_ne d _ h

/-- A field written reads the value, its higher bits dropped. -/
theorem f_setF (d : Dev) (a : Nat) (f : Fld) (h : FldOk f) (v : Nat) :
    (d.setF a f v).f a f = v % 2 ^ (f.hi + 1 - f.lo) := by
  simp [Dev.f, Dev.setF, getF_putF f h]

theorem f_setF_ne (d : Dev) (a : Nat) (f g : Fld) (h : FldOk f) (hd : g.hi < f.lo ∨ f.hi < g.lo) (v : Nat) :
    (d.setF a f v).f a g = d.f a g := by
  simp [Dev.f, Dev.setF, getF_putF_ne f g h hd]

theorem f_setF_reg (d : Dev) {a b : Nat} (f g : Fld) (v : Nat) (h : a ≠ b) : (d.setF a f v).f b g = d.f b g := by
  simp [Dev.f, rd_setF_ne d f v h]

/-- A counter goes up and stays at all ones (R20). -/
theorem rdN_cnt (d : Dev) (a n : Nat) : (d.cnt a n).rdN a = min (d.rdN a + n) (2 ^ 64 - 1) := by
  rw [Dev.cnt, rdN_wrN_self, satAdd]
  exact Nat.mod_eq_of_lt (by omega)

theorem rd_cnt_ne (d : Dev) {a b : Nat} (n : Nat) (h : a ≠ b) : (d.cnt a n).rd b = d.rd b := rd_wr_ne d _ h

/-- A counter in a field goes up and stays at all ones (R20). -/
theorem f_cntF (d : Dev) (a : Nat) (f : Fld) (h : FldOk f) (n : Nat) :
    (d.cntF a f n).f a f = min (d.f a f + n) (2 ^ (f.hi + 1 - f.lo) - 1) := by
  rw [Dev.cntF, f_setF d a f h, satAdd]
  have := Nat.two_pow_pos (f.hi + 1 - f.lo)
  exact Nat.mod_eq_of_lt (by omega)

end Sys2Proof.Laws
end

