-- ==== Sys2Proof/Laws/Memory.lean ====
section
/-!
SUPPORT. Laws of the memories: reads after writes, and that every operation keeps the canonical form.
-/
namespace Sys2Proof.Laws
open Sys2Proof (Byte Tbl Config.hostByte)
open Sys2Proof.Machine

theorem memWf_iff (m : Mem) : m.wf = true ↔
    twf memReset m.bytes = true ∧ twf (fun _ => false) m.poison = true ∧ twf (fun _ => 0) m.soft = true ∧
      twf Config.hostByte m.host = true := by
  simp [Mem.wf, and_assoc]

/-- Empty memories are canonical. -/
theorem memWf_empty : ({} : Mem).wf = true := by simp [memWf_iff, twf]

theorem memWf_hostOnly {m : Mem} (h : m.wf = true) : ({ host := m.host } : Mem).wf = true := by
  rw [memWf_iff] at h ⊢
  exact ⟨rfl, rfl, rfl, h.2.2.2⟩

/-- Bytes put into a table keep its form. -/
theorem twf_putBytes (d : Nat → Byte) (bs : List Nat) : ∀ (t : List Host.Cell) (a : Nat), twf d t = true →
    twf d (putBytes d t a bs) = true := by
  induction bs with
  | nil => intro t a h; exact h
  | cons b bs ih => intro t a h; exact ih _ _ (twf_tset _ _ h)

/-- A byte reads as the one put there, and every byte outside the range as before. -/
theorem tget_putBytes (d : Nat → Byte) (bs : List Nat) : ∀ (t : List Host.Cell) (a k : Nat),
    tget d (putBytes d t a bs) k =
      if a ≤ k ∧ k < a + bs.length then BitVec.ofNat 8 (bs.getD (k - a) 0) else tget d t k := by
  induction bs with
  | nil => intro t a k; rw [if_neg (by simp only [List.length_nil]; omega)]; rfl
  | cons b bs ih =>
    intro t a k
    rw [putBytes, ih, tget_tset]
    by_cases h1 : a + 1 ≤ k ∧ k < a + 1 + bs.length
    · have h2 : a ≤ k ∧ k < a + (b :: bs).length := by simp; omega
      have h3 : k - a = (k - (a + 1)) + 1 := by omega
      rw [if_pos h1, if_pos h2, h3, List.getD_cons_succ]
    · by_cases h4 : a = k
      · subst h4
        have h2 : a ≤ a ∧ a < a + (b :: bs).length := by simp
        rw [if_neg h1, if_pos h2, if_pos rfl]
        simp
      · have h2 : ¬ (a ≤ k ∧ k < a + (b :: bs).length) := by simp; omega
        simp only [h1, h2, if_false, h4]

theorem memWf_wr {m : Mem} (a : Nat) (bs : List Nat) (h : m.wf = true) : (m.wr a bs).wf = true := by
  rw [memWf_iff] at h ⊢
  exact ⟨twf_putBytes _ _ _ _ h.1, h.2⟩

theorem memWf_setSoft {m : Mem} (k a v : Nat) (h : m.wf = true) : (m.setSoft k a v).wf = true := by
  rw [memWf_iff] at h ⊢
  exact ⟨h.1, h.2.1, twf_tset _ _ h.2.2.1, h.2.2.2⟩

theorem memWf_poison {m : Mem} (g : Nat) (p : Bool) (h : m.wf = true) :
    ({ m with poison := tset (fun _ => false) m.poison g p } : Mem).wf = true := by
  rw [memWf_iff] at h ⊢
  exact ⟨h.1, twf_tset _ _ h.2.1, h.2.2⟩

theorem memWf_mark {m : Mem} (g : Nat) (p : Bool) (h : m.wf = true) : (m.mark g p).wf = true :=
  memWf_poison g p (memWf_setSoft _ _ _ h)

theorem memWf_zero {m : Mem} (a n : Nat) (h : m.wf = true) : (m.zero a n).wf = true := by
  rw [memWf_iff] at h ⊢
  exact ⟨twf_filter _ h.1, twf_filter _ h.2.1, twf_filter _ h.2.2.1, h.2.2.2⟩

/-- A property that every step of a fold keeps holds at its end. -/
theorem foldl_keeps {α β : Type} (P : β → Prop) (f : β → α → β) (hf : ∀ b a, P b → P (f b a)) (l : List α) :
    ∀ b, P b → P (l.foldl f b) := by
  induction l with
  | nil => intro b h; exact h
  | cons x xs ih => intro b h; exact ih _ (hf _ _ h)

theorem memWf_marks (l : List Nat) (f : Mem → Nat → Bool) {m : Mem} (h : m.wf = true) :
    (l.foldl (fun q g => q.mark g (f q g)) m).wf = true :=
  foldl_keeps (fun q : Mem => q.wf = true) _ (fun _ _ hb => memWf_mark _ _ hb) l m h

theorem memWf_store {m : Mem} (a : Nat) (bs : List Nat) (p : Bool) (h : m.wf = true) : (m.store a bs p).wf = true :=
  foldl_keeps (fun q : Mem => q.wf = true) _ (fun _ _ hb => memWf_mark _ _ hb) _ _ (memWf_wr _ _ h)

theorem memWf_wrHost {m : Mem} (a : Nat) (bs : List Nat) (h : m.wf = true) : (m.wrHost a bs).wf = true := by
  rw [memWf_iff] at h ⊢
  exact ⟨h.1, h.2.1, h.2.2.1, twf_putBytes _ _ _ _ h.2.2.2⟩

theorem memWf_write (d : Dev) {m : Mem} (a : Nat) (bs : List Nat) (p : Bool) (h : m.wf = true) :
    (memWrite d m a bs p).2.wf = true := by
  unfold memWrite
  split
  · exact memWf_store _ _ _ h
  · exact memWf_store _ _ _ h
  · split
    · exact foldl_keeps (fun q : Mem => q.wf = true) _ (fun _ _ hb => memWf_store _ _ _ hb) _ _ h
    · exact memWf_store _ _ _ h
  · split
    · exact foldl_keeps (fun q : Mem => q.wf = true) _ (fun _ _ hb => memWf_store _ _ _ hb) _ _ h
    · exact memWf_store _ _ _ h
  · split
    · by_cases hp : p = true
      · simp [hp, h]
      · simp [hp, memWf_wrHost _ _ h]
    · exact h
  · exact h

theorem memWf_upset {m : Mem} (ecc : List (Nat × Nat)) (h : m.wf = true) : (m.upset ecc).wf = true :=
  foldl_keeps (fun q : Mem => q.wf = true) _ (fun _ _ hb => memWf_setSoft _ _ _ hb) _ _ h

theorem memWf_eccRead1 {x : Dev × Mem} (g : Nat) (h : x.2.wf = true) : (eccRead1 x g).2.wf = true := by
  unfold eccRead1
  dsimp only
  split
  · exact h
  · split
    · exact h
    · exact memWf_mark _ _ h
  · split <;> exact h

theorem memWf_eccRead {x : Dev × Mem} (a n : Nat) (h : x.2.wf = true) : (eccRead x a n).2.wf = true :=
  foldl_keeps (fun q : Dev × Mem => q.2.wf = true) _ (fun _ _ hb => memWf_eccRead1 _ hb) _ _ h

theorem memWf_eccWrite {x : Dev × Mem} (a n : Nat) (p : Bool) (h : x.2.wf = true) : (eccWrite x a n p).2.wf = true := by
  refine foldl_keeps (fun q : Dev × Mem => q.2.wf = true) _ (fun b g hb => ?_) _ _ h
  dsimp only
  split
  · split <;> exact hb
  · split
    · exact memWf_eccRead1 _ hb
    · exact memWf_eccRead1 _ hb

/-- Each byte of the memories after bytes are stored without regard to poison. -/
theorem rd8_wr (m : Mem) (a : Nat) (bs : List Nat) (k : Nat) :
    (m.wr a bs).rd8 k = if a ≤ k ∧ k < a + bs.length then bs.getD (k - a) 0 % 256 else m.rd8 k := by
  simp only [Mem.rd8, Mem.wr, tget_putBytes]
  split <;> simp

@[simp] theorem mark_bytes (m : Mem) (g : Nat) (p : Bool) : (m.mark g p).bytes = m.bytes := rfl

theorem marks_bytes (l : List Nat) (f : Mem → Nat → Bool) (m : Mem) :
    (l.foldl (fun q g => q.mark g (f q g)) m).bytes = m.bytes := by
  induction l generalizing m with
  | nil => rfl
  | cons x xs ih => simp [List.foldl, ih]

/-- Each byte of the memories after a store: the stored bytes, and every other byte as before. -/
theorem rd8_store (m : Mem) (a : Nat) (bs : List Nat) (p : Bool) (k : Nat) :
    (m.store a bs p).rd8 k = if a ≤ k ∧ k < a + bs.length then bs.getD (k - a) 0 % 256 else m.rd8 k := by
  rw [← rd8_wr]
  have e : (m.store a bs p).bytes = (m.wr a bs).bytes := marks_bytes _ _ _
  simp [Mem.rd8, e]

end Sys2Proof.Laws
end

