-- ==== Sys2Proof/Laws/Frame.lean ====
section
/-!
SUPPORT. What the operations on whole states leave alone: the queue, the flash and the canonical form of the memories. One lemma
per operation; the operations that only change the device need none.
-/
namespace Sys2Proof.Laws
open Sys2Proof.Machine

/-- The queue is the same, and memories that were canonical still are. -/
structure Calm (s t : State) : Prop where
  pending : t.pending = s.pending
  mem : s.mem.wf = true → t.mem.wf = true

/-- The queue and the flash are the same, and memories that were canonical still are. -/
structure Frame (s t : State) : Prop extends Calm s t where
  flash : t.flash = s.flash

theorem Frame.refl (s : State) : Frame s s := ⟨⟨rfl, id⟩, rfl⟩

theorem Frame.trans {s t u : State} (h : Frame s t) (k : Frame t u) : Frame s u :=
  ⟨⟨k.pending.trans h.pending, fun m => k.mem (h.mem m)⟩, k.flash.trans h.flash⟩

theorem Calm.refl (s : State) : Calm s s := ⟨rfl, id⟩

theorem Calm.trans {s t u : State} (h : Calm s t) (k : Calm t u) : Calm s u :=
  ⟨k.pending.trans h.pending, fun m => k.mem (h.mem m)⟩

/-- A change of the device alone. -/
theorem Frame.dev (s : State) (d : Dev) : Frame s { s with dev := d } := ⟨⟨rfl, id⟩, rfl⟩

/-- A change of the device after another operation. -/
theorem Frame.andDev {s t : State} (h : Frame s t) (d : Dev) : Frame s { t with dev := d } := h.trans (Frame.dev t d)

/-- A change of the memories and the device that keeps the canonical form. -/
theorem Frame.mems (s : State) (m : Mem) (d : Dev) (h : s.mem.wf = true → m.wf = true) :
    Frame s { s with mem := m, dev := d } := ⟨⟨rfl, h⟩, rfl⟩

theorem frame_foldl {α : Type} (f : State → α → State) (hf : ∀ s a, Frame s (f s a)) (l : List α) :
    ∀ s, Frame s (l.foldl f s) := by
  induction l with
  | nil => intro s; exact Frame.refl s
  | cons x xs ih => intro s; exact (hf s x).trans (ih _)

theorem Frame.ite {s a b : State} (c : Prop) [Decidable c] (ha : Frame s a) (hb : Frame s b) : Frame s (if c then a else b) := by
  split <;> assumption

theorem Frame.ite2 {α : Type} {s : State} {a b : α × State} (c : Prop) [Decidable c] (ha : Frame s a.2) (hb : Frame s b.2) :
    Frame s (if c then a else b).2 := by split <;> assumption

theorem Frame.ite3 {α β : Type} {s : State} {a b : α × β × State} (c : Prop) [Decidable c] (ha : Frame s a.2.2)
    (hb : Frame s b.2.2) : Frame s (if c then a else b).2.2 := by split <;> assumption

/-! The matrix and the DMA channels. -/

theorem frame_answer (s : State) (r : Rsp) : Frame s (s.answer r) := Frame.dev _ _

theorem frame_regAccess (a n : Nat) (s : State) : Frame s (regAccess a n s).2 := by
  unfold regAccess
  dsimp only
  repeat' split
  all_goals exact ⟨⟨rfl, id⟩, rfl⟩

theorem frame_busRead (m a n : Nat) (s : State) : Frame s (busRead m a n s).2 := by
  unfold busRead
  dsimp only
  split
  · exact Frame.dev _ _
  · split
    · exact Frame.dev _ _
    · exact frame_regAccess _ _ _
    · exact frame_regAccess _ _ _
    · split
      · exact Frame.dev _ _
      · exact Frame.mems _ _ _ (memWf_eccRead (x := (s.dev, s.mem)) _ _)
    · split
      · exact Frame.dev _ _
      · exact Frame.mems _ _ _ (memWf_eccRead (x := (s.dev, s.mem)) _ _)
    · exact Frame.mems _ _ _ (memWf_eccRead (x := (s.dev, s.mem)) _ _)
    · exact Frame.mems _ _ _ (memWf_eccRead (x := (s.dev, s.mem)) _ _)
    · exact Frame.refl _
    · exact Frame.refl _

theorem frame_reread (n : Nat) (s : State) : Frame s (reread n s).2 := frame_busRead _ _ _ _

theorem frame_dmaResume (n : Nat) (s : State) : Frame s (dmaResume n s) := by
  unfold dmaResume
  dsimp only
  split
  · exact Frame.dev _ _
  · split
    · split
      · exact (frame_reread n s).andDev _
      · split
        · exact frame_reread n s
        · exact (frame_reread n s).andDev _
    · exact Frame.dev _ _

theorem frame_writeActs (who : Nat) (r : RegRow) (a mask v : Nat) (old s : State) : Frame s (writeActs who r a mask v old s) := by
  unfold writeActs
  dsimp only
  iterate 16 (refine iteInduction (motive := Frame s) (fun _ => ?_) (fun _ => ?_); · (repeat' split) <;> exact ⟨⟨rfl, id⟩, rfl⟩)
  refine iteInduction (motive := Frame s) (fun _ => ?_) (fun _ => ?_)
  · have h1 : Frame s (if bit (v &&& mask) 0 = true then { s with dev := s.dev.dmaStart ((a - DC_CTRL 0) / 0x100) } else s) :=
      Frame.ite _ (Frame.dev _ _) (Frame.refl _)
    have h2 := Frame.ite (bit (v &&& mask) 1 = true) (h1.trans (frame_dmaResume ((a - DC_CTRL 0) / 0x100) _)) h1
    exact Frame.ite _ (h2.andDev _) h2
  · split <;> exact ⟨⟨rfl, id⟩, rfl⟩

theorem frame_regWrite (who a n v : Nat) (s : State) : Frame s (regWrite who a n v s).2 := by
  unfold regWrite
  dsimp only
  repeat' split
  all_goals first
    | exact ⟨⟨rfl, id⟩, rfl⟩
    | exact (Frame.dev _ _).trans (frame_writeActs _ _ _ _ _ _ _)

theorem memWf_hits (l : List Nat) {m : Mem} (h : m.wf = true) : (l.foldl (fun q g => q.mark g true) m).wf = true :=
  memWf_marks l (fun _ _ => true) h

theorem frame_busWrite (m a : Nat) (bs : List Nat) (lanes : List Bool) (s : State) : Frame s (busWrite m a bs lanes s).2 := by
  unfold busWrite
  dsimp only
  split
  · exact Frame.dev _ _
  · split
    · exact Frame.dev _ _
    · exact Frame.dev _ _
    · split
      · exact Frame.dev _ _
      · exact frame_regWrite _ _ _ _ _
    · split
      · exact Frame.dev _ _
      · exact frame_regWrite _ _ _ _ _
    · exact Frame.mems s _ s.dev (memWf_write _ _ _ _)
    all_goals
      refine Frame.mems _ _ _ fun h => memWf_hits _ (memWf_write _ _ _ _ ?_)
      split
      · exact h
      · exact memWf_eccWrite (x := (s.dev, s.mem)) _ _ _ h

theorem frame_sgRead (n a : Nat) (s : State) : Frame s (sgRead n a s).2 := frame_busRead _ _ _ _

theorem frame_sgRuns (n f : Nat) : ∀ (a left : Nat) (acc : List (Nat × Nat)) (s : State), Frame s (sgRuns n f a left acc s).2.2 := by
  induction f with
  | zero => intro a left acc s; exact Frame.refl s
  | succ f ih =>
    intro a left acc s
    unfold sgRuns
    dsimp only
    split
    · exact Frame.refl s
    · split
      · exact frame_sgRead _ _ _
      · repeat' split
        all_goals first
          | exact frame_sgRead _ _ _
          | exact (frame_sgRead _ _ _).trans (ih _ _ _ _)

theorem frame_copyBursts (n : Nat) (l : List (Nat × Nat × Nat)) : ∀ (x y : Nat) (s : State),
    Frame s (copyBursts n l x y s).2.2 := by
  induction l with
  | nil => intro x y s; exact Frame.refl s
  | cons p r ih =>
    intro x y s
    unfold copyBursts
    dsimp only
    have h1 := Frame.ite ((poisonLanes s p.1 p.2.2).any id = true) ((frame_busRead (dmaPort n) p.1 p.2.2 s).andDev
      ((busRead (dmaPort n) p.1 p.2.2 s).2.dev.setF (DC_STAT n) DC_STAT_POISON_SEEN 1)) (frame_busRead (dmaPort n) p.1 p.2.2 s)
    have h2 := h1.trans (frame_busWrite (dmaPort n) p.2.1 (busRead (dmaPort n) p.1 p.2.2 s).1.data (poisonLanes s p.1 p.2.2) _)
    exact Frame.ite3 _ (Frame.refl s) (Frame.ite3 _ (frame_busRead _ _ _ _) (Frame.ite3 _ h2 (h2.trans (ih _ _ _))))

theorem frame_dmaCopy (n budget : Nat) (s : State) : Frame s (dmaCopy n budget s).2.2 := by
  unfold dmaCopy
  dsimp only
  have h1 := Frame.ite3 ((s.dev.ch n).srcSg = true)
    (frame_sgRuns n (2 * (s.dev.ch n).len + 65536) (s.dev.ch n).src (s.dev.ch n).len [] s)
    (b := ([((s.dev.ch n).src, (s.dev.ch n).len)], 0, s)) (Frame.refl s)
  have h2 := h1.trans (Frame.ite3 ((s.dev.ch n).dstSg = true)
    (frame_sgRuns n (2 * (s.dev.ch n).len + 65536) (s.dev.ch n).dst (s.dev.ch n).len [] _)
    (b := ([((s.dev.ch n).dst, (s.dev.ch n).len)], 0, _)) (Frame.refl _))
  exact (h2.trans (frame_copyBursts _ _ _ _ _)).andDev _

theorem frame_dmaAbort (n moved : Nat) (s : State) : Frame s (dmaAbort n moved s) := by
  unfold dmaAbort
  dsimp only
  split
  · exact Frame.refl _
  · split
    · exact (frame_dmaCopy _ _ _).andDev _
    · exact Frame.dev _ _

theorem frame_dmaFetch (n : Nat) (s : State) : Frame s (dmaFetch n s) := by
  unfold dmaFetch
  dsimp only
  repeat' split
  · exact Frame.refl _
  all_goals exact (frame_busRead (dmaPort n) (s.dev.rdN (DC_CUR n)) 32 s).andDev _

theorem frame_readBack (n : Nat) (last : Option Nat) (s : State) : Frame s (readBack n last s).2 := by
  unfold readBack
  dsimp only
  repeat' split
  all_goals first
    | exact Frame.refl _
    | exact frame_busRead _ _ _ _

theorem frame_dmaComplete (n : Nat) (s : State) : Frame s (dmaComplete n s) := by
  unfold dmaComplete
  dsimp only
  split
  · exact Frame.refl _
  · split
    · exact (frame_dmaCopy _ _ _).andDev _
    · split
      · exact ((frame_dmaCopy _ _ _).trans (frame_readBack _ _ _)).andDev _
      · exact ((frame_dmaCopy _ _ _).trans (frame_readBack _ _ _)).andDev _

theorem frame_dmaEndCheck (n : Nat) (s : State) : Frame s (dmaEndCheck n s) := by
  unfold dmaEndCheck
  dsimp only
  split
  · exact Frame.refl _
  · split
    · refine Frame.trans ?_ (frame_dmaResume _ _)
      split
      · exact (frame_reread n s).andDev _
      · exact Frame.ite _ ((frame_reread n s).andDev _) ((frame_reread n s).andDev _)
    · split
      · exact (frame_reread n s).andDev _
      · exact Frame.ite _ ((frame_reread n s).andDev _) ((frame_reread n s).andDev _)

theorem frame_dmaByOwner (n who : Nat) (f : State → State) (hf : ∀ s, Frame s (f s)) (s : State) :
    Frame s (dmaByOwner n who f s) := by
  unfold dmaByOwner
  split
  · exact Frame.refl _
  · split
    · exact hf s
    · exact Frame.dev _ _

end Sys2Proof.Laws
end

