-- ==== Sys2Proof/Laws/FrameCore.lean ====
section
/-!
SUPPORT. What the operations of the Rhaex cores leave alone.
-/
namespace Sys2Proof.Laws
open Sys2Proof (Byte Tbl)
open Sys2Proof.Machine

/-- An operation that may trap leaves the queue, the flash and the form of the memories alone, whichever way it ends. -/
def RmFrame {α : Type} (s : State) (r : RM α) : Prop :=
  match r with
  | .error e => Frame s e.2
  | .ok x => Frame s x.2

theorem RmFrame.trans {α : Type} {s t : State} {r : RM α} (h : Frame s t) (k : RmFrame t r) : RmFrame s r := by
  unfold RmFrame at *
  split at k <;> exact h.trans k

theorem frame_rw (s : State) (c t code v : Nat) : Frame s (s.rw c t code v) := Frame.dev _ _
theorem frame_setCore (s : State) (c : Nat) (x : RCore) : Frame s (s.setCore c x) := Frame.dev _ _
theorem frame_setAcc (s : State) (c t k : Nat) (v : Int) : Frame s (s.setAcc c t k v) :=
  ((frame_rw _ _ _ _ _).trans (frame_rw _ _ _ _ _)).trans (frame_rw _ _ _ _ _)
theorem frame_noteAcc (s : State) (c : Nat) (y : Bool) (a : Nat) (w : Bool) : Frame s (s.noteAcc c y a w) := Frame.dev _ _

theorem frame_noteLimit (s : State) (c : Nat) (b : Bool) : Frame s (s.noteLimit c b) := by
  unfold State.noteLimit; split <;> exact ⟨⟨rfl, id⟩, rfl⟩

theorem frame_readCode (c code : Nat) (s : State) : Frame s (readCode c code s).2 := by
  unfold readCode
  dsimp only
  repeat' split
  all_goals first
    | exact frame_noteLimit _ _ _
    | exact ⟨⟨rfl, id⟩, rfl⟩

theorem frame_writeCode (c code t v : Nat) (s : State) : Frame s (writeCode c code t v s) := by
  unfold writeCode
  dsimp only
  refine Frame.ite _ (((frame_rw _ _ _ _ _).trans (frame_rw _ _ _ _ _)).trans (frame_rw _ _ _ _ _)) (Frame.ite _ (frame_rw _ _ _ _ _) (Frame.ite _ ?_ (Frame.ite _ ?_ (frame_rw _ _ _ _ _))))
  · exact frame_foldl _ (fun s b => frame_rw _ _ _ _ _) _ s
  · split
    · exact frame_setCore _ _ _
    · exact Frame.refl _

theorem frame_agu (c pn mode scale : Nat) (s : State) : Frame s (agu c pn mode scale s).2 := by
  unfold agu
  exact Frame.ite _ (Frame.refl _) (frame_rw _ _ _ _ _)

theorem rm_dataRead (c : Nat) (y : Bool) (a : Nat) (s : State) : RmFrame s (dataRead c y a s) := by
  unfold dataRead
  dsimp only
  have h0 := frame_noteAcc s c y a false
  generalize s.noteAcc c y a false = s1 at h0
  refine RmFrame.trans h0 ?_
  split
  · exact Frame.refl _
  · exact Frame.refl _
  · rename_i sys _
    have h1 : Frame s1 { s1 with dev := (eccRead (s1.dev, s1.mem) sys 4).1, mem := (eccRead (s1.dev, s1.mem) sys 4).2 } :=
      Frame.mems _ _ _ (memWf_eccRead (x := (s1.dev, s1.mem)) _ _)
    split
    · exact h1
    · split <;> exact h1
  · split
    · exact frame_busRead _ _ _ _
    · exact frame_busRead _ _ _ _

theorem rm_dataWrite (c : Nat) (y : Bool) (a v : Nat) (s : State) : RmFrame s (dataWrite c y a v s) := by
  unfold dataWrite
  dsimp only
  have h0 := frame_noteAcc s c y a true
  generalize s.noteAcc c y a true = s1 at h0
  refine RmFrame.trans h0 ?_
  split
  · exact Frame.refl _
  · exact Frame.dev _ _
  · exact Frame.mems _ _ _ fun h => memWf_store _ _ _ (memWf_eccWrite (x := (s1.dev, s1.mem)) _ _ _ h)
  · exact Frame.ite _ (frame_busWrite _ _ _ _ _) ((frame_busWrite _ _ _ _ _).andDev _)

theorem frame_flags (s : State) (c : Nat) (o y : Bool) (v : Int) : Frame s (s.flags c o y v) := by
  have h := (((frame_rw s c (tE2 (s.core c)) SR_C (b2n y)).trans (frame_rw _ c (tE2 (s.core c)) SR_Z (b2n (wrapN 56 v == 0)))).trans
    (frame_rw _ c (tE2 (s.core c)) SR_N (wrapN 56 v / 2 ^ 55))).trans (frame_rw _ c (tE2 (s.core c)) SR_E (b2n (!fits47 (wrapN 56 v))))
  exact Frame.ite _ (h.trans (frame_rw _ _ _ _ _)) h

theorem frame_arith (s : State) (c k : Nat) (x : Int) (y : Bool) : Frame s (s.arith c k x y) :=
  (frame_flags _ _ _ _ _).trans (frame_setAcc _ _ _ _ _)

theorem frame_arithRnd (s : State) (c k : Nat) (x : Int) (y : Bool) : Frame s (s.arithRnd c k x y) :=
  (frame_flags _ _ _ _ _).trans (frame_setAcc _ _ _ _ _)

theorem frame_trap (s : State) (c v : Nat) : Frame s (s.trap c v) := by
  unfold State.trap
  exact Frame.ite _ (Frame.dev _ _) (Frame.ite _ (Frame.dev _ _) (Frame.dev _ _))

theorem frame_fetchWord (c a : Nat) (s : State) : Frame s (fetchWord c a s).2.2 := by
  unfold fetchWord
  exact Frame.ite3 _ (Frame.mems _ _ _ (memWf_eccRead (x := (s.dev, s.mem)) _ _)) (Frame.ite3 _ (frame_busRead _ _ _ _)
    (Frame.ite3 _ (Frame.refl _) (Frame.mems _ _ _ (memWf_eccRead (x := (s.dev, s.mem)) _ _))))

theorem frame_fetchR (c : Nat) (s : State) : Frame s (fetchR c s).2.2 := by
  unfold fetchR
  dsimp only
  split
  · exact frame_fetchWord _ _ _
  · refine Frame.ite3 _ (frame_fetchWord _ _ _) (Frame.ite3 _ ?_ (frame_fetchWord _ _ _))
    exact Frame.ite3 _ ((frame_fetchWord _ _ _).trans (frame_fetchWord _ _ _)) (frame_fetchWord _ _ _)

theorem frame_returned (s : State) (c b : Nat) : Frame s (s.returned c b) := by
  unfold State.returned
  dsimp only
  split <;> exact ⟨⟨rfl, id⟩, rfl⟩

theorem frame_advance (s : State) (c n : Nat) (f : Flow) : Frame s (s.advance c n f) := by
  unfold State.advance
  dsimp only
  repeat' split
  all_goals first
    | exact frame_setCore _ _ _
    | exact (frame_setCore _ _ _).trans (frame_returned _ _ _)

theorem frame_tick (s : State) (c : Nat) : Frame s (s.tick c) := Frame.dev _ _

theorem frame_halts (s : State) (c : Nat) : Frame s (s.halts c) := by
  unfold State.halts
  exact Frame.ite _ (Frame.refl _) (Frame.ite _ (Frame.dev _ _) (Frame.ite _ (Frame.dev _ _) (Frame.refl _)))

theorem frame_breakCheck {s t : State} {c : Nat} (h : s.breakCheck c = some t) : Frame s t := by
  unfold State.breakCheck at h
  dsimp only at h
  repeat' split at h
  all_goals first
    | (injection h with e; subst e; exact Frame.dev _ _)
    | exact absurd h nofun

/-- An instruction's work leaves the same alone. -/
def Quiet (w : State → RM Flow) : Prop := ∀ s, RmFrame s (w s)

/-- One instruction of a core leaves the queue, the flash and the form of the memories alone. -/
theorem frame_runR (c : Nat) (pick : RIns → Option (State → RM Flow)) (h : ∀ i w, pick i = some w → Quiet w) (s : State) :
    Frame s (runR c pick s) := by
  unfold runR
  dsimp only
  split
  · exact Frame.refl _
  · split
    · exact (frame_fetchR _ _).trans (frame_trap _ _ _)
    · split
      · exact Frame.refl _
      · rename_i w hw
        split
        · rename_i hb
          exact frame_breakCheck hb
        · have h1 := (frame_fetchR c s).trans (frame_setCore (fetchR c s).2.2 c { (fetchR c s).2.2.core c with acc := [], skipBp := false })
          have h2 := RmFrame.trans h1 (h _ _ hw _)
          split
          · rename_i e
            rw [e] at h2
            exact Frame.trans h2 ((frame_setCore _ _ _).trans (frame_trap _ _ _))
          · rename_i e
            rw [e] at h2
            exact Frame.trans h2 (((frame_advance _ _ _ _).trans (frame_tick _ _)).trans (frame_halts _ _))

theorem quiet_work (f : State → State) (h : ∀ s, Frame s (f s)) : Quiet fun s => .ok (.next, f s) := h

theorem rm_branchTo (c n : Nat) (b : Bool) (t : Nat) (s : State) : RmFrame s (branchTo c n b t s) := Frame.refl s

theorem rm_callTo (c n t : Nat) (s : State) : RmFrame s (callTo c n t s) := by
  unfold callTo
  dsimp only
  have h := rm_dataWrite c false (wrapN (if s.dev.coreCs c then 16 else 24) ((s.rv c (tD (s.core c)) (RC_P0 + 7) : Int) - 1))
    (pcAfter (s.dev.coreCs c) (s.core c).ctx.pc (n + 2)) s
  split
  · rename_i e; rw [e] at h; exact h
  · rename_i e; rw [e] at h; exact Frame.trans h (frame_rw _ _ _ _ _)

theorem rm_doLoop (c n le k : Nat) (s : State) : RmFrame s (doLoop c n le k s) := by
  unfold doLoop
  dsimp only
  split
  · exact Frame.refl _
  · split
    · exact Frame.refl _
    · exact frame_setCore _ _ _

theorem rm_doRts (c : Nat) (s : State) : RmFrame s (doRts c s) := by
  unfold doRts
  dsimp only
  have h := rm_dataRead c false (if s.dev.coreCs c then s.rv c (tD (s.core c)) (RC_P0 + 7) % 2 ^ 16 else s.rv c (tD (s.core c)) (RC_P0 + 7)) s
  split
  · rename_i e; rw [e] at h; exact h
  · rename_i e; rw [e] at h; exact Frame.trans h (frame_rw _ _ _ _ _)

theorem frame_moveTo (c code v : Nat) (s : State) : Frame s (moveTo c code v s) := frame_writeCode _ _ _ _ _

theorem frame_moveReg (c d r : Nat) (s : State) : Frame s (moveReg c d r s) :=
  (frame_readCode _ _ _).trans (frame_moveTo _ _ _ _)

theorem rm_loadReg (c : Nat) (y : Bool) (code a : Nat) (s : State) : RmFrame s (loadReg c y code a s) := by
  unfold loadReg
  have h := rm_dataRead c y a s
  split
  · rename_i e; rw [e] at h; exact h
  · rename_i e; rw [e] at h; exact Frame.trans h (frame_writeCode _ _ _ _ _)

theorem rm_storeReg (c : Nat) (y : Bool) (code a : Nat) (s : State) : RmFrame s (storeReg c y code a s) :=
  RmFrame.trans (frame_readCode _ _ _) (rm_dataWrite _ _ _ _ _)

theorem rm_go {s : State} {r : RM Unit} (h : RmFrame s r) : RmFrame s r.go := by
  unfold RM.go
  split <;> exact h

theorem rm_access (c : Nat) (y st : Bool) (code a : Nat) (s : State) : RmFrame s (access c y st code a s) := by
  unfold access
  split
  · exact rm_storeReg _ _ _ _ _
  · exact rm_loadReg _ _ _ _ _

theorem rm_doMovem (c : Nat) (y st : Bool) (code pn mode : Nat) (s : State) : RmFrame s (doMovem c y st code pn mode s) :=
  RmFrame.trans (frame_agu _ _ _ _ _) (rm_go (rm_access _ _ _ _ _ _))

theorem rm_doMovex (c : Nat) (y st : Bool) (code pn : Nat) (s : State) : RmFrame s (doMovex c y st code pn s) :=
  rm_go (rm_access _ _ _ _ _ _)

theorem rm_doMovel (c : Nat) (y st : Bool) (k pn mode : Nat) (s : State) : RmFrame s (doMovel c y st k pn mode s) := by
  unfold doMovel
  dsimp only
  have h0 := frame_agu c pn mode 2 s
  generalize agu c pn mode 2 s = a at h0
  refine RmFrame.trans h0 ?_
  split
  · have h1 := frame_noteLimit a.2 c (limited (a.2.accU c (tR (a.2.core c)) k) (a.2.rv c (tE1 (a.2.core c)) SR_SM == 1) 48).2
    generalize a.2.noteLimit c _ = s1 at h1
    refine RmFrame.trans h1 ?_
    split
    · exact Frame.refl _
    · have h2 := rm_dataWrite c y a.1
        ((limited (a.2.accU c (tR (a.2.core c)) k) (a.2.rv c (tE1 (a.2.core c)) SR_SM == 1) 48).1 / 2 ^ 24) s1
      split
      · rename_i e; rw [e] at h2; exact h2
      · rename_i e; rw [e] at h2; exact RmFrame.trans h2 (rm_go (rm_dataWrite _ _ _ _ _))
  · have h2 := rm_dataRead c y a.1 a.2
    split
    · rename_i e; rw [e] at h2; exact h2
    · rename_i s1 e
      rw [e] at h2
      refine RmFrame.trans h2 ?_
      have h3 := rm_dataRead c y ((a.1 + 1) % 2 ^ 24) s1
      split
      · rename_i e3; rw [e3] at h3; exact h3
      · rename_i e3; rw [e3] at h3; exact Frame.trans h3 (frame_setAcc _ _ _ _ _)

theorem frame_logicOp (c d r : Nat) (f : Nat → Nat → Nat) (s : State) : Frame s (logicOp c d r f s) :=
  ((frame_readCode _ _ _).trans (frame_readCode _ _ _)).trans (frame_moveTo _ _ _ _)

theorem frame_inPlace (c code : Nat) (f : Nat → Nat) (s : State) : Frame s (inPlace c code f s) :=
  (frame_readCode _ _ _).trans (frame_moveTo _ _ _ _)

theorem frame_testBit (c code b : Nat) (s : State) : Frame s (testBit c code b s) :=
  (frame_readCode _ _ _).trans (frame_rw _ _ _ _ _)

theorem rm_pgo (m : PMove) (c : Nat) (st : Bool) (s : State) : RmFrame s (m.go c st s) := by
  unfold PMove.go
  split
  · exact Frame.refl _
  · exact RmFrame.trans (frame_agu _ _ _ _ _) (rm_access _ _ _ _ _ _)

theorem rm_andThen {s : State} {r : RM Unit} {f : State → RM Unit} (h : RmFrame s r) (k : ∀ t, RmFrame t (f t)) :
    RmFrame s (r.andThen f) := by
  unfold RM.andThen
  split
  · exact h
  · exact RmFrame.trans h (k _)

theorem rm_parMoves (c x y : Nat) (s : State) : RmFrame s (parMoves c x y s) := by
  unfold parMoves
  dsimp only
  split
  · exact Frame.refl _
  · exact rm_andThen (rm_andThen (rm_andThen (rm_pgo _ _ _ _) fun t => rm_pgo _ _ _ t) fun t => rm_pgo _ _ _ t) fun t => rm_pgo _ _ _ t

theorem quiet_par (core op : Nat) (f : Nat → Nat → State → State) (hf : ∀ k r s, Frame s (f k r s)) (i : RIns) (w : State → RM Flow)
    (h : parPick core op f i = some w) : Quiet w := by
  unfold parPick at h
  split at h
  · split at h
    · simp only [parWork, Option.some.injEq] at h
      subst h
      intro s
      exact RmFrame.trans (hf _ _ _) (rm_go (rm_parMoves _ _ _ _))
    · exact absurd h (by simp)
  · exact absurd h (by simp)

theorem frame_twoProducts (c k : Nat) (sub : Bool) (s : State) : Frame s (twoProducts c k sub s) :=
  (Frame.dev s s.dev.drew).trans ((frame_flags _ _ _ _ _).trans ((frame_setAcc _ _ _ _ _).trans (frame_setAcc _ _ _ _ _)))

theorem frame_doNorm (c k r : Nat) (s : State) : Frame s (doNorm c k r s) := by
  unfold doNorm
  exact Frame.ite _ (frame_arith _ _ _ _ _) ((frame_arith _ _ _ _ _).trans (frame_rw _ _ _ _ _))

theorem frame_doExp (c k r : Nat) (s : State) : Frame s (doExp c k r s) :=
  (frame_rw _ _ _ _ _).trans (frame_rw _ _ _ _ _)

theorem frame_doNormf (c k code : Nat) (s : State) : Frame s (doNormf c k code s) :=
  (frame_readCode _ _ _).trans ((frame_arith _ _ _ _ _).trans (frame_writeCode _ _ _ _ _))

theorem frame_doMacx (c k x y op : Nat) (s : State) : Frame s (doMacx c k x y op s) := by
  unfold doMacx
  dsimp only
  split <;> exact frame_arith _ _ _ _ _

/-! The instructions one by one. -/

theorem quiet_pickRNop (c : Nat) (s : State) (i : RIns) (w : State → RM Flow) (h : pickRNop c s i = some w) : Quiet w := by
  unfold pickRNop at h
  split at h
  · injection h with e; subst e; intro t; exact Frame.refl _
  · exact absurd h nofun

theorem quiet_pickRRts (c : Nat) (s : State) (i : RIns) (w : State → RM Flow) (h : pickRRts c s i = some w) : Quiet w := by
  unfold pickRRts at h
  split at h
  · injection h with e; subst e; intro t; exact rm_doRts _ _
  · exact absurd h nofun

theorem quiet_pickRRti1 (c : Nat) (s : State) (i : RIns) (w : State → RM Flow) (h : pickRRti1 c s i = some w) : Quiet w := by
  unfold pickRRti1 at h
  split at h
  · injection h with e; subst e; intro t; exact Frame.refl _
  · exact absurd h nofun

theorem quiet_pickRRti2 (c : Nat) (s : State) (i : RIns) (w : State → RM Flow) (h : pickRRti2 c s i = some w) : Quiet w := by
  unfold pickRRti2 at h
  split at h
  · injection h with e; subst e; intro t; exact Frame.refl _
  · exact absurd h nofun

theorem quiet_pickRRtt (c : Nat) (s : State) (i : RIns) (w : State → RM Flow) (h : pickRRtt c s i = some w) : Quiet w := by
  unfold pickRRtt at h
  split at h
  · injection h with e; subst e; intro t; exact Frame.refl _
  · exact absurd h nofun

theorem quiet_pickREnddo (c : Nat) (s : State) (i : RIns) (w : State → RM Flow) (h : pickREnddo c s i = some w) : Quiet w := by
  unfold pickREnddo at h
  split at h
  · injection h with e; subst e; intro t; exact frame_setCore _ _ _
  · exact absurd h nofun

theorem quiet_pickRSync (c : Nat) (s : State) (i : RIns) (w : State → RM Flow) (h : pickRSync c s i = some w) : Quiet w := by
  unfold pickRSync at h
  split at h
  · split at h
    · injection h with e; subst e; intro t; exact Frame.refl t
    · exact absurd h nofun
  · exact absurd h nofun

theorem quiet_pickRWait (c : Nat) (s : State) (i : RIns) (w : State → RM Flow) (h : pickRWait c s i = some w) : Quiet w := by
  unfold pickRWait at h
  split at h
  · injection h with e; subst e; intro t; exact frame_setCore _ _ _
  · exact absurd h nofun

theorem quiet_pickRTrap (c : Nat) (s : State) (i : RIns) (w : State → RM Flow) (h : pickRTrap c s i = some w) : Quiet w := by
  unfold pickRTrap at h
  split at h
  · injection h with e; subst e; intro t; exact Frame.refl _
  · exact absurd h nofun

theorem quiet_pickIllegalInstruction (c : Nat) (s : State) (i : RIns) (w : State → RM Flow) (h : pickIllegalInstruction c s i = some w) : Quiet w := by
  unfold pickIllegalInstruction at h
  split at h
  · injection h with e; subst e; intro t; exact Frame.refl _
  · exact absurd h nofun

theorem quiet_pickRBra (c : Nat) (s : State) (i : RIns) (w : State → RM Flow) (h : pickRBra c s i = some w) : Quiet w := by
  unfold pickRBra at h
  split at h
  · injection h with e; subst e; intro t; exact Frame.refl _
  · exact absurd h nofun

theorem quiet_pickRBsr (c : Nat) (s : State) (i : RIns) (w : State → RM Flow) (h : pickRBsr c s i = some w) : Quiet w := by
  unfold pickRBsr at h
  split at h
  · injection h with e; subst e; intro t; exact rm_callTo _ _ _ _
  · exact absurd h nofun

theorem quiet_pickRBcc (c : Nat) (s : State) (i : RIns) (w : State → RM Flow) (h : pickRBcc c s i = some w) : Quiet w := by
  unfold pickRBcc at h
  split at h
  · injection h with e; subst e; intro t; exact Frame.refl _
  · exact absurd h nofun

theorem quiet_pickRJmp (c : Nat) (s : State) (i : RIns) (w : State → RM Flow) (h : pickRJmp c s i = some w) : Quiet w := by
  unfold pickRJmp at h
  split at h
  · injection h with e; subst e; intro t; exact Frame.refl _
  · exact absurd h nofun

theorem quiet_pickRJsr (c : Nat) (s : State) (i : RIns) (w : State → RM Flow) (h : pickRJsr c s i = some w) : Quiet w := by
  unfold pickRJsr at h
  split at h
  · injection h with e; subst e; intro t; exact rm_callTo _ _ _ _
  · exact absurd h nofun

theorem quiet_pickRBccLong (c : Nat) (s : State) (i : RIns) (w : State → RM Flow) (h : pickRBccLong c s i = some w) : Quiet w := by
  unfold pickRBccLong at h
  split at h
  · injection h with e; subst e; intro t; exact Frame.refl _
  · exact absurd h nofun

theorem quiet_pickRDo (c : Nat) (s : State) (i : RIns) (w : State → RM Flow) (h : pickRDo c s i = some w) : Quiet w := by
  unfold pickRDo at h
  split at h
  · injection h with e; subst e; intro t; exact rm_doLoop _ _ _ _ _
  · exact absurd h nofun

theorem quiet_pickRDoLong (c : Nat) (s : State) (i : RIns) (w : State → RM Flow) (h : pickRDoLong c s i = some w) : Quiet w := by
  unfold pickRDoLong at h
  split at h
  · injection h with e; subst e; intro t; exact rm_doLoop _ _ _ _ _
  · exact absurd h nofun

theorem quiet_pickRRep (c : Nat) (s : State) (i : RIns) (w : State → RM Flow) (h : pickRRep c s i = some w) : Quiet w := by
  unfold pickRRep at h
  split at h
  · injection h with e; subst e; intro t; exact Frame.refl _
  · exact absurd h nofun

theorem quiet_pickRRepLong (c : Nat) (s : State) (i : RIns) (w : State → RM Flow) (h : pickRRepLong c s i = some w) : Quiet w := by
  unfold pickRRepLong at h
  split at h
  · injection h with e; subst e; intro t; exact Frame.refl _
  · exact absurd h nofun

theorem quiet_pickRMovei (c : Nat) (s : State) (i : RIns) (w : State → RM Flow) (h : pickRMovei c s i = some w) : Quiet w := by
  unfold pickRMovei at h
  split at h
  · injection h with e; subst e; intro t; exact frame_moveTo _ _ _ _
  · exact absurd h nofun

theorem quiet_pickRMoveiLong (c : Nat) (s : State) (i : RIns) (w : State → RM Flow) (h : pickRMoveiLong c s i = some w) : Quiet w := by
  unfold pickRMoveiLong at h
  split at h
  · injection h with e; subst e; intro t; exact frame_moveTo _ _ _ _
  · exact absurd h nofun

theorem quiet_pickRMover (c : Nat) (s : State) (i : RIns) (w : State → RM Flow) (h : pickRMover c s i = some w) : Quiet w := by
  unfold pickRMover at h
  split at h
  · injection h with e; subst e; intro t; exact frame_moveReg _ _ _ _
  · exact absurd h nofun

theorem quiet_pickRMovem (c : Nat) (s : State) (i : RIns) (w : State → RM Flow) (h : pickRMovem c s i = some w) : Quiet w := by
  unfold pickRMovem at h
  split at h
  · injection h with e; subst e; intro t; exact rm_doMovem _ _ _ _ _ _ _
  · exact absurd h nofun

theorem quiet_pickRMovex (c : Nat) (s : State) (i : RIns) (w : State → RM Flow) (h : pickRMovex c s i = some w) : Quiet w := by
  unfold pickRMovex at h
  split at h
  · injection h with e; subst e; intro t; exact rm_doMovex _ _ _ _ _ _
  · exact absurd h nofun

theorem quiet_pickRMovel (c : Nat) (s : State) (i : RIns) (w : State → RM Flow) (h : pickRMovel c s i = some w) : Quiet w := by
  unfold pickRMovel at h
  split at h
  · injection h with e; subst e; intro t; exact rm_doMovel _ _ _ _ _ _ _
  · exact absurd h nofun

theorem quiet_pickRAnd (c : Nat) (s : State) (i : RIns) (w : State → RM Flow) (h : pickRAnd c s i = some w) : Quiet w := by
  unfold pickRAnd at h
  split at h
  · injection h with e; subst e; intro t; exact frame_logicOp _ _ _ _ _
  · exact absurd h nofun

theorem quiet_pickROr (c : Nat) (s : State) (i : RIns) (w : State → RM Flow) (h : pickROr c s i = some w) : Quiet w := by
  unfold pickROr at h
  split at h
  · injection h with e; subst e; intro t; exact frame_logicOp _ _ _ _ _
  · exact absurd h nofun

theorem quiet_pickREor (c : Nat) (s : State) (i : RIns) (w : State → RM Flow) (h : pickREor c s i = some w) : Quiet w := by
  unfold pickREor at h
  split at h
  · injection h with e; subst e; intro t; exact frame_logicOp _ _ _ _ _
  · exact absurd h nofun

theorem quiet_pickRBset (c : Nat) (s : State) (i : RIns) (w : State → RM Flow) (h : pickRBset c s i = some w) : Quiet w := by
  unfold pickRBset at h
  split at h
  · injection h with e; subst e; exact quiet_work _ fun t => frame_inPlace _ _ _ t
  · exact absurd h nofun

theorem quiet_pickRBclr (c : Nat) (s : State) (i : RIns) (w : State → RM Flow) (h : pickRBclr c s i = some w) : Quiet w := by
  unfold pickRBclr at h
  split at h
  · injection h with e; subst e; exact quiet_work _ fun t => frame_inPlace _ _ _ t
  · exact absurd h nofun

theorem quiet_pickRBtst (c : Nat) (s : State) (i : RIns) (w : State → RM Flow) (h : pickRBtst c s i = some w) : Quiet w := by
  unfold pickRBtst at h
  split at h
  · injection h with e; subst e; exact quiet_work _ fun t => frame_testBit _ _ _ t
  · exact absurd h nofun

theorem quiet_pickRAddi (c : Nat) (s : State) (i : RIns) (w : State → RM Flow) (h : pickRAddi c s i = some w) : Quiet w := by
  unfold pickRAddi at h
  split at h
  · injection h with e; subst e; exact quiet_work _ fun t => frame_inPlace _ _ _ t
  · exact absurd h nofun

theorem quiet_pickRMovesOnly (c : Nat) (s : State) (i : RIns) (w : State → RM Flow) (h : pickRMovesOnly c s i = some w) : Quiet w :=
  quiet_par _ _ _ (fun _ _ _ => Frame.refl _) i w h

theorem quiet_pickRMpy (c : Nat) (s : State) (i : RIns) (w : State → RM Flow) (h : pickRMpy c s i = some w) : Quiet w :=
  quiet_par _ _ _ (fun _ _ _ => frame_arith _ _ _ _ _) i w h

theorem quiet_pickRMac (c : Nat) (s : State) (i : RIns) (w : State → RM Flow) (h : pickRMac c s i = some w) : Quiet w :=
  quiet_par _ _ _ (fun _ _ _ => frame_arith _ _ _ _ _) i w h

theorem quiet_pickRMsu (c : Nat) (s : State) (i : RIns) (w : State → RM Flow) (h : pickRMsu c s i = some w) : Quiet w :=
  quiet_par _ _ _ (fun _ _ _ => frame_arith _ _ _ _ _) i w h

theorem quiet_pickRMpyr (c : Nat) (s : State) (i : RIns) (w : State → RM Flow) (h : pickRMpyr c s i = some w) : Quiet w :=
  quiet_par _ _ _ (fun _ _ _ => frame_arithRnd _ _ _ _ _) i w h

theorem quiet_pickRMacr (c : Nat) (s : State) (i : RIns) (w : State → RM Flow) (h : pickRMacr c s i = some w) : Quiet w :=
  quiet_par _ _ _ (fun _ _ _ => frame_arithRnd _ _ _ _ _) i w h

theorem quiet_pickRMac2 (c : Nat) (s : State) (i : RIns) (w : State → RM Flow) (h : pickRMac2 c s i = some w) : Quiet w :=
  quiet_par _ _ _ (fun _ _ _ => frame_twoProducts _ _ _ _) i w h

theorem quiet_pickRMsu2 (c : Nat) (s : State) (i : RIns) (w : State → RM Flow) (h : pickRMsu2 c s i = some w) : Quiet w :=
  quiet_par _ _ _ (fun _ _ _ => frame_twoProducts _ _ _ _) i w h

theorem quiet_pickRAdd (c : Nat) (s : State) (i : RIns) (w : State → RM Flow) (h : pickRAdd c s i = some w) : Quiet w :=
  quiet_par _ _ _ (fun _ _ _ => frame_arith _ _ _ _ _) i w h

theorem quiet_pickRSub (c : Nat) (s : State) (i : RIns) (w : State → RM Flow) (h : pickRSub c s i = some w) : Quiet w :=
  quiet_par _ _ _ (fun _ _ _ => frame_arith _ _ _ _ _) i w h

theorem quiet_pickRAdda (c : Nat) (s : State) (i : RIns) (w : State → RM Flow) (h : pickRAdda c s i = some w) : Quiet w :=
  quiet_par _ _ _ (fun _ _ _ => frame_arith _ _ _ _ _) i w h

theorem quiet_pickRSuba (c : Nat) (s : State) (i : RIns) (w : State → RM Flow) (h : pickRSuba c s i = some w) : Quiet w :=
  quiet_par _ _ _ (fun _ _ _ => frame_arith _ _ _ _ _) i w h

theorem quiet_pickRCmp (c : Nat) (s : State) (i : RIns) (w : State → RM Flow) (h : pickRCmp c s i = some w) : Quiet w :=
  quiet_par _ _ _ (fun _ _ _ => frame_flags _ _ _ _ _) i w h

theorem quiet_pickRTst (c : Nat) (s : State) (i : RIns) (w : State → RM Flow) (h : pickRTst c s i = some w) : Quiet w :=
  quiet_par _ _ _ (fun _ _ _ => frame_flags _ _ _ _ _) i w h

theorem quiet_pickRClr (c : Nat) (s : State) (i : RIns) (w : State → RM Flow) (h : pickRClr c s i = some w) : Quiet w :=
  quiet_par _ _ _ (fun _ _ _ => frame_arith _ _ _ _ _) i w h

theorem quiet_pickRNeg (c : Nat) (s : State) (i : RIns) (w : State → RM Flow) (h : pickRNeg c s i = some w) : Quiet w :=
  quiet_par _ _ _ (fun _ _ _ => frame_arith _ _ _ _ _) i w h

theorem quiet_pickRAbs (c : Nat) (s : State) (i : RIns) (w : State → RM Flow) (h : pickRAbs c s i = some w) : Quiet w :=
  quiet_par _ _ _ (fun _ _ _ => Frame.ite _ (frame_arith _ _ _ _ _) (frame_arith _ _ _ _ _)) i w h

theorem quiet_pickRTfr (c : Nat) (s : State) (i : RIns) (w : State → RM Flow) (h : pickRTfr c s i = some w) : Quiet w :=
  quiet_par _ _ _ (fun _ _ _ => frame_arith _ _ _ _ _) i w h

theorem quiet_pickRRnd (c : Nat) (s : State) (i : RIns) (w : State → RM Flow) (h : pickRRnd c s i = some w) : Quiet w :=
  quiet_par _ _ _ (fun _ _ _ => frame_arithRnd _ _ _ _ _) i w h

theorem quiet_pickRAsl (c : Nat) (s : State) (i : RIns) (w : State → RM Flow) (h : pickRAsl c s i = some w) : Quiet w :=
  quiet_par _ _ _ (fun _ _ _ => frame_arith _ _ _ _ _) i w h

theorem quiet_pickRAsr (c : Nat) (s : State) (i : RIns) (w : State → RM Flow) (h : pickRAsr c s i = some w) : Quiet w :=
  quiet_par _ _ _ (fun _ _ _ => frame_arith _ _ _ _ _) i w h

theorem quiet_pickRNorm (c : Nat) (s : State) (i : RIns) (w : State → RM Flow) (h : pickRNorm c s i = some w) : Quiet w :=
  quiet_par _ _ _ (fun _ _ _ => frame_doNorm _ _ _ _) i w h

theorem quiet_pickRExp (c : Nat) (s : State) (i : RIns) (w : State → RM Flow) (h : pickRExp c s i = some w) : Quiet w :=
  quiet_par _ _ _ (fun _ _ _ => frame_doExp _ _ _ _) i w h

theorem quiet_pickRNormf (c : Nat) (s : State) (i : RIns) (w : State → RM Flow) (h : pickRNormf c s i = some w) : Quiet w := by
  unfold pickRNormf at h
  split at h
  · injection h with e; subst e; intro t; exact frame_doNormf _ _ _ _
  · exact absurd h nofun

theorem quiet_pickRMacx (c : Nat) (s : State) (i : RIns) (w : State → RM Flow) (h : pickRMacx c s i = some w) : Quiet w := by
  unfold pickRMacx at h
  split at h
  · injection h with e; subst e; intro t; exact frame_doMacx _ _ _ _ _ _
  · exact absurd h nofun

/-- The work of every instruction leaves the queue, the flash and the form of the memories alone. -/
theorem quiet_picks (c : Nat) (s : State) (i : RIns) (w : State → RM Flow) (h : (picks.findSome? fun p => p c s i) = some w) : Quiet w := by
  obtain ⟨p, hp, e⟩ := List.exists_of_findSome?_eq_some h
  simp only [picks, List.mem_cons, List.not_mem_nil, or_false] at hp
  rcases hp with rfl | rfl | rfl | rfl | rfl | rfl | rfl | rfl | rfl | rfl | rfl | rfl | rfl | rfl | rfl | rfl | rfl | rfl | rfl | rfl | rfl | rfl | rfl | rfl | rfl | rfl | rfl | rfl | rfl | rfl | rfl | rfl | rfl | rfl | rfl | rfl | rfl | rfl | rfl | rfl | rfl | rfl | rfl | rfl | rfl | rfl | rfl | rfl | rfl | rfl | rfl | rfl | rfl | rfl | rfl | rfl | rfl | rfl
  · exact quiet_pickRNop c s i w e
  · exact quiet_pickRRts c s i w e
  · exact quiet_pickRRti1 c s i w e
  · exact quiet_pickRRti2 c s i w e
  · exact quiet_pickRRtt c s i w e
  · exact quiet_pickREnddo c s i w e
  · exact quiet_pickRSync c s i w e
  · exact quiet_pickRWait c s i w e
  · exact quiet_pickRTrap c s i w e
  · exact quiet_pickIllegalInstruction c s i w e
  · exact quiet_pickRBra c s i w e
  · exact quiet_pickRBsr c s i w e
  · exact quiet_pickRBcc c s i w e
  · exact quiet_pickRJmp c s i w e
  · exact quiet_pickRJsr c s i w e
  · exact quiet_pickRBccLong c s i w e
  · exact quiet_pickRDo c s i w e
  · exact quiet_pickRDoLong c s i w e
  · exact quiet_pickRRep c s i w e
  · exact quiet_pickRRepLong c s i w e
  · exact quiet_pickRMovei c s i w e
  · exact quiet_pickRMoveiLong c s i w e
  · exact quiet_pickRMover c s i w e
  · exact quiet_pickRMovem c s i w e
  · exact quiet_pickRMovex c s i w e
  · exact quiet_pickRMovel c s i w e
  · exact quiet_pickRAnd c s i w e
  · exact quiet_pickROr c s i w e
  · exact quiet_pickREor c s i w e
  · exact quiet_pickRBset c s i w e
  · exact quiet_pickRBclr c s i w e
  · exact quiet_pickRBtst c s i w e
  · exact quiet_pickRAddi c s i w e
  · exact quiet_pickRMovesOnly c s i w e
  · exact quiet_pickRMpy c s i w e
  · exact quiet_pickRMac c s i w e
  · exact quiet_pickRMsu c s i w e
  · exact quiet_pickRMpyr c s i w e
  · exact quiet_pickRMacr c s i w e
  · exact quiet_pickRMac2 c s i w e
  · exact quiet_pickRMsu2 c s i w e
  · exact quiet_pickRAdd c s i w e
  · exact quiet_pickRSub c s i w e
  · exact quiet_pickRAdda c s i w e
  · exact quiet_pickRSuba c s i w e
  · exact quiet_pickRCmp c s i w e
  · exact quiet_pickRTst c s i w e
  · exact quiet_pickRClr c s i w e
  · exact quiet_pickRNeg c s i w e
  · exact quiet_pickRAbs c s i w e
  · exact quiet_pickRTfr c s i w e
  · exact quiet_pickRRnd c s i w e
  · exact quiet_pickRAsl c s i w e
  · exact quiet_pickRAsr c s i w e
  · exact quiet_pickRNorm c s i w e
  · exact quiet_pickRExp c s i w e
  · exact quiet_pickRNormf c s i w e
  · exact quiet_pickRMacx c s i w e

theorem frame_stepCore (c : Nat) (s : State) : Frame s (stepCore c s) := frame_runR c _ (fun i w h => quiet_picks c s i w h) s

theorem frame_toBoundary (c n : Nat) : ∀ s, Frame s (toBoundary c n s) := by
  induction n with
  | zero => intro s; exact Frame.refl s
  | succ n ih => intro s; exact Frame.ite _ (Frame.refl s) ((frame_stepCore c s).trans (ih _))

theorem rising_window (d : Nat → Byte) (a : Nat) (f : Nat → Byte) (p : Host.Cell → Bool) (t : List Host.Cell)
    (ht : twf d t = true) (n : Nat) (hp : ∀ c : Host.Cell, p c = true → c.2 ≠ d c.1) :
    twf d (t.filter (fun c => decide (c.1 < a)) ++ ((List.range n).map fun i => (a + i, f i)).filter p ++
      t.filter (fun c => decide (a + n ≤ c.1))) = true := by
  rw [twf_iff] at ht ⊢
  obtain ⟨hr, hd⟩ := ht
  have hw : Rising (((List.range n).map fun i => (a + i, f i)).filter p) := by
    refine rising_filter _ ?_
    unfold Rising
    rw [List.pairwise_map]
    exact List.Pairwise.imp (fun h => by simpa using h) List.pairwise_lt_range
  refine ⟨?_, ?_⟩
  · unfold Rising
    rw [List.pairwise_append, List.pairwise_append]
    refine ⟨⟨rising_filter _ hr, hw, ?_⟩, rising_filter _ hr, ?_⟩
    · intro x hx y hy
      simp only [List.mem_filter, List.mem_map, List.mem_range, decide_eq_true_eq] at hx hy
      obtain ⟨⟨i, _, rfl⟩, _⟩ := hy
      show x.1 < a + i
      omega
    · intro x hx y hy
      simp only [List.mem_append, List.mem_filter, List.mem_map, List.mem_range, decide_eq_true_eq] at hx hy
      rcases hx with hx | ⟨⟨i, hi, rfl⟩, _⟩
      · omega
      · show a + i < y.1
        omega
  · intro x hx
    simp only [List.mem_append, List.mem_filter] at hx
    rcases hx with (hx | hx) | hx
    · exact hd _ hx.1
    · exact hp _ hx.2
    · exact hd _ hx.1

theorem frame_overwritten (s : State) (a n : Nat) : Frame s (overwritten s a n) := by
  refine Frame.mems _ _ _ fun h => ?_
  have h1 := memWf_zero a n h
  rw [memWf_iff] at h1 ⊢
  refine ⟨?_, h1.2⟩
  exact rising_window memReset a _ _ _ h1.1 n fun c hc => by simpa using hc

theorem frame_coreTested (l : Nat) (s : State) : Frame s (coreTested l s) :=
  ((frame_overwritten _ _ _).trans (frame_overwritten _ _ _)).trans (frame_overwritten _ _ _)

theorem frame_reserveCoreTest (pass : Bool) (s : State) : Frame s (reserveCoreTest pass s) := by
  unfold reserveCoreTest
  exact Frame.ite _ (Frame.refl _) ((frame_coreTested _ _).andDev _)

theorem memWf_copyCore {m : Mem} (l : Nat) (h : m.wf = true) : (m.copyCore l).wf = true := by
  unfold Mem.copyCore
  dsimp only
  refine foldl_keeps (fun q : Mem => q.wf = true) _ (fun _ _ hb => memWf_mark _ _ hb) _ _ ?_
  have hz := memWf_zero (m := m) 0x53000000 0x1000000 h
  rw [memWf_iff] at hz ⊢
  refine ⟨?_, ?_, hz.2.2⟩
  · exact foldl_keeps (fun t => twf memReset t = true) _ (fun _ _ hb => twf_tset _ _ hb) _ _ hz.1
  · exact foldl_keeps (fun t => twf (fun _ => false) t = true) _ (fun _ _ hb => twf_tset _ _ hb) _ _ hz.2.1

theorem frame_tuckCore (l : Nat) (s : State) : Frame s (tuckCore l s) := by
  have h := frame_toBoundary (s.dev.physOf l) 800000 s
  unfold tuckCore
  dsimp only
  generalize toBoundary (s.dev.physOf l) 800000 s = t at h
  exact h.trans (Frame.mems _ _ _ (memWf_copyCore l))

theorem frame_coreLoadWork (s : State) (i : Nat) : Frame s (coreLoadWork s i).1 := by
  unfold coreLoadWork
  dsimp only
  split
  · exact Frame.refl _
  · split
    · exact Frame.refl _
    · exact Frame.mems s _ s.dev fun h => memWf_write _ _ _ _ (memWf_write _ _ _ _ (memWf_write _ _ _ _ h))

theorem frame_coreTuckWork (s : State) (i : Nat) : Frame s (coreTuckWork s i).1 := by
  unfold coreTuckWork
  dsimp only
  split
  · exact frame_tuckCore _ _
  · exact Frame.refl _

theorem frame_cmdWrite (c who cmd : Nat) (s : State) : Frame s (cmdWrite c who cmd s) :=
  Frame.ite _ (frame_regWrite _ _ _ _ _) (Frame.refl _)

end Sys2Proof.Laws
end

