-- ==== Sys2Proof/Laws/FrameWork.lean ====
section
/-!
SUPPORT. What commands, jobs, boot and resets leave alone.
-/
namespace Sys2Proof.Laws
open Sys2Proof.Machine

/-! Dumps, peeks and the run. -/

theorem frame_jobResult (i : Nat) (k : Code) (ws : List Nat) (s : State) : Frame s (jobResult i k ws s) := by
  unfold jobResult
  dsimp only
  split
  · exact Frame.mems _ _ _ (memWf_wr _ _)
  · exact Frame.dev _ _

theorem frame_servePeeks (s : State) : Frame s (servePeeks s) := by
  unfold servePeeks
  refine frame_foldl _ (fun s k => ?_) _ s
  exact (Frame.mems _ _ _ (memWf_write _ _ _ _)).trans (frame_jobResult _ _ _ _)

theorem frame_chunkStep (s : State) : Frame s (chunkStep s) := (Frame.dev _ _).trans (frame_servePeeks _)

theorem frame_dumpComplete (s : State) : Frame s (dumpComplete s) := by
  unfold dumpComplete
  split
  · exact Frame.refl _
  · exact (Frame.dev _ _).trans (frame_foldl _ (fun s j => frame_jobResult _ _ _ s) _ _)

theorem frame_drainRun (n : Nat) : ∀ s, Frame s (drainRun n s) := by
  induction n with
  | zero => intro s; exact Frame.refl s
  | succ n ih => intro s; exact ((Frame.dev _ _).trans (frame_servePeeks _)).trans (ih _)

/-! The capture ring and the front. -/

theorem memWf_put (d : Dev) (f : Nat → Nat) (l : List (Nat × Nat)) {m : Mem} (h : m.wf = true) :
    (l.foldl (fun m (b, k) => (memWrite d m (f k) [b] false).2) m).wf = true :=
  foldl_keeps (fun q : Mem => q.wf = true) _ (fun _ _ hb => memWf_write _ _ _ _ hb) _ _ h

theorem frame_capComplete (s : State) (j : Nat) : Frame s (capComplete s j) := by
  unfold capComplete
  dsimp only
  split
  · exact Frame.refl _
  · split
    · exact Frame.refl _
    · exact Frame.mems _ _ _ (memWf_put _ _ _)

theorem memWf_capPut (d : Dev) (x : CapSeg) (base blank : Nat) (val : Nat → Nat → Option Nat) (z : Mem × Nat) (e : (Nat × Nat) × Nat)
    (h : z.1.wf = true) : (capPut d x base blank val z e).1.wf = true := by
  unfold capPut
  dsimp only
  split
  · exact h
  · exact memWf_put d (fun q => d.segAddr x (base + e.2 * d.capW + q)) _ h

theorem frame_capSpectrum (n : Nat) (v : Nat → Nat → Option Nat) (s : State) : Frame s (capSpectrum n v s) := by
  unfold capSpectrum
  dsimp only
  split
  · exact Frame.refl _
  · split
    · exact Frame.refl _
    · split
      · exact Frame.dev _ _
      · refine Frame.mems _ _ _ fun h => ?_
        exact foldl_keeps (fun q : Mem × Nat => q.1.wf = true) (capPut _ _ _ _ _) (fun q e hb => memWf_capPut _ _ _ _ _ q e hb) _ _ h

theorem frame_capBatch (b : Nat) (s : State) : Frame s (capBatch b s) := by
  unfold capBatch
  dsimp only
  split
  · exact Frame.refl _
  · exact (frame_foldl _ (fun s t => frame_capSpectrum _ _ s) _ s).trans (frame_foldl _ (fun s j => frame_capComplete s j) _ _)

theorem frame_batchClose (b : Bool) (s : State) : Frame s (batchClose b s) := by
  unfold batchClose
  dsimp only
  split
  · exact Frame.refl _
  · split
    · exact Frame.dev _ _
    · exact (Frame.dev _ _).trans (frame_capBatch _ _)

theorem frame_beamStep (s : State) : Frame s (beamStep s) := by
  unfold beamStep
  dsimp only
  split
  · exact Frame.refl _
  · split
    · exact Frame.refl _
    · exact Frame.dev _ _

theorem frame_capFrontSpectrum (m : Nat) (s : State) : Frame s (capFrontSpectrum m s) := by
  unfold capFrontSpectrum
  dsimp only
  split
  · exact Frame.refl _
  · exact (frame_capSpectrum _ _ _).trans (frame_foldl _ (fun s j => frame_capComplete s j) _ _)

theorem frame_frRelease (s : State) (m : Nat) : Frame s (frRelease s m) := by
  unfold frRelease
  exact ((Frame.dev _ _).trans (frame_capFrontSpectrum _ _)).andDev _

theorem frame_frontSpectrum (s : State) : Frame s (frontSpectrum s) := by
  unfold frontSpectrum
  dsimp only
  refine Frame.ite _ (Frame.refl _) (Frame.ite _ (Frame.dev _ _) ?_)
  exact (Frame.dev _ _).trans (frame_frRelease _ _)

theorem frame_kurtosisBlock (s : State) : Frame s (kurtosisBlock s) := by
  unfold kurtosisBlock
  dsimp only
  refine Frame.ite _ (Frame.refl _) ?_
  exact (Frame.dev _ _).trans (frame_foldl _ (fun s m => frame_frRelease s m) _ _)

theorem frame_eyeDone (n e u : Nat) (s : State) : Frame s (eyeDone n e u s) := by
  unfold eyeDone
  dsimp only
  split
  · exact Frame.refl _
  · split
    · exact Frame.dev _ _
    · refine Frame.mems _ _ _ fun h => ?_
      split
      · exact memWf_wr _ _ h
      · exact h

/-! Scrubbing. -/

theorem frame_scrubOne (k a e : Nat) (s : State) : Frame s (scrubOne k a e s) := by
  unfold scrubOne
  dsimp only
  split
  · exact Frame.refl _
  · split
    · exact Frame.ite _ (Frame.dev _ _) (Frame.refl _)
    · exact Frame.ite _ (Frame.dev _ _) (Frame.mems _ _ _ (memWf_setSoft _ _ _))
    · refine Frame.mems _ _ _ fun h => ?_
      have h1 : (if k = 0 then s.mem else s.mem.setSoft k a 0).wf = true := by
        split
        · exact h
        · exact memWf_setSoft _ _ _ h
      split
      · exact memWf_poison _ _ h1
      · exact h1

theorem frame_patrolScrub (k e : Nat) (s : State) : Frame s (patrolScrub k e s) := by
  unfold patrolScrub
  dsimp only
  exact Frame.ite _ (Frame.refl _) (Frame.ite _ ((frame_scrubOne _ _ _ _).andDev _) ((frame_scrubOne _ _ _ _).andDev _))

/-! The mailbox. -/

theorem frame_finish (c : Cmd) (r : Reply) (s : State) : Frame s (finish c r s) := by
  unfold finish
  dsimp only
  refine Frame.mems _ _ _ fun h => ?_
  split
  · exact memWf_write _ _ _ _ h
  · exact h

/-- A command leaves the queue, the flash and the form of the memories alone. -/
def DefFrame (df : CmdDef) : Prop := ∀ c s, Frame s (df.run c s).2

theorem frame_onDev (f : Cmd → State → Reply × Dev) (c : Cmd) (s : State) : Frame s (onDev f c s).2 := Frame.dev _ _

theorem frame_carryOut {df : CmdDef} (h : DefFrame df) (c : Cmd) (s : State) : Frame s (carryOut df c s).2 := by
  unfold carryOut
  refine Frame.ite2 _ (Frame.refl _) (Frame.ite2 _ (Frame.refl _) (Frame.ite2 _ (Frame.refl _) (Frame.ite2 _ (Frame.refl _)
    (Frame.ite2 _ (Frame.refl _) (h c s)))))

theorem frame_serve {df : CmdDef} (h : DefFrame df) (slot s0 s1 : Nat) (s : State) : Frame s (serve df slot s0 s1 s) := by
  unfold serve
  dsimp only
  exact Frame.ite _ ((frame_carryOut h _ _).trans (frame_finish _ _ _)) (Frame.refl _)

theorem defFrame_runStart : DefFrame runStartDef := by
  intro c s
  unfold runStartDef
  dsimp only
  refine Frame.ite2 _ (Frame.refl _) (Frame.ite2 _ (Frame.refl _) (Frame.ite2 _ (Frame.refl _) ?_))
  exact (((frame_drainRun _ _).andDev _).trans (frame_foldl _ (fun s _ => frame_dumpComplete s) _ _)).andDev _

theorem defFrame_beamConfig : DefFrame beamConfigDef := by
  intro c s
  unfold beamConfigDef
  dsimp only
  refine Frame.ite2 _ (Frame.refl _) (Frame.ite2 _ (Frame.dev _ _) (Frame.ite2 _ (Frame.refl _) ?_))
  exact Frame.mems _ _ _ fun h => memWf_zero _ _ (memWf_zero _ _ h)

theorem defFrame_eccInject : DefFrame eccInjectDef := by
  intro c s
  unfold eccInjectDef
  dsimp only
  refine Frame.ite2 _ (Frame.refl _) (Frame.mems _ _ _ fun h => ?_)
  have h1 : ∀ (a : Nat) (bs : List Nat) (p : Bool), (if c.b 0 2 0 = 3 ∨ c.b 0 2 0 = 4 then s.mem else s.mem.store a bs p).wf = true := by
    intro a bs p
    split
    · exact h
    · exact memWf_store _ _ _ h
  split
  · exact memWf_setSoft _ _ _ (h1 _ _ _)
  · exact h1 _ _ _

theorem defFrame_profileRead : DefFrame profileReadDef := by
  intro c s
  unfold profileReadDef
  dsimp only
  refine Frame.ite2 _ (Frame.refl _) (Frame.ite2 _ (Frame.refl _) (Frame.mems s _ s.dev fun h => ?_))
  split
  · exact h
  · exact memWf_write _ _ _ _ h

theorem defFrame_coreStop : DefFrame coreStopDef := by
  intro c s
  unfold coreStopDef
  dsimp only
  have h := frame_toBoundary (s.dev.physOf c.coreNum) 800000 s
  generalize toBoundary (s.dev.physOf c.coreNum) 800000 s = t at h ⊢
  exact Frame.ite2 _ (Frame.dev _ _) (Frame.ite2 _ h (Frame.ite2 _ (h.andDev _) (h.andDev _)))

theorem defFrame_of {df : CmdDef} {f : Cmd → State → Reply × Dev} (h : df.run = onDev f) : DefFrame df := by
  intro c s
  rw [h]
  exact frame_onDev _ _ _

/-- Every command of the mailbox leaves the queue, the flash and the form of the memories alone. -/
theorem defFrame_commands {df : CmdDef} (h : df ∈ commands) : DefFrame df := by
  simp only [commands, cmds01, cmds02, cmds03, cmds04, cmds05, cmds06, cmds07, cmds08, cmds09, cmds0A, cmds0B, cmds0C, cmds0D,
    List.mem_append, List.mem_cons, List.not_mem_nil, or_false, or_assoc] at h
  rcases h with rfl | rfl | rfl | rfl | rfl | rfl | rfl | rfl | rfl | rfl | rfl | rfl | rfl | rfl | rfl | rfl | rfl | rfl | rfl | rfl | rfl | rfl | rfl | rfl | rfl | rfl | rfl | rfl | rfl | rfl | rfl | rfl | rfl | rfl | rfl | rfl | rfl | rfl | rfl | rfl | rfl | rfl | rfl | rfl | rfl | rfl | rfl | rfl | rfl | rfl | rfl | rfl | rfl | rfl | rfl | rfl | rfl | rfl | rfl | rfl | rfl | rfl | rfl | rfl | rfl | rfl | rfl | rfl | rfl | rfl | rfl | rfl | rfl | rfl | rfl | rfl | rfl | rfl | rfl | rfl | rfl | rfl | rfl | rfl | rfl | rfl | rfl | rfl | rfl | rfl | rfl | rfl | rfl | rfl | rfl | rfl | rfl | rfl | rfl | rfl | rfl | rfl | rfl | rfl | rfl | rfl | rfl | rfl | rfl | rfl | rfl
  · exact defFrame_of rfl
  · exact defFrame_of rfl
  · exact defFrame_of rfl
  · exact defFrame_of rfl
  · exact defFrame_of rfl
  · exact defFrame_of rfl
  · exact defFrame_of rfl
  · exact defFrame_of rfl
  · exact defFrame_of rfl
  · exact defFrame_of rfl
  · exact defFrame_of rfl
  · exact defFrame_of rfl
  · exact defFrame_of rfl
  · exact defFrame_of rfl
  · exact defFrame_of rfl
  · exact defFrame_of rfl
  · exact defFrame_of rfl
  · exact defFrame_of rfl
  · exact defFrame_of rfl
  · exact defFrame_of rfl
  · exact defFrame_of rfl
  · exact defFrame_of rfl
  · exact defFrame_of rfl
  · exact defFrame_of rfl
  · exact defFrame_of rfl
  · exact defFrame_of rfl
  · exact defFrame_of rfl
  · exact defFrame_of rfl
  · exact defFrame_of rfl
  · exact defFrame_of rfl
  · exact defFrame_of rfl
  · exact defFrame_of rfl
  · exact defFrame_of rfl
  · exact defFrame_of rfl
  · exact defFrame_of rfl
  · exact defFrame_of rfl
  · exact defFrame_of rfl
  · exact defFrame_of rfl
  · exact defFrame_of rfl
  · exact defFrame_of rfl
  · exact defFrame_of rfl
  · exact defFrame_of rfl
  · exact defFrame_of rfl
  · exact defFrame_of rfl
  · exact defFrame_of rfl
  · exact defFrame_of rfl
  · exact defFrame_of rfl
  · exact defFrame_of rfl
  · exact defFrame_of rfl
  · exact defFrame_of rfl
  · exact defFrame_of rfl
  · exact defFrame_runStart
  · exact defFrame_of rfl
  · exact defFrame_of rfl
  · exact defFrame_of rfl
  · exact defFrame_of rfl
  · exact defFrame_of rfl
  · exact defFrame_of rfl
  · exact defFrame_beamConfig
  · exact defFrame_of rfl
  · exact defFrame_of rfl
  · exact defFrame_of rfl
  · exact defFrame_of rfl
  · exact defFrame_of rfl
  · exact defFrame_of rfl
  · exact defFrame_of rfl
  · exact defFrame_of rfl
  · exact defFrame_of rfl
  · exact defFrame_of rfl
  · exact defFrame_of rfl
  · exact defFrame_of rfl
  · exact defFrame_of rfl
  · exact defFrame_of rfl
  · exact defFrame_of rfl
  · exact defFrame_of rfl
  · exact defFrame_of rfl
  · exact defFrame_of rfl
  · exact defFrame_of rfl
  · exact defFrame_of rfl
  · exact defFrame_of rfl
  · exact defFrame_of rfl
  · exact defFrame_of rfl
  · exact defFrame_of rfl
  · exact defFrame_of rfl
  · exact defFrame_of rfl
  · exact defFrame_coreStop
  · exact defFrame_of rfl
  · exact defFrame_of rfl
  · exact defFrame_of rfl
  · exact defFrame_of rfl
  · exact defFrame_of rfl
  · exact defFrame_of rfl
  · exact defFrame_of rfl
  · exact defFrame_eccInject
  · exact defFrame_of rfl
  · exact defFrame_of rfl
  · exact defFrame_of rfl
  · exact defFrame_of rfl
  · exact defFrame_of rfl
  · exact defFrame_of rfl
  · exact defFrame_of rfl
  · exact defFrame_of rfl
  · exact defFrame_profileRead
  · exact defFrame_of rfl
  · exact defFrame_of rfl
  · exact defFrame_of rfl
  · exact defFrame_of rfl
  · exact defFrame_of rfl
  · exact defFrame_of rfl
  · exact defFrame_of rfl
  · exact defFrame_of rfl

theorem frame_serve_mem {df : CmdDef} (h : df ∈ commands) (slot s0 s1 : Nat) (s : State) : Frame s (serve df slot s0 s1 s) :=
  frame_serve (defFrame_commands h) slot s0 s1 s

theorem defFrame_cmdOf {op : Nat} {df : CmdDef} (h : cmdOf op = some df) : DefFrame df :=
  defFrame_commands (List.mem_of_find?_eq_some h)

/-! DC-512. -/

theorem frame_persRunStart (s : State) : Frame s (persRunStart s) := by
  unfold persRunStart
  dsimp only
  exact Frame.ite _ (Frame.dev _ _) ((frame_drainRun _ _).andDev _)

theorem frame_serveDc (op p k : Nat) (run : State → (Nat × List Nat) × State) (h : ∀ s, Frame s (run s).2) (s : State) :
    Frame s (serveDc op p k run s) := by
  unfold serveDc
  exact Frame.ite _ ((h s).andDev _) (Frame.refl _)

theorem frame_onPers (f : Dev → (Nat × List Nat) × Dev) (s : State) : Frame s (onPers f s).2 := Frame.dev _ _

theorem frame_persStart (p v : Nat) (s : State) : Frame s (persStart p v s).2 := by
  unfold persStart
  exact Frame.ite2 _ (Frame.refl _) ((frame_persRunStart _).andDev _)

theorem frame_persLoadDsp (p k : Nat) (s : State) : Frame s (persLoadDsp p k s).2 := by
  unfold persLoadDsp
  exact Frame.ite2 _ (Frame.refl _) (Frame.mems s _ s.dev (memWf_write _ _ _ _))

theorem frame_takeDc (p k : Nat) (s : State) : Frame s (takeDc p k s) := by
  unfold takeDc
  dsimp only
  refine Frame.ite _ (Frame.refl _) (Frame.ite _ (Frame.dev _ _) (Frame.ite _ (Frame.dev _ _) ?_))
  split
  · exact frame_serveDc _ _ _ (onPers _) (frame_onPers _) s
  · exact frame_serveDc _ _ _ (persStart p _) (frame_persStart p _) s
  · exact frame_serveDc _ _ _ (onPers _) (frame_onPers _) s
  · exact frame_serveDc _ _ _ (onPers _) (frame_onPers _) s
  · exact frame_serveDc _ _ _ (onPers _) (frame_onPers _) s
  · exact frame_serveDc _ _ _ (persLoadDsp p k) (frame_persLoadDsp p k) s
  · exact frame_serveDc _ _ _ (onPers _) (frame_onPers _) s
  · exact frame_serveDc _ _ _ (onPers _) (frame_onPers _) s
  · exact frame_serveDc _ _ _ (onPers _) (frame_onPers _) s

theorem frame_takeUp (s0 s1 : Nat) (s : State) : Frame s (takeUp s0 s1 s) := by
  unfold takeUp
  split
  · exact Frame.refl _
  · split
    · exact frame_takeDc _ _ _
    · dsimp only
      split
      · rename_i h
        exact frame_serve (defFrame_cmdOf h) _ _ _ _
      · exact Frame.ite _ (frame_finish _ _ _) (Frame.refl _)

theorem frame_bar2 (w : Bool) (off len : Nat) (bs : List Nat) (ep : Bool) (s : State) : Frame s (bar2 w off len bs ep s) := by
  unfold bar2
  dsimp only
  refine Frame.ite _ (Frame.ite _ (frame_busWrite _ _ _ _ _) (Frame.dev _ _)) (Frame.ite _ (frame_answer _ _) ?_)
  exact (frame_busRead _ _ _ _).trans (frame_answer _ _)

/-! Jobs. -/

theorem frame_copyMove (l : List (Nat × Nat × Nat)) : ∀ (n : Nat) (p : Bool) (s : State), Frame s (copyMove l n p s).2.2.2 := by
  induction l with
  | nil => intro n p s; exact Frame.refl s
  | cons x r ih =>
    intro n p s
    unfold copyMove
    dsimp only
    split
    · exact frame_busRead _ _ _ _
    · split
      · exact (frame_busRead _ _ _ _).trans (frame_busWrite _ _ _ _ _)
      · exact ((frame_busRead _ _ _ _).trans (frame_busWrite _ _ _ _ _)).trans (ih _ _ _)

theorem frame_copyWork (s : State) (i : Nat) : Frame s (copyWork s i).1 := by
  obtain ⟨r, hr, k, e⟩ : ∃ r : Nat × Bool × Option Nat × State, Frame s r.2.2.2 ∧ ∃ k, copyWork s i = (r.2.2.2, k) :=
    ⟨copyMove _ _ _ _, frame_copyMove _ _ _ _, _, rfl⟩
  rw [e]
  exact hr

theorem frame_areaWrite (s : State) (i : Nat) (bs : List Nat) : Frame s (areaWrite s i bs) := by
  unfold areaWrite
  split
  · exact Frame.mems s _ s.dev (memWf_wr _ _)
  · exact Frame.refl _

theorem frame_write (s : State) (d e : Dev) (a : Nat) (bs : List Nat) (p : Bool) :
    Frame s { s with mem := (memWrite d s.mem a bs p).2, dev := e } := Frame.mems _ _ _ (memWf_write _ _ _ _)

theorem frame_modelTableWork (s : State) (i : Nat) : Frame s (modelTableWork s i).1 := by
  unfold modelTableWork
  dsimp only
  split
  · exact Frame.refl _
  · split
    · exact Frame.refl _
    · exact (Frame.dev _ _).trans (frame_areaWrite _ _ _)

theorem frame_coefLoadWork (s : State) (i : Nat) : Frame s (coefLoadWork s i).1 := by
  unfold coefLoadWork
  dsimp only
  split
  · exact Frame.refl _
  · split
    · exact Frame.refl _
    · exact Frame.dev _ _

theorem frame_gainLoadWork (s : State) (i : Nat) : Frame s (gainLoadWork s i).1 := by
  unfold gainLoadWork
  dsimp only
  split
  · exact Frame.refl _
  · split <;> exact Frame.dev _ _

theorem frame_beamLoadWork (s : State) (i : Nat) : Frame s (beamLoadWork s i).1 := by
  unfold beamLoadWork
  dsimp only
  split
  · exact Frame.refl _
  · split
    · exact Frame.dev _ _
    · split
      · exact Frame.dev _ _
      · exact frame_write _ _ _ _ _ _

theorem frame_capReadWork (s : State) (i : Nat) : Frame s (capReadWork s i).1 := by
  unfold capReadWork
  dsimp only
  split
  · split
    · exact Frame.refl _
    · split <;> exact Frame.dev _ _
  · exact frame_write s s.dev s.dev _ _ _

theorem frame_bondSetEnd (r : Dev × Option (Nat × Nat × Nat)) (i : Nat) (s : State) : Frame s (bondSetEnd r i s).1 := by
  unfold bondSetEnd
  split
  · exact Frame.dev _ _
  · refine Frame.mems _ _ _ fun h => ?_
    split
    · exact memWf_wr _ _ h
    · exact h

theorem frame_bondSetJudge (t : Except Code (List Nat)) (i : Nat) (s : State) : Frame s (bondSetJudge t i s).1 := by
  unfold bondSetJudge
  split
  · exact Frame.refl _
  · exact frame_bondSetEnd _ _ _

theorem frame_bondSetWork (s : State) (i : Nat) : Frame s (bondSetWork s i).1 := frame_bondSetJudge _ _ _

theorem frame_cvuWork (s : State) (i : Nat) : Frame s (cvuWork s i).1 := by
  unfold cvuWork
  dsimp only
  split
  · exact Frame.refl _
  · split
    · exact Frame.refl _
    · split
      · exact Frame.mems _ _ _ (memWf_wr _ _)
      · exact Frame.dev _ _

theorem frame_chkFail (k u : Nat) (s : State) : Frame s (chkFail k u s) := by
  unfold chkFail
  dsimp only
  refine Frame.ite _ (Frame.ite _ ((Frame.dev _ _).trans (frame_tuckCore _ _)) (Frame.dev _ _)) (Frame.ite _ (Frame.dev _ _)
    (Frame.ite _ (Frame.dev _ _) (Frame.ite _ (Frame.dev _ _) (Frame.dev _ _))))

theorem frame_testFailed (k i : Nat) (bad : List Nat) (s : State) : Frame s (testFailed k i bad s) := by
  unfold testFailed
  dsimp only
  split
  · exact Frame.ite _ (Frame.dev _ _) (Frame.ite _ ((Frame.dev _ _).trans (frame_tuckCore _ _)) (Frame.dev _ _))
  · exact Frame.dev _ _
  · have h := (Frame.dev s (s.dev.raise 0x000D i 0 3)).trans (frame_foldl (fun x u => chkFail i u x) (fun x u => frame_chkFail i u x) bad
      { s with dev := s.dev.raise 0x000D i 0 3 })
    exact Frame.ite _ (h.andDev _) h
  · exact Frame.dev _ _
  · exact Frame.dev _ _
  · exact Frame.refl _

theorem frame_selftestWork (bad : List Nat) (s : State) (i : Nat) : Frame s (selftestWork bad s i).1 := by
  unfold selftestWork
  dsimp only
  have h1 : ∀ k n, Frame s (if k = 1 then coreTested n s else s) := fun k n => Frame.ite _ (frame_coreTested _ _) (Frame.refl _)
  split
  · exact (h1 _ _).andDev _
  · exact ((h1 _ _).andDev _).trans (frame_testFailed _ _ _ _)

/-- The work of an FW_IMAGE job changes the image slots of the flash and nothing else of it. -/
theorem calm_fwImageWork (s : State) (i : Nat) : Calm s (fwImageWork s i).1 ∧
    ∃ a b, (fwImageWork s i).1.flash = { s.flash with imgA := a, imgB := b } := by
  unfold fwImageWork
  dsimp only
  have h0 : ∃ a b, s.flash = { s.flash with imgA := a, imgB := b } := ⟨s.flash.imgA, s.flash.imgB, rfl⟩
  have h1 : ∀ (k : Nat) (img : List Nat), ∃ a b,
      (if k = 0 then { s.flash with imgA := img } else { s.flash with imgB := img } : Flash) = { s.flash with imgA := a, imgB := b } := by
    intro k img
    split
    · exact ⟨img, s.flash.imgB, rfl⟩
    · exact ⟨s.flash.imgA, img, rfl⟩
  split
  · exact ⟨Calm.refl _, h0⟩
  · split
    · exact ⟨Calm.refl _, h0⟩
    · split
      · exact ⟨⟨rfl, id⟩, h1 _ _⟩
      · exact ⟨⟨rfl, id⟩, h1 _ _⟩

/-- The work of a job: of the flash, only the image slots change. -/
theorem calm_jobWork (op : Nat) (bad : List Nat) (i : Nat) (s : State) : Calm s (jobWork op bad i s).1 ∧
    ∃ a b, (jobWork op bad i s).1.flash = { s.flash with imgA := a, imgB := b } := by
  have h0 : ∀ t, Frame s t → Calm s t ∧ ∃ a b, t.flash = { s.flash with imgA := a, imgB := b } :=
    fun t h => ⟨h.toCalm, s.flash.imgA, s.flash.imgB, h.flash⟩
  unfold jobWork
  split
  · exact h0 _ (frame_copyWork _ _)
  · exact h0 _ (frame_write s s.dev s.dev _ _ _)
  · exact h0 _ (frame_write _ _ _ _ _ _)
  · exact h0 _ (frame_modelTableWork _ _)
  · exact h0 _ (frame_coefLoadWork _ _)
  · exact h0 _ (frame_gainLoadWork _ _)
  · exact h0 _ (frame_write s s.dev s.dev _ _ _)
  · exact h0 _ (frame_write s s.dev s.dev _ _ _)
  · exact h0 _ (frame_bondSetWork _ _)
  · exact h0 _ (frame_beamLoadWork _ _)
  · exact h0 _ (frame_capReadWork _ _)
  · exact h0 _ (frame_coreLoadWork _ _)
  · exact h0 _ (frame_coreTuckWork _ _)
  · exact h0 _ (frame_cvuWork _ _)
  · exact calm_fwImageWork _ _
  · exact h0 _ (frame_selftestWork _ _ _)
  · exact h0 _ (Frame.refl _)

theorem calm_jobDone (i : Nat) (bad : List Nat) (s : State) : Calm s (jobDone i bad s) ∧
    ∃ a b, (jobDone i bad s).flash = { s.flash with imgA := a, imgB := b } := by
  unfold jobDone
  dsimp only
  split
  · exact ⟨⟨rfl, id⟩, s.flash.imgA, s.flash.imgB, rfl⟩
  · split
    · obtain ⟨⟨hp, hm⟩, hf⟩ := calm_jobWork (s.dev.jobOp i) bad i s
      split
      · exact ⟨⟨hp, hm⟩, hf⟩
      · exact ⟨⟨hp, hm⟩, hf⟩
    · exact ⟨Calm.refl _, s.flash.imgA, s.flash.imgB, rfl⟩

/-! Resets, the debug port and start-up. -/

theorem frame_beginReset (k : Nat) (s : State) : Frame s (beginReset k s) := by
  unfold beginReset
  dsimp only
  exact Frame.ite _ (Frame.refl _) (Frame.mems _ _ _ memWf_hostOnly)

theorem frame_resetEnd (a b c : Bool) (s : State) : Frame s (resetEnd a b c s) := by
  unfold resetEnd
  dsimp only
  exact Frame.ite _ (Frame.refl _) (Frame.mems _ _ _ memWf_hostOnly)

theorem calm_powerOff (w a : Bool) (k : Nat) (s : State) : Calm s (powerOff w a k s) := ⟨rfl, memWf_hostOnly⟩

theorem frame_qdpStep (c : Nat) (s : State) : Frame s (qdpStep c s) := by
  unfold qdpStep
  dsimp only
  have h := ((Frame.dev s (s.dev.qdpResume c)).trans (frame_stepCore c _)).trans (frame_toBoundary c (2 ^ 24 + 4) _)
  generalize toBoundary c (2 ^ 24 + 4) _ = t at h ⊢
  exact Frame.ite _ (Frame.refl _) (Frame.ite _ (h.andDev _) h)

theorem frame_qdRead (s : State) : Frame s (qdRead s).2.2 := by
  unfold qdRead
  have h := frame_busRead 11 (s.dev.qdAddr / 4 * 4) 4 s
  generalize busRead 11 (s.dev.qdAddr / 4 * 4) 4 s = r at h ⊢
  exact Frame.ite3 _ (h.andDev _) (Frame.ite3 _ (h.andDev _) (h.andDev _))

theorem frame_qdDone (f : Dev → Dev) {s : State} (w : Bool × State) (h : Frame s w.2) : Frame s (qdDone f w).2 := h.andDev _

theorem frame_qdWrite (v : Nat) (s : State) : Frame s (qdWrite v s).2 := by
  unfold qdWrite
  exact Frame.ite2 _ (Frame.ite2 _ (frame_qdDone _ (false, s) (Frame.refl _)) (frame_qdDone _ _ (frame_regWrite _ _ _ _ _)))
    (frame_qdDone _ _ (frame_busWrite _ _ _ _ _))

theorem frame_qdAnswer (v : Nat) {s : State} (w : Nat × State) (h : Frame s w.2) : Frame s (qdAnswer v w).2.2 := h

theorem frame_qdCtrl (v : Nat) (s : State) : Frame s (qdCtrl v s) := by
  unfold qdCtrl
  dsimp only
  have h1 : ∀ (c : Nat) (d e : Dev), Frame s (if bit v 3 then { s with dev := (if bit v 2 then e else d).qdpResume c }
      else { s with dev := if bit v 2 then e else d }) := fun c d e => Frame.ite _ (Frame.dev _ _) (Frame.dev _ _)
  refine Frame.ite _ (Frame.trans ?_ (frame_beginReset _ _)) ?_
  · exact Frame.ite _ ((h1 _ _ _).trans (frame_qdpStep _ _)) (h1 _ _ _)
  · exact Frame.ite _ ((h1 _ _ _).trans (frame_qdpStep _ _)) (h1 _ _ _)

theorem frame_qdAccess (a : Nat) (w : Bool) (v : Nat) (s : State) : Frame s (qdAccess a w v s).2.2 := by
  unfold qdAccess
  have h1 := frame_qdCtrl v s
  extract_lets d c reg
  have hr : ∀ b, Frame s (reg b).2.2 := fun b => Frame.ite3 _ (Frame.dev _ _) (Frame.refl _)
  clear_value reg c d
  refine Frame.ite3 _ (Frame.refl _) (Frame.ite3 _ (Frame.refl _) (Frame.ite3 _ (Frame.ite3 _ h1 (Frame.refl _)) ?_))
  refine Frame.ite3 _ (Frame.ite3 _ (Frame.dev _ _) (Frame.refl _)) (Frame.ite3 _ (hr _) ?_)
  refine Frame.ite3 _ (Frame.ite3 _ (Frame.dev _ _) (Frame.refl _)) (Frame.ite3 _ (Frame.ite3 _ (frame_qdAnswer _ _ (frame_qdWrite _ _)) (frame_qdRead _)) ?_)
  refine Frame.ite3 _ (Frame.ite3 _ (Frame.refl _) (Frame.ite3 _ (Frame.dev _ _) (Frame.refl _))) ?_
  exact Frame.ite3 _ (Frame.ite3 _ (hr _) (Frame.refl _)) (Frame.ite3 _ (hr _) (Frame.refl _))

theorem frame_qdpScan (v : Nat) (slow : Bool) (s : State) : Frame s (qdpScan v slow s) := by
  unfold qdpScan
  dsimp only
  split
  · exact Frame.refl _
  · split
    · exact Frame.dev _ _
    · exact ((Frame.dev _ _).trans (frame_qdAccess _ _ _ _)).andDev _

theorem frame_bootCore {p : Bool} {s t : State} (h : bootCore p s = some t) : Frame s t := by
  unfold bootCore at h
  dsimp only at h
  split at h
  · injection h with e; subst e; exact (frame_coreTested _ _).andDev _
  · split at h
    · injection h with e; subst e; exact (frame_coreTested _ _).andDev _
    · exact absurd h nofun

theorem frame_bootImage (k : Nat) (t f : Bool) (s : State) : Frame s (bootImage k t f s) := by
  unfold bootImage
  dsimp only
  exact Frame.mems _ _ _ (memWf_store _ _ _)

/-- The selection that the boot ROM makes of the flash. -/
def bootFlash (f : Flash) (still ok : Bool) : Flash :=
  let g := (if f.engine = .erasing then f.suspend still else f).select
  if ok then g else { g with selValid := false }

/-- The boot ROM makes its selection of the flash and leaves the rest to operations that keep it. -/
theorem frame_bootRom (p f : Bool) (chk : List (Nat × Nat)) (s : State) : Frame s (bootRom p f chk s) ∨
    (s.flash.engine ≠ .programming ∧ s.flash.engine ≠ .verifying ∧ ∃ k d, Frame { s with flash := bootFlash s.flash k f, dev := d }
      (bootRom p f chk s)) := by
  unfold bootRom
  dsimp only
  split
  · exact Or.inl (Frame.refl _)
  · rename_i hg
    simp only [Bool.or_eq_true, not_or, beq_iff_eq] at hg
    refine Or.inr ⟨hg.1.2, hg.2, s.dev.free % 2 == 0,
      { (if s.flash.engine = .erasing then s.dev.drew else s.dev) with ret := (bootFlash s.flash (s.dev.free % 2 == 0) f).image }, ?_⟩
    unfold bootFlash
    dsimp only
    generalize (if f = true then (if s.flash.engine = .erasing then s.flash.suspend (s.dev.free % 2 == 0) else s.flash).select
        else { (if s.flash.engine = .erasing then s.flash.suspend (s.dev.free % 2 == 0) else s.flash).select with selValid := false }) = g
    generalize ({ s with flash := g, dev := { (if s.flash.engine = .erasing then s.dev.drew else s.dev) with ret := g.image } } : State) = t
    split
    · exact Frame.refl _
    · rename_i s2 hb
      have h2 := ((frame_bootCore hb).andDev s2.dev.romId).trans (frame_foldl (fun t x => chkFail x.1 x.2 t) (fun t x => frame_chkFail _ _ t) chk _)
      refine Frame.ite _ (h2.andDev _) (Frame.ite _ (h2.andDev _) (Frame.ite _ (h2.andDev _) ?_))
      split
      · exact h2.andDev _
      · exact h2.trans (frame_bootImage _ _ _ _)

theorem frame_replayOne (s : State) (r : Nat × List Nat) : Frame s (replayOne s r) := by
  unfold replayOne
  dsimp only
  refine Frame.ite _ (Frame.ite _ (Frame.refl _) (Frame.dev _ _)) (Frame.ite _ (Frame.ite _ (Frame.dev _ _) (Frame.dev _ _)) ?_)
  split
  · exact Frame.dev _ _
  · rename_i h
    exact Frame.ite _ (Frame.dev _ _) (Frame.ite _ (defFrame_cmdOf h _ _) (Frame.dev _ _))

theorem calm_restore (ack : Bool) (s : State) : Calm s (restore ack s) ∧
    ((restore ack s).flash = s.flash ∨ (restore ack s).flash = s.flash.erase) := by
  unfold restore
  dsimp only
  split
  · exact ⟨Calm.refl _, Or.inl rfl⟩
  · have h : ∀ (d : Dev), Frame { s with flash := s.flash.erase, dev := d } (if d.pwr.recovery then { s with flash := s.flash.erase, dev := d }
        else d.ret.profile.foldl replayOne { s with flash := s.flash.erase, dev := d }) :=
      fun d => Frame.ite _ (Frame.refl _) (frame_foldl _ frame_replayOne _ _)
    refine ⟨⟨(h _).pending, fun m => (h _).mem m⟩, Or.inr (h _).flash⟩

theorem frame_train (dimm : List Nat) (rate : Nat) (u c l t : List Nat) (chk : List (Nat × Nat)) (ok : Bool) (s : State) :
    Frame s (train dimm rate u c l t chk ok s) := by
  unfold train
  dsimp only
  refine Frame.ite _ (Frame.refl _) (Frame.andDev ((Frame.dev _ _).trans (frame_foldl (fun (t : State) (x : Nat × Nat) => chkFail x.1 x.2 t)
    (fun t x => frame_chkFail _ _ t) _ _)) _)

theorem calm_commitStart (a b : Nat) (s : State) : Calm s (commitStart a b s) := by
  unfold commitStart
  dsimp only
  repeat' split
  all_goals exact ⟨rfl, id⟩

theorem calm_commitReadback (b : Bool) (s : State) : Calm s (commitReadback b s) := by
  unfold commitReadback
  dsimp only
  repeat' split
  all_goals exact ⟨rfl, id⟩

end Sys2Proof.Laws
end

