-- ==== Sys2Proof/Laws/Mailbox.lean ====
section
/-!
SUPPORT. What firmware does with the slot at the front: one law for the commands that pass the common checks, and one for jobs.
-/
namespace Sys2Proof.Laws
open Sys2Proof.Machine

/-- A command that passes the common checks runs, and its slot is answered and released. -/
theorem serve_ready {df : CmdDef} {slot s0 s1 : Nat} {s : State} (h : ready df slot s0 s1 s = true) :
    serve df slot s0 s1 s = finish (s.dev.readCmd slot s0 s1) (df.run (s.dev.readCmd slot s0 s1) s).1
      (df.run (s.dev.readCmd slot s0 s1) s).2 := by
  unfold ready at h
  dsimp only at h
  simp only [Bool.and_eq_true, Bool.not_eq_true'] at h
  obtain ⟨⟨⟨⟨⟨h0, h1⟩, h2⟩, h3⟩, h4⟩, h5⟩ := h
  unfold serve carryOut
  simp only [h0, h1, h2, h3, h4, Bool.and_self, Bool.false_eq_true, if_false, if_true]
  simp only [beq_iff_eq] at h5
  simp [h5]

/-- The same for a command that changes the device alone: it is enough to know what the command gives. -/
theorem serve_dev {df : CmdDef} {slot s0 s1 : Nat} {s : State} (h : ready df slot s0 s1 s = true) {f : Cmd → State → Reply × Dev}
    (e : df.run = onDev f) {r : Reply × Dev} (hr : f (s.dev.readCmd slot s0 s1) s = r) :
    serve df slot s0 s1 s = answered (s.dev.readCmd slot s0 s1) r s := by
  rw [serve_ready h, e, onDev, hr, answered]

/-- A command accepted as a job answers its ticket. -/
theorem asJob_some {c : Cmd} {d e : Dev} {unit i : Nat} {area : Bool} (h : c.job d unit area = some (i, e)) (pre : Nat → Dev → Dev) :
    asJob c d unit area pre = ({ code := .accepted, ticket := e.ticket i }, pre i e) := by
  unfold Cmd.job at h
  unfold asJob
  rw [h]

/-- Without a free index or area a job is refused with NO_RESOURCE. -/
theorem asJob_none {c : Cmd} {d : Dev} {unit : Nat} {area : Bool} (h : c.job d unit area = none) (pre : Nat → Dev → Dev) :
    asJob c d unit area pre = ({ code := .noResource }, d) := by
  unfold Cmd.job at h
  unfold asJob noR
  rw [h]

end Sys2Proof.Laws
end

