-- ==== Sys2Proof/Laws/State.lean ====
section
/-!
SUPPORT. One law for each field and each update of the state, the device and the memories: what an update leaves of the fields, all
true by unfolding, so that no later proof unfolds a record update.
-/
namespace Sys2Proof.Laws
open Sys2Proof.Machine

/-! The whole state. -/

@[simp] theorem pending_with_pending (s : State) (x : List Instr) : ({ s with pending := x } : State).pending = x := rfl
@[simp] theorem flash_with_pending (s : State) (x : List Instr) : ({ s with pending := x } : State).flash = s.flash := rfl
@[simp] theorem mem_with_pending (s : State) (x : List Instr) : ({ s with pending := x } : State).mem = s.mem := rfl
@[simp] theorem dev_with_pending (s : State) (x : List Instr) : ({ s with pending := x } : State).dev = s.dev := rfl
@[simp] theorem pending_with_flash (s : State) (x : Flash) : ({ s with flash := x } : State).pending = s.pending := rfl
@[simp] theorem flash_with_flash (s : State) (x : Flash) : ({ s with flash := x } : State).flash = x := rfl
@[simp] theorem mem_with_flash (s : State) (x : Flash) : ({ s with flash := x } : State).mem = s.mem := rfl
@[simp] theorem dev_with_flash (s : State) (x : Flash) : ({ s with flash := x } : State).dev = s.dev := rfl
@[simp] theorem pending_with_mem (s : State) (x : Mem) : ({ s with mem := x } : State).pending = s.pending := rfl
@[simp] theorem flash_with_mem (s : State) (x : Mem) : ({ s with mem := x } : State).flash = s.flash := rfl
@[simp] theorem mem_with_mem (s : State) (x : Mem) : ({ s with mem := x } : State).mem = x := rfl
@[simp] theorem dev_with_mem (s : State) (x : Mem) : ({ s with mem := x } : State).dev = s.dev := rfl
@[simp] theorem pending_with_dev (s : State) (x : Dev) : ({ s with dev := x } : State).pending = s.pending := rfl
@[simp] theorem flash_with_dev (s : State) (x : Dev) : ({ s with dev := x } : State).flash = s.flash := rfl
@[simp] theorem mem_with_dev (s : State) (x : Dev) : ({ s with dev := x } : State).mem = s.mem := rfl
@[simp] theorem dev_with_dev (s : State) (x : Dev) : ({ s with dev := x } : State).dev = x := rfl

/-! The device after `Dev.wr`, which changes `regs` alone. -/

@[simp] theorem latch_wr (d : Dev) (a : Nat) (v : Sys2Proof.Word64) : (d.wr a v).latch = d.latch := rfl
@[simp] theorem now_wr (d : Dev) (a : Nat) (v : Sys2Proof.Word64) : (d.wr a v).now = d.now := rfl
@[simp] theorem tod_wr (d : Dev) (a : Nat) (v : Sys2Proof.Word64) : (d.wr a v).tod = d.tod := rfl
@[simp] theorem fresh_wr (d : Dev) (a : Nat) (v : Sys2Proof.Word64) : (d.wr a v).fresh = d.fresh := rfl
@[simp] theorem out_wr (d : Dev) (a : Nat) (v : Sys2Proof.Word64) : (d.wr a v).out = d.out := rfl
@[simp] theorem host_wr (d : Dev) (a : Nat) (v : Sys2Proof.Word64) : (d.wr a v).host = d.host := rfl
@[simp] theorem jobs_wr (d : Dev) (a : Nat) (v : Sys2Proof.Word64) : (d.wr a v).jobs = d.jobs := rfl
@[simp] theorem jobSeq_wr (d : Dev) (a : Nat) (v : Sys2Proof.Word64) : (d.wr a v).jobSeq = d.jobSeq := rfl
@[simp] theorem errq_wr (d : Dev) (a : Nat) (v : Sys2Proof.Word64) : (d.wr a v).errq = d.errq := rfl
@[simp] theorem errSeq_wr (d : Dev) (a : Nat) (v : Sys2Proof.Word64) : (d.wr a v).errSeq = d.errSeq := rfl
@[simp] theorem cvu_wr (d : Dev) (a : Nat) (v : Sys2Proof.Word64) : (d.wr a v).cvu = d.cvu := rfl
@[simp] theorem dma_wr (d : Dev) (a : Nat) (v : Sys2Proof.Word64) : (d.wr a v).dma = d.dma := rfl
@[simp] theorem xbLast_wr (d : Dev) (a : Nat) (v : Sys2Proof.Word64) : (d.wr a v).xbLast = d.xbLast := rfl
@[simp] theorem ret_wr (d : Dev) (a : Nat) (v : Sys2Proof.Word64) : (d.wr a v).ret = d.ret := rfl
@[simp] theorem pwr_wr (d : Dev) (a : Nat) (v : Sys2Proof.Word64) : (d.wr a v).pwr = d.pwr := rfl
@[simp] theorem lanes_wr (d : Dev) (a : Nat) (v : Sys2Proof.Word64) : (d.wr a v).lanes = d.lanes := rfl
@[simp] theorem lgroups_wr (d : Dev) (a : Nat) (v : Sys2Proof.Word64) : (d.wr a v).lgroups = d.lgroups := rfl
@[simp] theorem bulk_wr (d : Dev) (a : Nat) (v : Sys2Proof.Word64) : (d.wr a v).bulk = d.bulk := rfl
@[simp] theorem jesd_wr (d : Dev) (a : Nat) (v : Sys2Proof.Word64) : (d.wr a v).jesd = d.jesd := rfl
@[simp] theorem pll_wr (d : Dev) (a : Nat) (v : Sys2Proof.Word64) : (d.wr a v).pll = d.pll := rfl
@[simp] theorem aslSlots_wr (d : Dev) (a : Nat) (v : Sys2Proof.Word64) : (d.wr a v).aslSlots = d.aslSlots := rfl
@[simp] theorem front_wr (d : Dev) (a : Nat) (v : Sys2Proof.Word64) : (d.wr a v).front = d.front := rfl
@[simp] theorem run_wr (d : Dev) (a : Nat) (v : Sys2Proof.Word64) : (d.wr a v).run = d.run := rfl
@[simp] theorem tim_wr (d : Dev) (a : Nat) (v : Sys2Proof.Word64) : (d.wr a v).tim = d.tim := rfl
@[simp] theorem beam_wr (d : Dev) (a : Nat) (v : Sys2Proof.Word64) : (d.wr a v).beam = d.beam := rfl
@[simp] theorem memc_wr (d : Dev) (a : Nat) (v : Sys2Proof.Word64) : (d.wr a v).memc = d.memc := rfl
@[simp] theorem cap_wr (d : Dev) (a : Nat) (v : Sys2Proof.Word64) : (d.wr a v).cap = d.cap := rfl
@[simp] theorem net_wr (d : Dev) (a : Nat) (v : Sys2Proof.Word64) : (d.wr a v).net = d.net := rfl
@[simp] theorem scrub_wr (d : Dev) (a : Nat) (v : Sys2Proof.Word64) : (d.wr a v).scrub = d.scrub := rfl
@[simp] theorem therm_wr (d : Dev) (a : Nat) (v : Sys2Proof.Word64) : (d.wr a v).therm = d.therm := rfl
@[simp] theorem twin_wr (d : Dev) (a : Nat) (v : Sys2Proof.Word64) : (d.wr a v).twin = d.twin := rfl
@[simp] theorem cores_wr (d : Dev) (a : Nat) (v : Sys2Proof.Word64) : (d.wr a v).cores = d.cores := rfl
@[simp] theorem tap_wr (d : Dev) (a : Nat) (v : Sys2Proof.Word64) : (d.wr a v).tap = d.tap := rfl
@[simp] theorem pers_wr (d : Dev) (a : Nat) (v : Sys2Proof.Word64) : (d.wr a v).pers = d.pers := rfl
@[simp] theorem persRun_wr (d : Dev) (a : Nat) (v : Sys2Proof.Word64) : (d.wr a v).persRun = d.persRun := rfl
@[simp] theorem tucks_wr (d : Dev) (a : Nat) (v : Sys2Proof.Word64) : (d.wr a v).tucks = d.tucks := rfl

/-! The device after `Dev.wrN`, which changes `regs` alone. -/

@[simp] theorem latch_wrN (d : Dev) (a v : Nat) : (d.wrN a v).latch = d.latch := rfl
@[simp] theorem now_wrN (d : Dev) (a v : Nat) : (d.wrN a v).now = d.now := rfl
@[simp] theorem tod_wrN (d : Dev) (a v : Nat) : (d.wrN a v).tod = d.tod := rfl
@[simp] theorem fresh_wrN (d : Dev) (a v : Nat) : (d.wrN a v).fresh = d.fresh := rfl
@[simp] theorem out_wrN (d : Dev) (a v : Nat) : (d.wrN a v).out = d.out := rfl
@[simp] theorem host_wrN (d : Dev) (a v : Nat) : (d.wrN a v).host = d.host := rfl
@[simp] theorem jobs_wrN (d : Dev) (a v : Nat) : (d.wrN a v).jobs = d.jobs := rfl
@[simp] theorem jobSeq_wrN (d : Dev) (a v : Nat) : (d.wrN a v).jobSeq = d.jobSeq := rfl
@[simp] theorem errq_wrN (d : Dev) (a v : Nat) : (d.wrN a v).errq = d.errq := rfl
@[simp] theorem errSeq_wrN (d : Dev) (a v : Nat) : (d.wrN a v).errSeq = d.errSeq := rfl
@[simp] theorem cvu_wrN (d : Dev) (a v : Nat) : (d.wrN a v).cvu = d.cvu := rfl
@[simp] theorem dma_wrN (d : Dev) (a v : Nat) : (d.wrN a v).dma = d.dma := rfl
@[simp] theorem xbLast_wrN (d : Dev) (a v : Nat) : (d.wrN a v).xbLast = d.xbLast := rfl
@[simp] theorem ret_wrN (d : Dev) (a v : Nat) : (d.wrN a v).ret = d.ret := rfl
@[simp] theorem pwr_wrN (d : Dev) (a v : Nat) : (d.wrN a v).pwr = d.pwr := rfl
@[simp] theorem lanes_wrN (d : Dev) (a v : Nat) : (d.wrN a v).lanes = d.lanes := rfl
@[simp] theorem lgroups_wrN (d : Dev) (a v : Nat) : (d.wrN a v).lgroups = d.lgroups := rfl
@[simp] theorem bulk_wrN (d : Dev) (a v : Nat) : (d.wrN a v).bulk = d.bulk := rfl
@[simp] theorem jesd_wrN (d : Dev) (a v : Nat) : (d.wrN a v).jesd = d.jesd := rfl
@[simp] theorem pll_wrN (d : Dev) (a v : Nat) : (d.wrN a v).pll = d.pll := rfl
@[simp] theorem aslSlots_wrN (d : Dev) (a v : Nat) : (d.wrN a v).aslSlots = d.aslSlots := rfl
@[simp] theorem front_wrN (d : Dev) (a v : Nat) : (d.wrN a v).front = d.front := rfl
@[simp] theorem run_wrN (d : Dev) (a v : Nat) : (d.wrN a v).run = d.run := rfl
@[simp] theorem tim_wrN (d : Dev) (a v : Nat) : (d.wrN a v).tim = d.tim := rfl
@[simp] theorem beam_wrN (d : Dev) (a v : Nat) : (d.wrN a v).beam = d.beam := rfl
@[simp] theorem memc_wrN (d : Dev) (a v : Nat) : (d.wrN a v).memc = d.memc := rfl
@[simp] theorem cap_wrN (d : Dev) (a v : Nat) : (d.wrN a v).cap = d.cap := rfl
@[simp] theorem net_wrN (d : Dev) (a v : Nat) : (d.wrN a v).net = d.net := rfl
@[simp] theorem scrub_wrN (d : Dev) (a v : Nat) : (d.wrN a v).scrub = d.scrub := rfl
@[simp] theorem therm_wrN (d : Dev) (a v : Nat) : (d.wrN a v).therm = d.therm := rfl
@[simp] theorem twin_wrN (d : Dev) (a v : Nat) : (d.wrN a v).twin = d.twin := rfl
@[simp] theorem cores_wrN (d : Dev) (a v : Nat) : (d.wrN a v).cores = d.cores := rfl
@[simp] theorem tap_wrN (d : Dev) (a v : Nat) : (d.wrN a v).tap = d.tap := rfl
@[simp] theorem pers_wrN (d : Dev) (a v : Nat) : (d.wrN a v).pers = d.pers := rfl
@[simp] theorem persRun_wrN (d : Dev) (a v : Nat) : (d.wrN a v).persRun = d.persRun := rfl
@[simp] theorem tucks_wrN (d : Dev) (a v : Nat) : (d.wrN a v).tucks = d.tucks := rfl

/-! The device after `Dev.setF`, which changes `regs` alone. -/

@[simp] theorem latch_setF (d : Dev) (a : Nat) (f : Fld) (v : Nat) : (d.setF a f v).latch = d.latch := rfl
@[simp] theorem now_setF (d : Dev) (a : Nat) (f : Fld) (v : Nat) : (d.setF a f v).now = d.now := rfl
@[simp] theorem tod_setF (d : Dev) (a : Nat) (f : Fld) (v : Nat) : (d.setF a f v).tod = d.tod := rfl
@[simp] theorem fresh_setF (d : Dev) (a : Nat) (f : Fld) (v : Nat) : (d.setF a f v).fresh = d.fresh := rfl
@[simp] theorem out_setF (d : Dev) (a : Nat) (f : Fld) (v : Nat) : (d.setF a f v).out = d.out := rfl
@[simp] theorem host_setF (d : Dev) (a : Nat) (f : Fld) (v : Nat) : (d.setF a f v).host = d.host := rfl
@[simp] theorem jobs_setF (d : Dev) (a : Nat) (f : Fld) (v : Nat) : (d.setF a f v).jobs = d.jobs := rfl
@[simp] theorem jobSeq_setF (d : Dev) (a : Nat) (f : Fld) (v : Nat) : (d.setF a f v).jobSeq = d.jobSeq := rfl
@[simp] theorem errq_setF (d : Dev) (a : Nat) (f : Fld) (v : Nat) : (d.setF a f v).errq = d.errq := rfl
@[simp] theorem errSeq_setF (d : Dev) (a : Nat) (f : Fld) (v : Nat) : (d.setF a f v).errSeq = d.errSeq := rfl
@[simp] theorem cvu_setF (d : Dev) (a : Nat) (f : Fld) (v : Nat) : (d.setF a f v).cvu = d.cvu := rfl
@[simp] theorem dma_setF (d : Dev) (a : Nat) (f : Fld) (v : Nat) : (d.setF a f v).dma = d.dma := rfl
@[simp] theorem xbLast_setF (d : Dev) (a : Nat) (f : Fld) (v : Nat) : (d.setF a f v).xbLast = d.xbLast := rfl
@[simp] theorem ret_setF (d : Dev) (a : Nat) (f : Fld) (v : Nat) : (d.setF a f v).ret = d.ret := rfl
@[simp] theorem pwr_setF (d : Dev) (a : Nat) (f : Fld) (v : Nat) : (d.setF a f v).pwr = d.pwr := rfl
@[simp] theorem lanes_setF (d : Dev) (a : Nat) (f : Fld) (v : Nat) : (d.setF a f v).lanes = d.lanes := rfl
@[simp] theorem lgroups_setF (d : Dev) (a : Nat) (f : Fld) (v : Nat) : (d.setF a f v).lgroups = d.lgroups := rfl
@[simp] theorem bulk_setF (d : Dev) (a : Nat) (f : Fld) (v : Nat) : (d.setF a f v).bulk = d.bulk := rfl
@[simp] theorem jesd_setF (d : Dev) (a : Nat) (f : Fld) (v : Nat) : (d.setF a f v).jesd = d.jesd := rfl
@[simp] theorem pll_setF (d : Dev) (a : Nat) (f : Fld) (v : Nat) : (d.setF a f v).pll = d.pll := rfl
@[simp] theorem aslSlots_setF (d : Dev) (a : Nat) (f : Fld) (v : Nat) : (d.setF a f v).aslSlots = d.aslSlots := rfl
@[simp] theorem front_setF (d : Dev) (a : Nat) (f : Fld) (v : Nat) : (d.setF a f v).front = d.front := rfl
@[simp] theorem run_setF (d : Dev) (a : Nat) (f : Fld) (v : Nat) : (d.setF a f v).run = d.run := rfl
@[simp] theorem tim_setF (d : Dev) (a : Nat) (f : Fld) (v : Nat) : (d.setF a f v).tim = d.tim := rfl
@[simp] theorem beam_setF (d : Dev) (a : Nat) (f : Fld) (v : Nat) : (d.setF a f v).beam = d.beam := rfl
@[simp] theorem memc_setF (d : Dev) (a : Nat) (f : Fld) (v : Nat) : (d.setF a f v).memc = d.memc := rfl
@[simp] theorem cap_setF (d : Dev) (a : Nat) (f : Fld) (v : Nat) : (d.setF a f v).cap = d.cap := rfl
@[simp] theorem net_setF (d : Dev) (a : Nat) (f : Fld) (v : Nat) : (d.setF a f v).net = d.net := rfl
@[simp] theorem scrub_setF (d : Dev) (a : Nat) (f : Fld) (v : Nat) : (d.setF a f v).scrub = d.scrub := rfl
@[simp] theorem therm_setF (d : Dev) (a : Nat) (f : Fld) (v : Nat) : (d.setF a f v).therm = d.therm := rfl
@[simp] theorem twin_setF (d : Dev) (a : Nat) (f : Fld) (v : Nat) : (d.setF a f v).twin = d.twin := rfl
@[simp] theorem cores_setF (d : Dev) (a : Nat) (f : Fld) (v : Nat) : (d.setF a f v).cores = d.cores := rfl
@[simp] theorem tap_setF (d : Dev) (a : Nat) (f : Fld) (v : Nat) : (d.setF a f v).tap = d.tap := rfl
@[simp] theorem pers_setF (d : Dev) (a : Nat) (f : Fld) (v : Nat) : (d.setF a f v).pers = d.pers := rfl
@[simp] theorem persRun_setF (d : Dev) (a : Nat) (f : Fld) (v : Nat) : (d.setF a f v).persRun = d.persRun := rfl
@[simp] theorem tucks_setF (d : Dev) (a : Nat) (f : Fld) (v : Nat) : (d.setF a f v).tucks = d.tucks := rfl

/-! The device after `Dev.cnt`, which changes `regs` alone. -/

@[simp] theorem latch_cnt (d : Dev) (a n : Nat) : (d.cnt a n).latch = d.latch := rfl
@[simp] theorem now_cnt (d : Dev) (a n : Nat) : (d.cnt a n).now = d.now := rfl
@[simp] theorem tod_cnt (d : Dev) (a n : Nat) : (d.cnt a n).tod = d.tod := rfl
@[simp] theorem fresh_cnt (d : Dev) (a n : Nat) : (d.cnt a n).fresh = d.fresh := rfl
@[simp] theorem out_cnt (d : Dev) (a n : Nat) : (d.cnt a n).out = d.out := rfl
@[simp] theorem host_cnt (d : Dev) (a n : Nat) : (d.cnt a n).host = d.host := rfl
@[simp] theorem jobs_cnt (d : Dev) (a n : Nat) : (d.cnt a n).jobs = d.jobs := rfl
@[simp] theorem jobSeq_cnt (d : Dev) (a n : Nat) : (d.cnt a n).jobSeq = d.jobSeq := rfl
@[simp] theorem errq_cnt (d : Dev) (a n : Nat) : (d.cnt a n).errq = d.errq := rfl
@[simp] theorem errSeq_cnt (d : Dev) (a n : Nat) : (d.cnt a n).errSeq = d.errSeq := rfl
@[simp] theorem cvu_cnt (d : Dev) (a n : Nat) : (d.cnt a n).cvu = d.cvu := rfl
@[simp] theorem dma_cnt (d : Dev) (a n : Nat) : (d.cnt a n).dma = d.dma := rfl
@[simp] theorem xbLast_cnt (d : Dev) (a n : Nat) : (d.cnt a n).xbLast = d.xbLast := rfl
@[simp] theorem ret_cnt (d : Dev) (a n : Nat) : (d.cnt a n).ret = d.ret := rfl
@[simp] theorem pwr_cnt (d : Dev) (a n : Nat) : (d.cnt a n).pwr = d.pwr := rfl
@[simp] theorem lanes_cnt (d : Dev) (a n : Nat) : (d.cnt a n).lanes = d.lanes := rfl
@[simp] theorem lgroups_cnt (d : Dev) (a n : Nat) : (d.cnt a n).lgroups = d.lgroups := rfl
@[simp] theorem bulk_cnt (d : Dev) (a n : Nat) : (d.cnt a n).bulk = d.bulk := rfl
@[simp] theorem jesd_cnt (d : Dev) (a n : Nat) : (d.cnt a n).jesd = d.jesd := rfl
@[simp] theorem pll_cnt (d : Dev) (a n : Nat) : (d.cnt a n).pll = d.pll := rfl
@[simp] theorem aslSlots_cnt (d : Dev) (a n : Nat) : (d.cnt a n).aslSlots = d.aslSlots := rfl
@[simp] theorem front_cnt (d : Dev) (a n : Nat) : (d.cnt a n).front = d.front := rfl
@[simp] theorem run_cnt (d : Dev) (a n : Nat) : (d.cnt a n).run = d.run := rfl
@[simp] theorem tim_cnt (d : Dev) (a n : Nat) : (d.cnt a n).tim = d.tim := rfl
@[simp] theorem beam_cnt (d : Dev) (a n : Nat) : (d.cnt a n).beam = d.beam := rfl
@[simp] theorem memc_cnt (d : Dev) (a n : Nat) : (d.cnt a n).memc = d.memc := rfl
@[simp] theorem cap_cnt (d : Dev) (a n : Nat) : (d.cnt a n).cap = d.cap := rfl
@[simp] theorem net_cnt (d : Dev) (a n : Nat) : (d.cnt a n).net = d.net := rfl
@[simp] theorem scrub_cnt (d : Dev) (a n : Nat) : (d.cnt a n).scrub = d.scrub := rfl
@[simp] theorem therm_cnt (d : Dev) (a n : Nat) : (d.cnt a n).therm = d.therm := rfl
@[simp] theorem twin_cnt (d : Dev) (a n : Nat) : (d.cnt a n).twin = d.twin := rfl
@[simp] theorem cores_cnt (d : Dev) (a n : Nat) : (d.cnt a n).cores = d.cores := rfl
@[simp] theorem tap_cnt (d : Dev) (a n : Nat) : (d.cnt a n).tap = d.tap := rfl
@[simp] theorem pers_cnt (d : Dev) (a n : Nat) : (d.cnt a n).pers = d.pers := rfl
@[simp] theorem persRun_cnt (d : Dev) (a n : Nat) : (d.cnt a n).persRun = d.persRun := rfl
@[simp] theorem tucks_cnt (d : Dev) (a n : Nat) : (d.cnt a n).tucks = d.tucks := rfl

/-! The device after `Dev.cntF`, which changes `regs` alone. -/

@[simp] theorem latch_cntF (d : Dev) (a : Nat) (f : Fld) (n : Nat) : (d.cntF a f n).latch = d.latch := rfl
@[simp] theorem now_cntF (d : Dev) (a : Nat) (f : Fld) (n : Nat) : (d.cntF a f n).now = d.now := rfl
@[simp] theorem tod_cntF (d : Dev) (a : Nat) (f : Fld) (n : Nat) : (d.cntF a f n).tod = d.tod := rfl
@[simp] theorem fresh_cntF (d : Dev) (a : Nat) (f : Fld) (n : Nat) : (d.cntF a f n).fresh = d.fresh := rfl
@[simp] theorem out_cntF (d : Dev) (a : Nat) (f : Fld) (n : Nat) : (d.cntF a f n).out = d.out := rfl
@[simp] theorem host_cntF (d : Dev) (a : Nat) (f : Fld) (n : Nat) : (d.cntF a f n).host = d.host := rfl
@[simp] theorem jobs_cntF (d : Dev) (a : Nat) (f : Fld) (n : Nat) : (d.cntF a f n).jobs = d.jobs := rfl
@[simp] theorem jobSeq_cntF (d : Dev) (a : Nat) (f : Fld) (n : Nat) : (d.cntF a f n).jobSeq = d.jobSeq := rfl
@[simp] theorem errq_cntF (d : Dev) (a : Nat) (f : Fld) (n : Nat) : (d.cntF a f n).errq = d.errq := rfl
@[simp] theorem errSeq_cntF (d : Dev) (a : Nat) (f : Fld) (n : Nat) : (d.cntF a f n).errSeq = d.errSeq := rfl
@[simp] theorem cvu_cntF (d : Dev) (a : Nat) (f : Fld) (n : Nat) : (d.cntF a f n).cvu = d.cvu := rfl
@[simp] theorem dma_cntF (d : Dev) (a : Nat) (f : Fld) (n : Nat) : (d.cntF a f n).dma = d.dma := rfl
@[simp] theorem xbLast_cntF (d : Dev) (a : Nat) (f : Fld) (n : Nat) : (d.cntF a f n).xbLast = d.xbLast := rfl
@[simp] theorem ret_cntF (d : Dev) (a : Nat) (f : Fld) (n : Nat) : (d.cntF a f n).ret = d.ret := rfl
@[simp] theorem pwr_cntF (d : Dev) (a : Nat) (f : Fld) (n : Nat) : (d.cntF a f n).pwr = d.pwr := rfl
@[simp] theorem lanes_cntF (d : Dev) (a : Nat) (f : Fld) (n : Nat) : (d.cntF a f n).lanes = d.lanes := rfl
@[simp] theorem lgroups_cntF (d : Dev) (a : Nat) (f : Fld) (n : Nat) : (d.cntF a f n).lgroups = d.lgroups := rfl
@[simp] theorem bulk_cntF (d : Dev) (a : Nat) (f : Fld) (n : Nat) : (d.cntF a f n).bulk = d.bulk := rfl
@[simp] theorem jesd_cntF (d : Dev) (a : Nat) (f : Fld) (n : Nat) : (d.cntF a f n).jesd = d.jesd := rfl
@[simp] theorem pll_cntF (d : Dev) (a : Nat) (f : Fld) (n : Nat) : (d.cntF a f n).pll = d.pll := rfl
@[simp] theorem aslSlots_cntF (d : Dev) (a : Nat) (f : Fld) (n : Nat) : (d.cntF a f n).aslSlots = d.aslSlots := rfl
@[simp] theorem front_cntF (d : Dev) (a : Nat) (f : Fld) (n : Nat) : (d.cntF a f n).front = d.front := rfl
@[simp] theorem run_cntF (d : Dev) (a : Nat) (f : Fld) (n : Nat) : (d.cntF a f n).run = d.run := rfl
@[simp] theorem tim_cntF (d : Dev) (a : Nat) (f : Fld) (n : Nat) : (d.cntF a f n).tim = d.tim := rfl
@[simp] theorem beam_cntF (d : Dev) (a : Nat) (f : Fld) (n : Nat) : (d.cntF a f n).beam = d.beam := rfl
@[simp] theorem memc_cntF (d : Dev) (a : Nat) (f : Fld) (n : Nat) : (d.cntF a f n).memc = d.memc := rfl
@[simp] theorem cap_cntF (d : Dev) (a : Nat) (f : Fld) (n : Nat) : (d.cntF a f n).cap = d.cap := rfl
@[simp] theorem net_cntF (d : Dev) (a : Nat) (f : Fld) (n : Nat) : (d.cntF a f n).net = d.net := rfl
@[simp] theorem scrub_cntF (d : Dev) (a : Nat) (f : Fld) (n : Nat) : (d.cntF a f n).scrub = d.scrub := rfl
@[simp] theorem therm_cntF (d : Dev) (a : Nat) (f : Fld) (n : Nat) : (d.cntF a f n).therm = d.therm := rfl
@[simp] theorem twin_cntF (d : Dev) (a : Nat) (f : Fld) (n : Nat) : (d.cntF a f n).twin = d.twin := rfl
@[simp] theorem cores_cntF (d : Dev) (a : Nat) (f : Fld) (n : Nat) : (d.cntF a f n).cores = d.cores := rfl
@[simp] theorem tap_cntF (d : Dev) (a : Nat) (f : Fld) (n : Nat) : (d.cntF a f n).tap = d.tap := rfl
@[simp] theorem pers_cntF (d : Dev) (a : Nat) (f : Fld) (n : Nat) : (d.cntF a f n).pers = d.pers := rfl
@[simp] theorem persRun_cntF (d : Dev) (a : Nat) (f : Fld) (n : Nat) : (d.cntF a f n).persRun = d.persRun := rfl
@[simp] theorem tucks_cntF (d : Dev) (a : Nat) (f : Fld) (n : Nat) : (d.cntF a f n).tucks = d.tucks := rfl

/-! The device after `Dev.emit`, which changes `out` alone. -/

@[simp] theorem regs_emit (d : Dev) (k : OutKind) (u : Nat) (x : List Nat) : (d.emit k u x).regs = d.regs := rfl
@[simp] theorem latch_emit (d : Dev) (k : OutKind) (u : Nat) (x : List Nat) : (d.emit k u x).latch = d.latch := rfl
@[simp] theorem now_emit (d : Dev) (k : OutKind) (u : Nat) (x : List Nat) : (d.emit k u x).now = d.now := rfl
@[simp] theorem tod_emit (d : Dev) (k : OutKind) (u : Nat) (x : List Nat) : (d.emit k u x).tod = d.tod := rfl
@[simp] theorem fresh_emit (d : Dev) (k : OutKind) (u : Nat) (x : List Nat) : (d.emit k u x).fresh = d.fresh := rfl
@[simp] theorem host_emit (d : Dev) (k : OutKind) (u : Nat) (x : List Nat) : (d.emit k u x).host = d.host := rfl
@[simp] theorem jobs_emit (d : Dev) (k : OutKind) (u : Nat) (x : List Nat) : (d.emit k u x).jobs = d.jobs := rfl
@[simp] theorem jobSeq_emit (d : Dev) (k : OutKind) (u : Nat) (x : List Nat) : (d.emit k u x).jobSeq = d.jobSeq := rfl
@[simp] theorem errq_emit (d : Dev) (k : OutKind) (u : Nat) (x : List Nat) : (d.emit k u x).errq = d.errq := rfl
@[simp] theorem errSeq_emit (d : Dev) (k : OutKind) (u : Nat) (x : List Nat) : (d.emit k u x).errSeq = d.errSeq := rfl
@[simp] theorem cvu_emit (d : Dev) (k : OutKind) (u : Nat) (x : List Nat) : (d.emit k u x).cvu = d.cvu := rfl
@[simp] theorem dma_emit (d : Dev) (k : OutKind) (u : Nat) (x : List Nat) : (d.emit k u x).dma = d.dma := rfl
@[simp] theorem xbLast_emit (d : Dev) (k : OutKind) (u : Nat) (x : List Nat) : (d.emit k u x).xbLast = d.xbLast := rfl
@[simp] theorem ret_emit (d : Dev) (k : OutKind) (u : Nat) (x : List Nat) : (d.emit k u x).ret = d.ret := rfl
@[simp] theorem pwr_emit (d : Dev) (k : OutKind) (u : Nat) (x : List Nat) : (d.emit k u x).pwr = d.pwr := rfl
@[simp] theorem lanes_emit (d : Dev) (k : OutKind) (u : Nat) (x : List Nat) : (d.emit k u x).lanes = d.lanes := rfl
@[simp] theorem lgroups_emit (d : Dev) (k : OutKind) (u : Nat) (x : List Nat) : (d.emit k u x).lgroups = d.lgroups := rfl
@[simp] theorem bulk_emit (d : Dev) (k : OutKind) (u : Nat) (x : List Nat) : (d.emit k u x).bulk = d.bulk := rfl
@[simp] theorem jesd_emit (d : Dev) (k : OutKind) (u : Nat) (x : List Nat) : (d.emit k u x).jesd = d.jesd := rfl
@[simp] theorem pll_emit (d : Dev) (k : OutKind) (u : Nat) (x : List Nat) : (d.emit k u x).pll = d.pll := rfl
@[simp] theorem aslSlots_emit (d : Dev) (k : OutKind) (u : Nat) (x : List Nat) : (d.emit k u x).aslSlots = d.aslSlots := rfl
@[simp] theorem front_emit (d : Dev) (k : OutKind) (u : Nat) (x : List Nat) : (d.emit k u x).front = d.front := rfl
@[simp] theorem run_emit (d : Dev) (k : OutKind) (u : Nat) (x : List Nat) : (d.emit k u x).run = d.run := rfl
@[simp] theorem tim_emit (d : Dev) (k : OutKind) (u : Nat) (x : List Nat) : (d.emit k u x).tim = d.tim := rfl
@[simp] theorem beam_emit (d : Dev) (k : OutKind) (u : Nat) (x : List Nat) : (d.emit k u x).beam = d.beam := rfl
@[simp] theorem memc_emit (d : Dev) (k : OutKind) (u : Nat) (x : List Nat) : (d.emit k u x).memc = d.memc := rfl
@[simp] theorem cap_emit (d : Dev) (k : OutKind) (u : Nat) (x : List Nat) : (d.emit k u x).cap = d.cap := rfl
@[simp] theorem net_emit (d : Dev) (k : OutKind) (u : Nat) (x : List Nat) : (d.emit k u x).net = d.net := rfl
@[simp] theorem scrub_emit (d : Dev) (k : OutKind) (u : Nat) (x : List Nat) : (d.emit k u x).scrub = d.scrub := rfl
@[simp] theorem therm_emit (d : Dev) (k : OutKind) (u : Nat) (x : List Nat) : (d.emit k u x).therm = d.therm := rfl
@[simp] theorem twin_emit (d : Dev) (k : OutKind) (u : Nat) (x : List Nat) : (d.emit k u x).twin = d.twin := rfl
@[simp] theorem cores_emit (d : Dev) (k : OutKind) (u : Nat) (x : List Nat) : (d.emit k u x).cores = d.cores := rfl
@[simp] theorem tap_emit (d : Dev) (k : OutKind) (u : Nat) (x : List Nat) : (d.emit k u x).tap = d.tap := rfl
@[simp] theorem pers_emit (d : Dev) (k : OutKind) (u : Nat) (x : List Nat) : (d.emit k u x).pers = d.pers := rfl
@[simp] theorem persRun_emit (d : Dev) (k : OutKind) (u : Nat) (x : List Nat) : (d.emit k u x).persRun = d.persRun := rfl
@[simp] theorem tucks_emit (d : Dev) (k : OutKind) (u : Nat) (x : List Nat) : (d.emit k u x).tucks = d.tucks := rfl

/-! The device after `Dev.drew`, which changes `fresh` alone. -/

@[simp] theorem regs_drew (d : Dev) : (d.drew).regs = d.regs := rfl
@[simp] theorem latch_drew (d : Dev) : (d.drew).latch = d.latch := rfl
@[simp] theorem now_drew (d : Dev) : (d.drew).now = d.now := rfl
@[simp] theorem tod_drew (d : Dev) : (d.drew).tod = d.tod := rfl
@[simp] theorem out_drew (d : Dev) : (d.drew).out = d.out := rfl
@[simp] theorem host_drew (d : Dev) : (d.drew).host = d.host := rfl
@[simp] theorem jobs_drew (d : Dev) : (d.drew).jobs = d.jobs := rfl
@[simp] theorem jobSeq_drew (d : Dev) : (d.drew).jobSeq = d.jobSeq := rfl
@[simp] theorem errq_drew (d : Dev) : (d.drew).errq = d.errq := rfl
@[simp] theorem errSeq_drew (d : Dev) : (d.drew).errSeq = d.errSeq := rfl
@[simp] theorem cvu_drew (d : Dev) : (d.drew).cvu = d.cvu := rfl
@[simp] theorem dma_drew (d : Dev) : (d.drew).dma = d.dma := rfl
@[simp] theorem xbLast_drew (d : Dev) : (d.drew).xbLast = d.xbLast := rfl
@[simp] theorem ret_drew (d : Dev) : (d.drew).ret = d.ret := rfl
@[simp] theorem pwr_drew (d : Dev) : (d.drew).pwr = d.pwr := rfl
@[simp] theorem lanes_drew (d : Dev) : (d.drew).lanes = d.lanes := rfl
@[simp] theorem lgroups_drew (d : Dev) : (d.drew).lgroups = d.lgroups := rfl
@[simp] theorem bulk_drew (d : Dev) : (d.drew).bulk = d.bulk := rfl
@[simp] theorem jesd_drew (d : Dev) : (d.drew).jesd = d.jesd := rfl
@[simp] theorem pll_drew (d : Dev) : (d.drew).pll = d.pll := rfl
@[simp] theorem aslSlots_drew (d : Dev) : (d.drew).aslSlots = d.aslSlots := rfl
@[simp] theorem front_drew (d : Dev) : (d.drew).front = d.front := rfl
@[simp] theorem run_drew (d : Dev) : (d.drew).run = d.run := rfl
@[simp] theorem tim_drew (d : Dev) : (d.drew).tim = d.tim := rfl
@[simp] theorem beam_drew (d : Dev) : (d.drew).beam = d.beam := rfl
@[simp] theorem memc_drew (d : Dev) : (d.drew).memc = d.memc := rfl
@[simp] theorem cap_drew (d : Dev) : (d.drew).cap = d.cap := rfl
@[simp] theorem net_drew (d : Dev) : (d.drew).net = d.net := rfl
@[simp] theorem scrub_drew (d : Dev) : (d.drew).scrub = d.scrub := rfl
@[simp] theorem therm_drew (d : Dev) : (d.drew).therm = d.therm := rfl
@[simp] theorem twin_drew (d : Dev) : (d.drew).twin = d.twin := rfl
@[simp] theorem cores_drew (d : Dev) : (d.drew).cores = d.cores := rfl
@[simp] theorem tap_drew (d : Dev) : (d.drew).tap = d.tap := rfl
@[simp] theorem pers_drew (d : Dev) : (d.drew).pers = d.pers := rfl
@[simp] theorem persRun_drew (d : Dev) : (d.drew).persRun = d.persRun := rfl
@[simp] theorem tucks_drew (d : Dev) : (d.drew).tucks = d.tucks := rfl

/-! The device after `Dev.setCore`, which changes `cores` alone. -/

@[simp] theorem regs_setCore (d : Dev) (c : Nat) (x : RCore) : (d.setCore c x).regs = d.regs := rfl
@[simp] theorem latch_setCore (d : Dev) (c : Nat) (x : RCore) : (d.setCore c x).latch = d.latch := rfl
@[simp] theorem now_setCore (d : Dev) (c : Nat) (x : RCore) : (d.setCore c x).now = d.now := rfl
@[simp] theorem tod_setCore (d : Dev) (c : Nat) (x : RCore) : (d.setCore c x).tod = d.tod := rfl
@[simp] theorem fresh_setCore (d : Dev) (c : Nat) (x : RCore) : (d.setCore c x).fresh = d.fresh := rfl
@[simp] theorem out_setCore (d : Dev) (c : Nat) (x : RCore) : (d.setCore c x).out = d.out := rfl
@[simp] theorem host_setCore (d : Dev) (c : Nat) (x : RCore) : (d.setCore c x).host = d.host := rfl
@[simp] theorem jobs_setCore (d : Dev) (c : Nat) (x : RCore) : (d.setCore c x).jobs = d.jobs := rfl
@[simp] theorem jobSeq_setCore (d : Dev) (c : Nat) (x : RCore) : (d.setCore c x).jobSeq = d.jobSeq := rfl
@[simp] theorem errq_setCore (d : Dev) (c : Nat) (x : RCore) : (d.setCore c x).errq = d.errq := rfl
@[simp] theorem errSeq_setCore (d : Dev) (c : Nat) (x : RCore) : (d.setCore c x).errSeq = d.errSeq := rfl
@[simp] theorem cvu_setCore (d : Dev) (c : Nat) (x : RCore) : (d.setCore c x).cvu = d.cvu := rfl
@[simp] theorem dma_setCore (d : Dev) (c : Nat) (x : RCore) : (d.setCore c x).dma = d.dma := rfl
@[simp] theorem xbLast_setCore (d : Dev) (c : Nat) (x : RCore) : (d.setCore c x).xbLast = d.xbLast := rfl
@[simp] theorem ret_setCore (d : Dev) (c : Nat) (x : RCore) : (d.setCore c x).ret = d.ret := rfl
@[simp] theorem pwr_setCore (d : Dev) (c : Nat) (x : RCore) : (d.setCore c x).pwr = d.pwr := rfl
@[simp] theorem lanes_setCore (d : Dev) (c : Nat) (x : RCore) : (d.setCore c x).lanes = d.lanes := rfl
@[simp] theorem lgroups_setCore (d : Dev) (c : Nat) (x : RCore) : (d.setCore c x).lgroups = d.lgroups := rfl
@[simp] theorem bulk_setCore (d : Dev) (c : Nat) (x : RCore) : (d.setCore c x).bulk = d.bulk := rfl
@[simp] theorem jesd_setCore (d : Dev) (c : Nat) (x : RCore) : (d.setCore c x).jesd = d.jesd := rfl
@[simp] theorem pll_setCore (d : Dev) (c : Nat) (x : RCore) : (d.setCore c x).pll = d.pll := rfl
@[simp] theorem aslSlots_setCore (d : Dev) (c : Nat) (x : RCore) : (d.setCore c x).aslSlots = d.aslSlots := rfl
@[simp] theorem front_setCore (d : Dev) (c : Nat) (x : RCore) : (d.setCore c x).front = d.front := rfl
@[simp] theorem run_setCore (d : Dev) (c : Nat) (x : RCore) : (d.setCore c x).run = d.run := rfl
@[simp] theorem tim_setCore (d : Dev) (c : Nat) (x : RCore) : (d.setCore c x).tim = d.tim := rfl
@[simp] theorem beam_setCore (d : Dev) (c : Nat) (x : RCore) : (d.setCore c x).beam = d.beam := rfl
@[simp] theorem memc_setCore (d : Dev) (c : Nat) (x : RCore) : (d.setCore c x).memc = d.memc := rfl
@[simp] theorem cap_setCore (d : Dev) (c : Nat) (x : RCore) : (d.setCore c x).cap = d.cap := rfl
@[simp] theorem net_setCore (d : Dev) (c : Nat) (x : RCore) : (d.setCore c x).net = d.net := rfl
@[simp] theorem scrub_setCore (d : Dev) (c : Nat) (x : RCore) : (d.setCore c x).scrub = d.scrub := rfl
@[simp] theorem therm_setCore (d : Dev) (c : Nat) (x : RCore) : (d.setCore c x).therm = d.therm := rfl
@[simp] theorem twin_setCore (d : Dev) (c : Nat) (x : RCore) : (d.setCore c x).twin = d.twin := rfl
@[simp] theorem tap_setCore (d : Dev) (c : Nat) (x : RCore) : (d.setCore c x).tap = d.tap := rfl
@[simp] theorem pers_setCore (d : Dev) (c : Nat) (x : RCore) : (d.setCore c x).pers = d.pers := rfl
@[simp] theorem persRun_setCore (d : Dev) (c : Nat) (x : RCore) : (d.setCore c x).persRun = d.persRun := rfl
@[simp] theorem tucks_setCore (d : Dev) (c : Nat) (x : RCore) : (d.setCore c x).tucks = d.tucks := rfl

/-! The device after `Dev.setPer`, which changes `pers` alone. -/

@[simp] theorem regs_setPer (d : Dev) (p : Nat) (x : Pers) : (d.setPer p x).regs = d.regs := rfl
@[simp] theorem latch_setPer (d : Dev) (p : Nat) (x : Pers) : (d.setPer p x).latch = d.latch := rfl
@[simp] theorem now_setPer (d : Dev) (p : Nat) (x : Pers) : (d.setPer p x).now = d.now := rfl
@[simp] theorem tod_setPer (d : Dev) (p : Nat) (x : Pers) : (d.setPer p x).tod = d.tod := rfl
@[simp] theorem fresh_setPer (d : Dev) (p : Nat) (x : Pers) : (d.setPer p x).fresh = d.fresh := rfl
@[simp] theorem out_setPer (d : Dev) (p : Nat) (x : Pers) : (d.setPer p x).out = d.out := rfl
@[simp] theorem host_setPer (d : Dev) (p : Nat) (x : Pers) : (d.setPer p x).host = d.host := rfl
@[simp] theorem jobs_setPer (d : Dev) (p : Nat) (x : Pers) : (d.setPer p x).jobs = d.jobs := rfl
@[simp] theorem jobSeq_setPer (d : Dev) (p : Nat) (x : Pers) : (d.setPer p x).jobSeq = d.jobSeq := rfl
@[simp] theorem errq_setPer (d : Dev) (p : Nat) (x : Pers) : (d.setPer p x).errq = d.errq := rfl
@[simp] theorem errSeq_setPer (d : Dev) (p : Nat) (x : Pers) : (d.setPer p x).errSeq = d.errSeq := rfl
@[simp] theorem cvu_setPer (d : Dev) (p : Nat) (x : Pers) : (d.setPer p x).cvu = d.cvu := rfl
@[simp] theorem dma_setPer (d : Dev) (p : Nat) (x : Pers) : (d.setPer p x).dma = d.dma := rfl
@[simp] theorem xbLast_setPer (d : Dev) (p : Nat) (x : Pers) : (d.setPer p x).xbLast = d.xbLast := rfl
@[simp] theorem ret_setPer (d : Dev) (p : Nat) (x : Pers) : (d.setPer p x).ret = d.ret := rfl
@[simp] theorem pwr_setPer (d : Dev) (p : Nat) (x : Pers) : (d.setPer p x).pwr = d.pwr := rfl
@[simp] theorem lanes_setPer (d : Dev) (p : Nat) (x : Pers) : (d.setPer p x).lanes = d.lanes := rfl
@[simp] theorem lgroups_setPer (d : Dev) (p : Nat) (x : Pers) : (d.setPer p x).lgroups = d.lgroups := rfl
@[simp] theorem bulk_setPer (d : Dev) (p : Nat) (x : Pers) : (d.setPer p x).bulk = d.bulk := rfl
@[simp] theorem jesd_setPer (d : Dev) (p : Nat) (x : Pers) : (d.setPer p x).jesd = d.jesd := rfl
@[simp] theorem pll_setPer (d : Dev) (p : Nat) (x : Pers) : (d.setPer p x).pll = d.pll := rfl
@[simp] theorem aslSlots_setPer (d : Dev) (p : Nat) (x : Pers) : (d.setPer p x).aslSlots = d.aslSlots := rfl
@[simp] theorem front_setPer (d : Dev) (p : Nat) (x : Pers) : (d.setPer p x).front = d.front := rfl
@[simp] theorem run_setPer (d : Dev) (p : Nat) (x : Pers) : (d.setPer p x).run = d.run := rfl
@[simp] theorem tim_setPer (d : Dev) (p : Nat) (x : Pers) : (d.setPer p x).tim = d.tim := rfl
@[simp] theorem beam_setPer (d : Dev) (p : Nat) (x : Pers) : (d.setPer p x).beam = d.beam := rfl
@[simp] theorem memc_setPer (d : Dev) (p : Nat) (x : Pers) : (d.setPer p x).memc = d.memc := rfl
@[simp] theorem cap_setPer (d : Dev) (p : Nat) (x : Pers) : (d.setPer p x).cap = d.cap := rfl
@[simp] theorem net_setPer (d : Dev) (p : Nat) (x : Pers) : (d.setPer p x).net = d.net := rfl
@[simp] theorem scrub_setPer (d : Dev) (p : Nat) (x : Pers) : (d.setPer p x).scrub = d.scrub := rfl
@[simp] theorem therm_setPer (d : Dev) (p : Nat) (x : Pers) : (d.setPer p x).therm = d.therm := rfl
@[simp] theorem twin_setPer (d : Dev) (p : Nat) (x : Pers) : (d.setPer p x).twin = d.twin := rfl
@[simp] theorem cores_setPer (d : Dev) (p : Nat) (x : Pers) : (d.setPer p x).cores = d.cores := rfl
@[simp] theorem tap_setPer (d : Dev) (p : Nat) (x : Pers) : (d.setPer p x).tap = d.tap := rfl
@[simp] theorem persRun_setPer (d : Dev) (p : Nat) (x : Pers) : (d.setPer p x).persRun = d.persRun := rfl
@[simp] theorem tucks_setPer (d : Dev) (p : Nat) (x : Pers) : (d.setPer p x).tucks = d.tucks := rfl

@[simp] theorem out_emit (d : Dev) (k : OutKind) (u : Nat) (x : List Nat) : (d.emit k u x).out = ⟨k, u, x⟩ :: d.out := rfl
@[simp] theorem fresh_drew (d : Dev) : d.drew.fresh = d.fresh + 1 := rfl

/-! The memories after `Mem.wr`, which changes `bytes`. -/

@[simp] theorem poison_mem_wr (m : Mem) (a : Nat) (bs : List Nat) : (m.wr a bs).poison = m.poison := rfl
@[simp] theorem soft_mem_wr (m : Mem) (a : Nat) (bs : List Nat) : (m.wr a bs).soft = m.soft := rfl
@[simp] theorem host_mem_wr (m : Mem) (a : Nat) (bs : List Nat) : (m.wr a bs).host = m.host := rfl

/-! The memories after `Mem.setSoft`, which changes `soft`. -/

@[simp] theorem bytes_mem_setSoft (m : Mem) (k a v : Nat) : (m.setSoft k a v).bytes = m.bytes := rfl
@[simp] theorem poison_mem_setSoft (m : Mem) (k a v : Nat) : (m.setSoft k a v).poison = m.poison := rfl
@[simp] theorem host_mem_setSoft (m : Mem) (k a v : Nat) : (m.setSoft k a v).host = m.host := rfl

/-! The memories after `Mem.wrHost`, which changes `host`. -/

@[simp] theorem bytes_mem_wrHost (m : Mem) (a : Nat) (bs : List Nat) : (m.wrHost a bs).bytes = m.bytes := rfl
@[simp] theorem poison_mem_wrHost (m : Mem) (a : Nat) (bs : List Nat) : (m.wrHost a bs).poison = m.poison := rfl
@[simp] theorem soft_mem_wrHost (m : Mem) (a : Nat) (bs : List Nat) : (m.wrHost a bs).soft = m.soft := rfl

/-! The memories after `Mem.mark`, which changes `poison` and `soft`. -/

@[simp] theorem bytes_mem_mark (m : Mem) (g : Nat) (p : Bool) : (m.mark g p).bytes = m.bytes := rfl
@[simp] theorem host_mem_mark (m : Mem) (g : Nat) (p : Bool) : (m.mark g p).host = m.host := rfl

end Sys2Proof.Laws
end

