-- ==== Sys2Proof/WellFormed.lean ====
section
/-!
DEFINITION. Well-formed commands: each operand within the range that the manual gives the field, lane, port, slot or byte it stands for.
-/
namespace Sys2Proof

/-- Every element is a byte. -/
def bytesOk (l : List Nat) : Bool := l.all fun b => decide (b < 256)

/-- The operands of a command are in range. -/
def Instr.wf : Instr → Bool
  | .doorbellWrite v => decide (v < 2 ^ 64)
  | .mailboxSlotWrite off size v => decide (off < 2 ^ 20) && (size == 4 || size == 8) && decide (v < 2 ^ 64)
  | .bar0RefusedAccess _ _ off size => decide (off < 2 ^ 20) && decide (size < 2 ^ 64)
  | .bar2Access _ off len bytes _ => decide (off < 2 ^ 40) && decide (len < 2 ^ 32) && bytesOk bytes
  | .commandTakeUp s0 s1 => decide (s0 < 2 ^ 64) && decide (s1 < 2 ^ 64)
  | .msixSpacingEnd vector => decide (vector < 8)
  | .endpointReset kind => decide (kind < 4)
  | .outboundTimeout master addr => decide (master < 12) && decide (addr < 2 ^ 64)
  | .heartbeatTick => true
  | .jobDone index _ => decide (index < 1024)
  | .smbusWrite off data _ => decide (off < 256) && bytesOk data && decide (data.length ≤ 64)
  | .smbusDoorbell => true
  | .smbusTimeout => true
  | .smbusAlertResponse _ => true
  | .spiFrame bytes len => bytesOk bytes && decide (len < 2 ^ 32)
  | .spiCsTimeout => true
  | .ping slot => decide (slot < 33)
  | .devInfo slot => decide (slot < 33)
  | .jobQuery slot => decide (slot < 33)
  | .jobCancel slot => decide (slot < 33)
  | .jobRelease slot => decide (slot < 33)
  | .aperSet slot => decide (slot < 33)
  | .copy slot => decide (slot < 33)
  | .roleSet slot => decide (slot < 33)
  | .modeSet slot s0 s1 => decide (slot < 33) && decide (s0 < 2 ^ 64) && decide (s1 < 2 ^ 64)
  | .hostConfig slot => decide (slot < 33)
  | .sysReset slot => decide (slot < 33)
  | .persStatus slot => decide (slot < 33)
  | .persAssign slot s0 s1 => decide (slot < 33) && decide (s0 < 2 ^ 64) && decide (s1 < 2 ^ 64)
  | .persReset slot => decide (slot < 33)
  | .persLog slot => decide (slot < 33)
  | .timRefSet slot => decide (slot < 33)
  | .timLoopSet slot => decide (slot < 33)
  | .timForce slot => decide (slot < 33)
  | .timPhaseStep slot => decide (slot < 33)
  | .timOutput slot => decide (slot < 33)
  | .timSng slot => decide (slot < 33)
  | .timXo slot => decide (slot < 33)
  | .timHistory slot => decide (slot < 33)
  | .timStatus slot => decide (slot < 33)
  | .timSysrefGo slot => decide (slot < 33)
  | .timClocks slot => decide (slot < 33)
  | .laneSet slot => decide (slot < 33)
  | .laneStatus slot => decide (slot < 33)
  | .lanePower slot => decide (slot < 33)
  | .eyeScan slot => decide (slot < 33)
  | .prbs slot => decide (slot < 33)
  | .errInject slot => decide (slot < 33)
  | .laneGroup slot => decide (slot < 33)
  | .jesdLink slot => decide (slot < 33)
  | .jesdAlign slot => decide (slot < 33)
  | .frontConfig slot => decide (slot < 33)
  | .delayModel slot => decide (slot < 33)
  | .modelTable slot => decide (slot < 33)
  | .coefLoad slot => decide (slot < 33)
  | .gainLoad slot => decide (slot < 33)
  | .detectSet slot => decide (slot < 33)
  | .detectRead slot => decide (slot < 33)
  | .routeSet slot => decide (slot < 33)
  | .frontStart slot => decide (slot < 33)
  | .frontStatus slot => decide (slot < 33)
  | .xcorPlan slot => decide (slot < 33)
  | .bondRead slot => decide (slot < 33)
  | .bondSet slot => decide (slot < 33)
  | .tuckpoint slot => decide (slot < 33)
  | .auditCtrl slot => decide (slot < 33)
  | .tileStatus slot => decide (slot < 33)
  | .runStart slot => decide (slot < 33)
  | .runStop slot => decide (slot < 33)
  | .integSet slot => decide (slot < 33)
  | .dumpRoute slot => decide (slot < 33)
  | .dumpNow slot => decide (slot < 33)
  | .peek slot => decide (slot < 33)
  | .accStatus slot => decide (slot < 33)
  | .beamConfig slot => decide (slot < 33)
  | .beamRoute slot => decide (slot < 33)
  | .beamWload slot => decide (slot < 33)
  | .beamWswap slot => decide (slot < 33)
  | .beamStatus slot => decide (slot < 33)
  | .memStatus slot => decide (slot < 33)
  | .memQos slot => decide (slot < 33)
  | .memRetrain slot => decide (slot < 33)
  | .capConfig slot => decide (slot < 33)
  | .capArm slot => decide (slot < 33)
  | .capTrigger slot => decide (slot < 33)
  | .capRead slot => decide (slot < 33)
  | .capRelease slot => decide (slot < 33)
  | .capStatus slot => decide (slot < 33)
  | .ethPort slot => decide (slot < 33)
  | .streamSet slot => decide (slot < 33)
  | .acpRx slot => decide (slot < 33)
  | .netStatus slot => decide (slot < 33)
  | .addrTable slot => decide (slot < 33)
  | .ptpConfig slot => decide (slot < 33)
  | .ptpStatus slot => decide (slot < 33)
  | .timeSet slot => decide (slot < 33)
  | .timeGet slot => decide (slot < 33)
  | .pulseSet slot => decide (slot < 33)
  | .portDelay slot => decide (slot < 33)
  | .coreLoad slot => decide (slot < 33)
  | .coreStart slot => decide (slot < 33)
  | .coreStop slot => decide (slot < 33)
  | .coreStatus slot => decide (slot < 33)
  | .coreTuck slot => decide (slot < 33)
  | .errRead slot => decide (slot < 33)
  | .errAck slot => decide (slot < 33)
  | .eccStatus slot => decide (slot < 33)
  | .scrubCtrl slot => decide (slot < 33)
  | .cvuSet slot => decide (slot < 33)
  | .eccInject slot => decide (slot < 33)
  | .thermStatus slot => decide (slot < 33)
  | .thermSet slot => decide (slot < 33)
  | .wearReport slot => decide (slot < 33)
  | .reserveStatus slot => decide (slot < 33)
  | .leaseConfig slot => decide (slot < 33)
  | .leaseStatus slot => decide (slot < 33)
  | .arbiterConfig slot => decide (slot < 33)
  | .healthRead slot => decide (slot < 33)
  | .profileRead slot => decide (slot < 33)
  | .profileWrite slot s0 s1 => decide (slot < 33) && decide (s0 < 2 ^ 64) && decide (s1 < 2 ^ 64)
  | .commit slot => decide (slot < 33)
  | .holdupStatus slot s0 s1 => decide (slot < 33) && decide (s0 < 2 ^ 64) && decide (s1 < 2 ^ 64)
  | .fwImage slot => decide (slot < 33)
  | .factoryDefaults slot s0 s1 => decide (slot < 33) && decide (s0 < 2 ^ 64) && decide (s1 < 2 ^ 64)
  | .selftest slot => decide (slot < 33)
  | .selftestResult slot => decide (slot < 33)
  | .debugLock slot => decide (slot < 33)
  | .dc512Doorbell pers v _ => decide (pers < 4) && decide (v < 2 ^ 64)
  | .dc512Reset pers slot => decide (pers < 4) && decide (slot < 8)
  | .dc512Start pers slot => decide (pers < 4) && decide (slot < 8)
  | .dc512Stop pers slot => decide (pers < 4) && decide (slot < 8)
  | .setDump pers slot => decide (pers < 4) && decide (slot < 8)
  | .setOutput pers slot => decide (pers < 4) && decide (slot < 8)
  | .loadDsp pers slot => decide (pers < 4) && decide (slot < 8)
  | .runDsp pers slot => decide (pers < 4) && decide (slot < 8)
  | .haltDsp pers slot => decide (pers < 4) && decide (slot < 8)
  | .getStatus pers slot => decide (pers < 4) && decide (slot < 8)
  | .dc512Flr pers => decide (pers < 4)
  | .dc512FrameReceived lane bytes => decide (lane < 80) && bytesOk bytes
  | .personalitySwitch core => decide (core < 4)
  | .signalDetect lane => decide (lane < 80)
  | .cdrLock lane => decide (lane < 80)
  | .adaptationSettled lane => decide (lane < 80)
  | .fecLock lane => decide (lane < 80)
  | .frameLock lane _ => decide (lane < 80)
  | .identify lane _ link => decide (lane < 80) && decide (link < 256)
  | .laneStateTimeout lane => decide (lane < 80)
  | .lossOfLaneLock lane kind => decide (lane < 80) && decide (kind < 3)
  | .lowpowerEnter lane => decide (lane < 80)
  | .lowpowerExit lane => decide (lane < 80)
  | .lpExitLate lane => decide (lane < 80)
  | .aslFrameReceived lane slot _ _ _ payload => decide (lane < 80) && decide (slot < 2 ^ 64) && bytesOk payload
  | .bulkAuditPoint => true
  | .aslFrameSlot lane => decide (lane < 80)
  | .bulkFrameSend link ch payload => decide (link < 256) && decide (ch < 16) && bytesOk payload
  | .laneTuckpoint group _ => decide (group < 256)
  | .txMonitorFail lane => decide (lane < 80)
  | .laneFailTimeout lane => decide (lane < 80)
  | .jesdMultiblockReceived link lane _ _ => decide (link < 256) && decide (lane < 80)
  | .sysrefEdge link _ _ => decide (link < 256)
  | .sysrefTimeout link => decide (link < 256)
  | .jesdLinkFault link => decide (link < 256)
  | .eyePointStart lane => decide (lane < 80)
  | .eyePointDone lane _ _ => decide (lane < 80)
  | .eyeScanWaitTimeout lane => decide (lane < 80)
  | .checkerLock lane _ _ => decide (lane < 80)
  | .injGo lane => decide (lane < 80)
  | .periodicInjection lane => decide (lane < 80)
  | .cntClr lane => decide (lane < 80)
  | .sampleDeadline input group => decide (input < 2048) && decide (group < 2 ^ 64)
  | .delayKnot => true
  | .frontSpectrum => true
  | .detectorIntervalEnd kind input channel _ => decide (kind < 3) && decide (input < 2048) && decide (channel < 16384)
  | .envelopeEvent input => decide (input < 2048)
  | .kurtosisBlock => true
  | .frontStartReached => true
  | .batchClose _ => true
  | .stagingReadComplete _ _ => true
  | .courseDispatch => true
  | .itemSlot _ _ _ => true
  | .pauseCyclesEnd => true
  | .mortarRelease => true
  | .chunkPromote => true
  | .dumpStart => true
  | .dumpComplete => true
  | .reserveTileSelftest tile _ => decide (tile < 68)
  | .strikeExpiry tile => decide (tile < 68)
  | .beamChannelCourse => true
  | .swap who => decide (who < 64)
  | .ready who => decide (who < 64)
  | .trigInEdge pin _ _ => decide (pin < 4)
  | .trigTimeout pin => decide (pin < 4)
  | .capDrop _ off len => decide (off < 2 ^ 40) && decide (len < 2 ^ 32)
  | .commandSlot unit _ _ => decide (unit < 136)
  | .refresh unit _ _ => decide (unit < 136)
  | .retrainPause channel => decide (channel < 72)
  | .retrainForced channel => decide (channel < 72)
  | .parityAlert channel _ => decide (channel < 72)
  | .matrixAccess master _ others _ addr len bytes _ _ => decide (master < 12) && others.all (fun o => decide (o.1 < 12)) && decide (addr < 2 ^ 64) && decide (len < 2 ^ 32) && bytesOk bytes
  | .targetedScrub k e err => decide (k < 7) && decide (e < 32) && decide (err < 3)
  | .patrolScrub k err => decide (k < 7) && decide (err < 3)
  | .scrubLate k => decide (k < 7)
  | .spared k e _ => decide (k < 7) && decide (e < 32)
  | .errorHandling => true
  | .pop => true
  | .clrFirst => true
  | .clrLost => true
  | .cvStart unit who => decide (unit < 8) && decide (who < 64)
  | .cvFeedB unit who v => decide (unit < 8) && decide (who < 64) && decide (v < 2 ^ 64)
  | .cvFeedH unit who v => decide (unit < 8) && decide (who < 64) && decide (v < 2 ^ 64)
  | .cvFeedW unit who v => decide (unit < 8) && decide (who < 64) && decide (v < 2 ^ 64)
  | .feedAbsorb unit => decide (unit < 8)
  | .cvAliveGo unit who r => decide (unit < 8) && decide (who < 64) && decide (r < 65536)
  | .cvResultRead unit => decide (unit < 8)
  | .remap who => decide (who < 64)
  | .dmaStart ch who => decide (ch < 16) && decide (who < 64)
  | .resume ch who => decide (ch < 16) && decide (who < 64)
  | .abort ch who _ => decide (ch < 16) && decide (who < 64)
  | .descriptorFetch ch => decide (ch < 16)
  | .descriptorComplete ch => decide (ch < 16)
  | .endCheck ch => decide (ch < 16)
  | .cmdStart core who => decide (core < 4) && decide (who < 64)
  | .cmdHalt core who => decide (core < 4) && decide (who < 64)
  | .cmdReset core who => decide (core < 4) && decide (who < 64)
  | .kick core who => decide (core < 4) && decide (who < 64)
  | .watchdogExpiry core => decide (core < 4)
  | .timerCompare core => decide (core < 4)
  | .swset core line who => decide (core < 4) && decide (line < 48) && decide (who < 64)
  | .windowWriteError core => decide (core < 4)
  | .level1Interrupt core => decide (core < 4)
  | .level2Interrupt core => decide (core < 4)
  | .reserveCoreSelftest _ => true
  | .rNop core => decide (core < 4)
  | .rRts core => decide (core < 4)
  | .rRti1 core => decide (core < 4)
  | .rRti2 core => decide (core < 4)
  | .rRtt core => decide (core < 4)
  | .rEnddo core => decide (core < 4)
  | .rSync core => decide (core < 4)
  | .rWait core => decide (core < 4)
  | .rTrap core => decide (core < 4)
  | .rBra core => decide (core < 4)
  | .rBsr core => decide (core < 4)
  | .rBcc core => decide (core < 4)
  | .rDo core => decide (core < 4)
  | .rRep core => decide (core < 4)
  | .rMovei core => decide (core < 4)
  | .rMover core => decide (core < 4)
  | .rMovem core => decide (core < 4)
  | .rAnd core => decide (core < 4)
  | .rOr core => decide (core < 4)
  | .rEor core => decide (core < 4)
  | .rBset core => decide (core < 4)
  | .rBclr core => decide (core < 4)
  | .rBtst core => decide (core < 4)
  | .rAddi core => decide (core < 4)
  | .rMovesOnly core => decide (core < 4)
  | .rMpy core => decide (core < 4)
  | .rMac core => decide (core < 4)
  | .rMsu core => decide (core < 4)
  | .rMpyr core => decide (core < 4)
  | .rMacr core => decide (core < 4)
  | .rMac2 core => decide (core < 4)
  | .rMsu2 core => decide (core < 4)
  | .rAdd core => decide (core < 4)
  | .rSub core => decide (core < 4)
  | .rAdda core => decide (core < 4)
  | .rSuba core => decide (core < 4)
  | .rCmp core => decide (core < 4)
  | .rTst core => decide (core < 4)
  | .rClr core => decide (core < 4)
  | .rNeg core => decide (core < 4)
  | .rAbs core => decide (core < 4)
  | .rTfr core => decide (core < 4)
  | .rRnd core => decide (core < 4)
  | .rAsl core => decide (core < 4)
  | .rAsr core => decide (core < 4)
  | .rNorm core => decide (core < 4)
  | .rExp core => decide (core < 4)
  | .rJmp core => decide (core < 4)
  | .rJsr core => decide (core < 4)
  | .rBccLong core => decide (core < 4)
  | .rDoLong core => decide (core < 4)
  | .rRepLong core => decide (core < 4)
  | .rMoveiLong core => decide (core < 4)
  | .rMovel core => decide (core < 4)
  | .rNormf core => decide (core < 4)
  | .rMacx core => decide (core < 4)
  | .rMovex core => decide (core < 4)
  | .ethFrameReceived port _ bytes _ => decide (port < 20) && bytesOk bytes
  | .pfcPauseEnd port pri => decide (port < 20) && decide (pri < 8)
  | .pfcStorm port pri => decide (port < 20) && decide (pri < 8)
  | .stormClear port pri => decide (port < 20) && decide (pri < 8)
  | .pfcRenew port _ => decide (port < 20)
  | .linkDown port _ _ => decide (port < 20)
  | .linkUp port _ => decide (port < 20)
  | .packetTransmit port => decide (port < 20)
  | .resolutionRetry => true
  | .entryRefresh port _ _ => decide (port < 20)
  | .trigTxDrop stream => decide (stream < 1024)
  | .ptpMessageTx port kind => decide (port < 20) && decide (kind < 16)
  | .announceTimeout port => decide (port < 20)
  | .offsetMeasurement port _ _ _ _ _ => decide (port < 20)
  | .tsuTodSecRead => true
  | .stepArm => true
  | .pulseEdge p => decide (p < 8)
  | .activityFault r => decide (r < 8)
  | .periodFault r => decide (r < 8)
  | .ppsInEdge pin _ _ => decide (pin < 2)
  | .frequencyMeasurement r _ _ _ => decide (r < 8)
  | .switchComplete => true
  | .switchTimeout => true
  | .narrowStep => true
  | .lossOfLock => true
  | .xoFail => true
  | .holdoverUpdate => true
  | .historyRecord _ => true
  | .dailyEntry => true
  | .xoChanged => true
  | .hoLimit => true
  | .tempStale => true
  | .timXoTempWrite v => decide (v < 2 ^ 64)
  | .phaseStep v => decide (v < 2 ^ 64)
  | .sysrefOutPulse n => decide (n < 4)
  | .sensorReading _ _ => true
  | .shutdownAssert => true
  | .sensorTuckpoint sensor => decide (sensor < 56)
  | .analogueTrip => true
  | .avsAdjust _ _ => true
  | .leaseSync word => bytesOk word
  | .leaseGrant word => bytesOk word
  | .leaseRevoke word => bytesOk word
  | .healthReport word => bytesOk word
  | .leaseTimerExpiry => true
  | .noArbiter => true
  | .healthSlot => true
  | .arbiterSync => true
  | .arbiterRenew => true
  | .arbiterGrant => true
  | .twinFailed node => decide (node < 2)
  | .arbiterWaitEnd => true
  | .powerOnReset straps => decide (straps < 4)
  | .resetN _ => true
  | .supplyMonitorLow supply _ => decide (supply < 11)
  | .powerSeq stage supply _ => decide (stage < 8) && decide (supply < 11)
  | .deviceResetEnd _ _ _ => true
  | .watchdogReset => true
  | .bootRomStart _ _ _ => true
  | .restore _ => true
  | .train dimm rate _ _ lanes tiles _ _ => (dimm.all fun n => decide (n < 65536)) && decide (rate < 65536) && (lanes.all fun n => decide (n < 80)) && (tiles.all fun n => decide (n < 68))
  | .trainTimeout _ _ lanes => (lanes.all fun n => decide (n < 80))
  | .commitStart s0 s1 => decide (s0 < 2 ^ 64) && decide (s1 < 2 ^ 64)
  | .commitReadback _ => true
  | .eraseComplete => true
  | .tapReset => true
  | .instructionLoad code _ => decide (code < 256)
  | .qdpAccess scan _ => decide (scan < 2 ^ 45)
  | .halt => true
  | .qdpResume => true
  | .step => true
  | .devReset => true
  | .breakpoint core => decide (core < 4)
  | .wordLatchRead addr => decide (addr < 2 ^ 64)
  | .registerWrite who addr size v => decide (who < 64) && decide (addr < 2 ^ 64) && (size == 4 || size == 8) && decide (v < 2 ^ 64)
  | .illegalInstruction core => decide (core < 4)
  | .vddAuxRemoved _ => true
  | .deviceResetAfterRelease => true
  | .hourlyCommitRetry => true
  | .returnToD0 _ _ _ _ mask => decide (mask < 256)

end Sys2Proof
end

