-- ==== Sys2Proof/Tests/Slice0.lean ====
section
/-!
SUPPORT. Tests: ill-formed commands are refused, the manual's worked examples come out, and for every statement a state and operands that
meet the hypotheses of each of its clauses.
-/
namespace Sys2Proof.Tests
open Sys2Proof Sys2Proof.Machine

/-- The state after reset with firmware in READY. -/
def up (f : Dev → Dev := id) : State := { State.reset with dev := f (State.reset.dev.setF DEVSTAT DEVSTAT_FW_STATE FW_READY) }

/-- The same with a command of an opcode and its parameter words waiting in slot 0. -/
def mb (op : Nat) (ps : List Nat) (f : Dev → Dev := id) : State :=
  let d := (up f).dev
  let d1 := (op :: ps).zipIdx.foldl (fun (e : Dev) (w, i) => e.wrN (MB_WORD i) w) d
  { State.reset with dev := { d1.wrN DOORBELL 1 with host := { d1.host with fwq := [0] } } }

/-- The command that waits is taken up and passes the common checks, and more holds of its state. -/
def ok (df : CmdDef) (ps : List Nat) (f : Dev → Dev := id) (p : Cmd → Dev → Bool := fun _ _ => true) : Bool :=
  ready df 0 0 0 (mb df.op ps f) && p ((mb df.op ps f).dev.readCmd 0 0 0) (mb df.op ps f).dev

/-- A job accepted for a unit. -/
def job (op unit : Nat) (d : Dev) : Dev := ((d.acceptJob op [] unit true false false).map (·.2)).getD d

/-- A state or value of the witnesses below. -/
def compatD (d : Dev) : Dev := d.setF SC_ID SC_ID_MODE 1

/-- A state or value of the witnesses below. -/
def roleD (r : Nat) (d : Dev) : Dev := d.setF ID_MODE ID_MODE_ROLE r

/-- A state or value of the witnesses below. -/
def running (d : Dev) : Dev := { d with run := { d.run with active := true } }

/-- A state or value of the witnesses below. -/
def huOn (d : Dev) : Dev := d.setF SC_HU_CFG SC_HU_CFG_EN 1

/-- Hypotheses met, clause by clause: SystemCommandsAnswer. -/
theorem witness_SystemCommandsAnswer :
  ([
    ok pingDef [1, 2, 3, 4], ok devInfoDef [],
    ok jobQueryDef [1024] (job 0x0107 5) (fun c d => ((d.job c.index).area).isSome), ok jobQueryDef [] id (fun c d => (d.job c.index).area.isNone),
    ok jobCancelDef [1025] (fun d => job 0x0107 5 (job 0x0107 5 d)) (fun c d => d.jobState c.index == 1),
    ok jobCancelDef [1024] (job 0x0107 5) (fun c d => d.jobState c.index == 2 && !noCancel.contains (d.jobOp c.index)),
    ok jobCancelDef [1024] (fun d => (job 0x0107 5 d).endJob 0 .ok 0) (fun c d => decide (3 ≤ d.jobState c.index)),
    ok jobReleaseDef [1024] (fun d => (job 0x0107 5 d).endJob 0 .ok 0) (fun c d => d.jobState c.index == 3),
    ok aperSetDef [1, 0x4000000, 0x10],
    ok copyDef [] id (fun c d => (c.job d 0x0107 false).isSome),
    ok roleSetDef [2] id (fun _ d => !d.batchOpen),
    (let s := mb modeSetDef.op [1] huOn; let k := s.dev.readCmd 0 1500000 1499000
     ready modeSetDef 0 1500000 1499000 s && ((s.dev.putSetting 0xFF00 [k.b 0 0 0]).huCheck 1500000 1499000).1),
    ok hostConfigDef [0, 0x8000], ok sysResetDef [0xA5C3]]).all id = true := by decide +kernel

/-- Hypotheses met, clause by clause: TimingCommandsAnswer. -/
theorem witness_TimingCommandsAnswer :
  ([
    ok timRefSetDef [], ok timLoopSetDef [0, 0x000A0001, 10, 0x10000, 1], ok timLoopSetDef [0, 0x000A0001, 10, 0x10000, 1, 100],
    ok timForceDef [15] id (fun c d => c.b 0 3 0 == 15 && d.timSt != TS_SWITCH), ok timForceDef [15] (fun d => d.setTim TS_SWITCH) (fun c d => c.b 0 3 0 == 15 && d.timSt == TS_SWITCH),
    ok timPhaseStepDef [] id (fun c d => !bit (c.p 1) 1 && !d.run.active && !d.front.running && !d.capBusy),
    ok timPhaseStepDef [0, 2, 5] id (fun c d => bit (c.p 1) 1 && !d.run.active && !d.front.running && !d.capBusy),
    ok timOutputDef [] id (fun c d => !((outParts (c.p 0)).out.any fun x => d.outInUse x.1) && !((outParts (c.p 0)).lref.any fun x => d.lrefUsed x.1)),
    ok timSngDef [0, 0, 0, 1, 15] id (fun c d => !d.sngBusy (c.b 0 2 0)),
    ok timXoDef [10000000], ok timHistoryDef [0, 0x1000] id (fun c d => (c.job d 0x0208 false).isSome),
    ok timStatusDef [],
    ok timSysrefGoDef [] id (fun c d => !(((maskBits 4 (c.b 0 3 0)).filter fun m => d.f (TIM_SYSREF m) TIM_SYSREF_MODE == 2).any fun m => earlier (c.q 1) (d.sngCount (d.f (TIM_SYSREF m) TIM_SYSREF_SNG) + 1024) 64)),
    ok timClocksDef [1000] id (fun _ d => !d.run.active)]).all id = true := by decide +kernel

/-- Hypotheses met, clause by clause: LaneCommandsAnswer. -/
theorem witness_LaneCommandsAnswer :
  ([
    ok laneSetDef [1, 0, 0, 0x31] id (fun c d => let ns := maskLanes (c.laneMask 0); !ns.any d.laneUsed && !(ns.any fun m => d.claimed m || (d.compat && m < 68)) && (d.pllPlan ns (laneSetOf c)).isSome),
    ok laneStatusDef [], ok lanePowerDef [1, 0, 0, 1] id (fun c _ => bit (c.p 3) 0),
    ok lanePowerDef [1, 0, 0, 0] id (fun c d => !bit (c.p 3) 0 && (c.job d (0x0303 + 0x1000000 * d.jobSeq) false).isSome),
    ok eyeScanDef [5, 0x10000, 0x10000] (fun d => d.trainStep 5 0 8) (fun c d => (c.job d (0x030400 + c.b 0 7 0) true).isSome),
    ok prbsDef [] id (fun c d => !(bit (c.p 1) 4 && d.laneUsed (c.p 0) && !c.force)),
    ok errInjectDef [0x14100] id (fun c d => !(d.laneUsed (c.b 0 6 0) && !c.force) && c.b 0 10 8 == 1),
    ok errInjectDef [0x200, 3] id (fun c d => !(d.laneUsed (c.b 0 6 0) && !c.force) && c.b 0 10 8 != 1),
    ok laneGroupDef [0x400, 3] (fun d => [0, 1, 2].foldl (fun (e : Dev) n => e.setF (LN_CTRL n) LN_CTRL_FUNC 1) d) (fun c _ => c.b 0 7 6 == 0),
    ok laneGroupDef [0x40] (fun d => { d with lgroups := [{ id := 0, tx := false, data := [0, 1], parity := 2 }] }) (fun c _ => c.b 0 7 6 == 1),
    ok laneGroupDef [0x180] (fun d => { d with lgroups := [{ id := 0, tx := true, data := [0, 1], parity := 2 }] }) (fun c _ => c.b 0 7 6 == 2),
    ok jesdLinkDef [0x100] id (fun c _ => bit (c.p 0) 8),
    ok jesdLinkDef [0, 1, 0, 0, 0x01101001, 0x100] (fun d => d.setF (LN_CTRL 0) LN_CTRL_FUNC 3) (fun c _ => !bit (c.p 0) 8),
    ok jesdAlignDef [0] (fun d => d.setJlink 0 (some { lanes := [0], subclass := 1, m := 1, n := 16, np := 16, s := 1, cs := 0, e := 1, rbd := 0, internal := false }))
      (fun c d => (d.jlink (c.b 0 7 0)).isSome && (c.job d (0x030900 + c.b 0 7 0) false).isSome)]).all id = true := by decide +kernel

/-- The same with bytes put into memory at an address. -/
def okM (df : CmdDef) (ps : List Nat) (f : Dev → Dev) (a : Nat) (bs : List Nat) (p : Cmd → State → Bool) : Bool :=
  let s := { mb df.op ps f with mem := ({} : Mem).wr a bs }
  ready df 0 0 0 s && p (s.dev.readCmd 0 0 0) s

/-- A state or value of the witnesses below. -/
def hb : Nat := 0x100000000000

/-- A state or value of the witnesses below. -/
def isOk (x : Except Code (List Nat)) : Bool := match x with | .ok _ => true | .error _ => false

/-- A state or value of the witnesses below. -/
def bytesOf (x : Except Code (List Nat)) : List Nat := match x with | .ok b => b | .error _ => []

/-- A state or value of the witnesses below. -/
def fin (n : Nat) : FInput := { q := 2 ^ 46, sng := 0, rqShift := 0, kind := 0, srcId := n, link := 0, bits := 16 }

/-- A state or value of the witnesses below. -/
def frontD (d : Dev) : Dev := { (roleD 1 d) with front := { d.front with conf := true, inputs := [fin 0, fin 1] } }

/-- Hypotheses met, clause by clause: FrontCommandsAnswer. -/
theorem witness_FrontCommandsAnswer :
  ([
    okM frontConfigDef [0x20 + 0x100, 1, 0x7F0000, 0, 1024, 0, hb % 2 ^ 32, hb / 2 ^ 32]
      (fun d => ((roleD 3 d).wrN (TIM_SNG_NUM 0) 100000000).wrN (TIM_SNG_DEN 0) 1) hb
      [0, 0, 0, 0, 0, 0x40, 0, 0, 0, 0, 0, 16, 0, 0, 0, 0, 0, 0, 0, 0, 0, 0x40, 0, 0, 1, 0, 0, 16, 0, 0, 0, 0]
      (fun c s =>
        let d := s.dev
        let k := c.b 1 11 0 + 1
        let bs := bytesOf (readTable d s.mem (c.q 6) (16 * k))
        let es := (List.range k).map (frEntry bs)
        let xs := es.map fun x => x.1
        let mode := c.b 0 1 0
        let p := 2 ^ c.b 0 5 2
        let chans := c.b 2 31 16 + 1 - c.b 2 15 0
        let regs := frRegions false false (c.b 0 13 12) (lineDepth (c.p 3) (c.p 4) (c.p 5)) k chans 1 d.front.mK
        d.role == 3 && k == 2 && !d.front.running && isOk (readTable d s.mem (c.q 6) (16 * k)) && !(es.any (fun x => !x.2) || sameSource xs) &&
          (log2G k chans).isSome &&
          !(!d.frRatesOk false mode p xs || decide (regionMib regs > d.hbmMib) || !d.demandOk (d.frTraffic false false (c.b 0 13 12) (hopOf mode p) chans 1 xs))),
    ok delayModelDef [1, 0, 0, 0, 255] frontD (fun c d => d.front.conf && (d.loadSeg (segEntry (fun k => c.p (1 + k)) d.front.inputs.length).1).2 != 2),
    ok modelTableDef [0, 0, 1] frontD (fun c d => d.front.conf && (c.job d 0x0403 true).isSome),
    ok coefLoadDef [] id (fun c d => !d.front.running && (c.job d 0x0404 false).isSome),
    ok gainLoadDef [] frontD (fun c d => d.front.conf && (c.job d 0x0405 false).isSome),
    ok detectSetDef [10, 0, 0, 0, 256, 16],
    ok detectReadDef [] frontD (fun c d => d.front.conf && (c.job d 0x0407 false).isSome),
    ok routeSetDef [0, 0, 0x1000] frontD (fun c d => d.role == 1 && !d.front.running && d.front.conf && isOk (readTable d {} (c.q 1) (32 * c.p 0)) && c.p 0 == 0 && d.routesFit []),
    ok frontStartDef [0] frontD (fun c d => d.front.conf && !d.front.running && !earlier (c.q 1) d.outNow 64 && !bit (c.p 0) 0),
    ok frontStartDef [1] frontD (fun c d => d.front.conf && !d.front.running && !earlier (c.q 1) d.outNow 64 && bit (c.p 0) 0),
    ok frontStatusDef []]).all id = true := by decide +kernel

/-- A state or value of the witnesses below. -/
def runD (d : Dev) : Dev := { d with run := { d.run with active := true, nint := 1 } }

/-- A state or value of the witnesses below. -/
def streamD (cls : Nat) (d : Dev) : Dev := { d with net := { d.net with streams := [(0, some { words := [cls * 2 ^ 21, 0, 0, 9578] })] } }

/-- Hypotheses met, clause by clause: RunCommandsAnswer. -/
theorem witness_RunCommandsAnswer :
  ([
    ok xcorPlanDef [0x100, 16, 0, 0x28000 + 1000] id (fun c d =>
      (planOf (c.b 0 12 0) (bit (c.p 0) 13) (c.b 1 16 0) (c.b 0 24 16) 0xFFFFFFFF (c.b 3 10 0) ((if c.b 3 17 11 = 0 then 80 else c.b 3 17 11) * 10307)).k != 0 && d.compat == false),
    ok bondReadDef [] id (fun c d => (c.job d 0x0502 false).isSome),
    ok bondSetDef [] (fun d => { d with run := { d.run with par := { d.run.par with n := 2 } } }) (fun c d => d.run.par.n != 0 && (c.job d 0x0503 true).isSome),
    ok tuckpointDef [3] id (fun c d => (d.tuckTile (c.b 0 6 0)).isSome),
    ok auditCtrlDef [], ok tileStatusDef [],
    ok runStopDef [1] runD (fun c d =>
      let b := (barrierSpn d c - d.run.par.s0) / d.run.par.t
      d.run.active && bit (c.p 0) 0 && decide (d.run.firstBarrier ≤ b) && !(d.run.stopAt.any fun x => decide (b > x)) && !d.run.barriers.any (·.stop) &&
        (c.job d (0x0508 + 0x10000 * c.seq + 0x1000000 * d.jobSeq) true).isSome),
    ok dumpNowDef [1] runD (fun c d =>
      let b := (barrierSpn d c - d.run.par.s0) / d.run.par.t
      d.run.active && bit (c.p 0) 0 && decide (d.run.firstBarrier ≤ b) && !(d.run.stopAt.any fun x => decide (b > x)) &&
        (c.job d (0x0508 + 0x10000 * c.seq + 0x1000000 * d.jobSeq) true).isSome),
    ok integSetDef [1] runD (fun c d => d.run.active && ndb (c.p 0) == ndb d.run.nint),
    okM dumpRouteDef [1, hb % 2 ^ 32, hb / 2 ^ 32] (streamD 1) hb [0, 0, 0xFF, 0xFF] (fun c s =>
      let d := s.dev
      let bs := bytesOf (readTable d s.mem (c.q 1) 16)
      let es := (List.range (c.b 0 4 0)).map (routeEntry bs)
      isOk (readTable d s.mem (c.q 1) 16) && !d.run.active && es.all (d.dumpEntryOk (avpLargest (d.f AC_CTRL AC_CTRL_DFMT) (d.f AC_CTRL AC_CTRL_PKT_LOG2)))),
    ok peekDef [0, 2048, 0, 0, 0, 0x1000, 0xFFFFFFFF, 0] (fun d => { runD d with run := { (runD d).run with nint := 3 } }) (fun c d =>
      let r := d.run
      let p := r.par
      let spn := barrierSpn d c
      let b := (spn - p.s0) / p.t
      let j := (spn - p.s0) % p.t / 256
      r.active && decide (p.s0 ≤ spn) && (spn - p.s0) % 256 == 0 && decide (c.b 3 15 0 + (c.b 3 31 16 + 1) ≤ p.nch) && !(j == 0 && r.isBoundary b) &&
        decide (r.bs + (if j = 0 then 2 else 4) ≤ b) && !(r.stopAt.any fun x => decide (spn > p.s0 + x * p.t)) && decide (r.peeks.length < 4) && (j == 0 || tget (fun _ => 0) r.inner b == 0) &&
        decide (peekBytes p (c.b 0 2 1) (c.b 3 31 16 + 1) ≤ c.q 6) && d.demandOk (d.demand p 2) && (c.job d (0x050C + 0x1000000 * d.jobSeq) true).isSome),
    ok accStatusDef []]).all id = true := by decide +kernel

/-- A state or value of the witnesses below. -/
def readyRun (d : Dev) : Dev :=
  let e := ((roleD 2 (streamD 1 d)).setF TSU_CTRL TSU_CTRL_VALID 1).setF TIM_STAT TIM_STAT_STATE 4
  { e with run := { e.run with route := [(0, 15, 0, 0)] } }

/-- Hypotheses met, clause by clause: RunCommandsAnswer_start. -/
theorem witness_RunCommandsAnswer_start :
  ([
    ok runStartDef [2, 16, 0, 0x140000, 0, 0, 0, 0xF, 0, 0, 0, 1] readyRun (fun c d =>
        let mhz := d.f TIM_CLK TIM_CLK_TCLK_MHZ
        let p0 := runPar c
        let avail := mhz * p0.period / (2 ^ 16 * 10 ^ 6)
        let pl := planOf p0.n p0.c8 p0.nch (c.b 0 24 16) avail mhz d.lanePayload
        let p := { p0 with k := max pl.k 1, c := pl.c, cLast := pl.cLast }
        d.role == 2 && !d.run.active && d.on TSU_CTRL TSU_CTRL_VALID && d.f TIM_STAT TIM_STAT_STATE != 0x0F && d.dumpCover p && !d.on BM_CTRL BM_CTRL_EN && pl.k != 0 &&
        decide (pl.need ≤ avail) && decide (regionMib (runRegions p (c.p 11)) + regionMib (d.heldRegions.map (·.2)) ≤ d.hbmMib) && d.demandOk (d.demand p 1))]).all id = true := by decide +kernel

/-- A state or value of the witnesses below. -/
def beamD (d : Dev) : Dev := { roleD 2 d with beam := { d.beam with configured := true, n := 2, t := 256, nch := 1 } }

/-- A state or value of the witnesses below. -/
def liveDdr (d : Dev) : Dev := { ((List.range 8).foldl (fun (e : Dev) c => e.setF (MC_CHSTAT (64 + c)) MC_CHSTAT_STATE 1) d) with memc := { d.memc with dimm := List.replicate 8 16 } }

/-- Hypotheses met, clause by clause: StoreCommandsAnswer. -/
theorem witness_StoreCommandsAnswer :
  ([
    ok beamConfigDef [] (roleD 2) (fun c d => !d.run.active && d.role == 2 && !bit (c.p 0) 0),
    ok beamConfigDef [1, 0, 0, 2, 1] (roleD 2) (fun c d =>
        let k := c.b 3 12 0
        let t := (c.b 3 20 13 + 1) * 256
        let nch := c.b 4 16 0
        let beams := 32 * (c.b 0 5 1 + 1)
        let vs := (List.range (c.b 0 5 1 + 1)).countP fun j => bit (c.p 1) j
        let ring := ringBytes nch t beams vs (2 ^ c.b 0 12 10) (bit (c.p 0) 6) (detValues (c.b 0 8 7) beams) (c.b 0 9 9) (c.b 2 11 0 + 1)
        !d.run.active && d.role == 2 && bit (c.p 0) 0 && decide (2 * ceilDiv (wbufBytes k nch beams) (2 ^ 20) + ceilDiv ring (2 ^ 20) + d.front.hbm / 2 ^ 20 ≤ d.hbmMib)),
    okM beamRouteDef [1, hb % 2 ^ 32, hb / 2 ^ 32] (fun d => streamD 2 (beamD d)) hb [1, 0, 31, 0] (fun c s =>
      let d := s.dev
      let xs := (List.range (c.b 0 5 0)).map (beamEntry (bytesOf (readTable d s.mem (c.q 1) 16)))
      isOk (readTable d s.mem (c.q 1) (16 * c.b 0 5 0)) && !d.run.active && d.beam.configured && !(xs.any fun x => !x.2) && (xs.map (·.1)).all d.beamEntryOk && d.beamCover (xs.map (·.1))),
    ok beamWloadDef [0, 0, 1] beamD (fun c d => d.beam.configured && d.beam.load.isNone && (c.job d 0x0603 false).isSome),
    ok beamWswapDef [] (fun d => (beamD d).setF BM_WCTRL BM_WCTRL_READY 1) (fun c d =>
      let r := (d.wrN BM_WSPN (c.q 0)).swapRequest.f BM_WCTRL BM_WCTRL_RESULT
      d.beam.configured && r != 3 && r != 6),
    ok beamStatusDef [], ok memStatusDef [], ok memQosDef [], ok memRetrainDef [],
    okM capConfigDef [1, hb % 2 ^ 32, hb / 2 ^ 32, 0, 0, 0, 0, 0, 16] liveDdr hb [] (fun c s =>
        let d := s.dev
        let bs := bytesOf (readTable d s.mem (c.q 1) 8)
        let sel := (List.range (c.b 0 6 0)).map (selEntry bs)
        let crs := segCourses (capPairs sel).length d.capW
        let g := segGrains (d.grain false) (capPairs sel).length d.capW crs
        let live := maskCount d.liveDdr
        let per := d.capPeriod * 256 * crs
        let rate := if per = 0 then 0 else g * d.grain false * 10 ^ 12 * 2 ^ 16 / per
        d.capState == 0 && isOk (readTable d s.mem (c.q 1) (8 * c.b 0 6 0)) &&
          !(sel.any fun x => decide (x.1 > x.2.1 ∨ x.2.2.1 > x.2.2.2 ∨ x.2.1 > 4095)) &&
          decide (rate ≤ min (300 * 10 ^ 9) (37500000000 * live * (4800 + 400 * min (d.f MC_MAP MC_MAP_DDR_RATE) 4) / 6400))),
    ok capArmDef [] (fun d => { runD d with cap := { d.cap with sel := [(0, 0, 0, 0)] } }) (fun _ d => d.capState == 0 && d.streaming && d.cap.sel != []),
    ok capTriggerDef [1] (fun d => let e := { runD d with cap := { d.cap with sel := [(0, 0, 0, 0)], newest := 10 } }; e.capArm) (fun c d =>
      (d.trigger 2 (c.b 0 15 8) (d.cap.newest - 1) 0xFFFFFFFF 0xFFFFFFFF (c.p 3) []).2 == some .accepted),
    ok capReadDef [0, 0, 256, 0, 0, 0, 0, 0] (fun d => ({ d with cap := { d.cap with sel := [(0, 0, 0, 0)] } } : Dev).setCap 4) (fun c d => d.capState == 4 && (c.job d 0x0707 false).isSome),
    ok capReleaseDef [] id (fun c _ => !bit (c.p 0) 0), ok capStatusDef []]).all id = true := by decide +kernel

/-- A port configuration: MAC 0 in a mode, frames of 1518 bytes. -/
def ethWords (m mode : Nat) : List Nat :=
  [m + mode * 32, 0x10000 + 1518, 0x1111, 0, 0x0A000001, 0x0A000002, 24 + 64 * 256, 0x80FE, 0, 0, 0x1000000]

/-- A state or value of the witnesses below. -/
def laneCore (st : Nat) (d : Dev) : Dev := d.setF (CR_STAT (d.physOf 1)) CR_STAT_STATE st

/-- Hypotheses met, clause by clause: NetworkCommandsAnswer. -/
theorem witness_NetworkCommandsAnswer :
  ([
    ok ethPortDef (ethWords 0 0) id (fun c d => let m := c.b 0 4 0; let mode := c.b 0 7 5
      (d.macPll m mode).isSome && !d.portUsed m && !((macLanes m mode).any fun k => (d.compat && k < 68) || (!(macLanes m (d.macMode m)).contains k && d.laneFunc k != 0)) &&
      (mode == 0 || rateFits (modeMbps mode) (d.portStreams m))),
    ok ethPortDef (ethWords 19 5) id (fun c d => let m := c.b 0 4 0; let mode := c.b 0 7 5
      (d.macPll m mode).isSome && !d.portUsed m && !((macLanes m mode).any fun k => (d.compat && k < 68) || (!(macLanes m (d.macMode m)).contains k && d.laneFunc k != 0)) &&
      (mode == 0 || rateFits (modeMbps mode) (d.portStreams m))),
    ok streamSetDef [1, 5 + 0 * 65536] id (fun c d => let es := (List.range (c.b 0 2 0)).map c.entry
      let d1 := es.foldl (fun (e : Dev) w => e.applyStream w) d
      !(d.run.active && es.any fun w => (d.stream (w.getD 0 0 % 1024)).isSome && d.routeNames (w.getD 0 0 % 1024)) &&
        !((List.range 20).any fun m => d1.macMode m != 0 && es.any (fun w => ({ words := w } : Stream).mac == m) && !rateFits (modeMbps (d1.macMode m)) (d1.portStreams m))),
    ok acpRxDef [] id (fun c d => isOk (readTable d {} (c.q 1) (32 * c.b 0 6 0)) && !anyOverlap []),
    okM acpRxDef [1, hb % 2 ^ 32, hb / 2 ^ 32] id hb (List.replicate 32 0) (fun c s => isOk (readTable s.dev s.mem (c.q 1) 32) && bindOk ((bytesOf (readTable s.dev s.mem (c.q 1) 32)).take 32)),
    ok netStatusDef [], ok addrTableDef [] id (fun c _ => c.b 0 7 6 == 0),
    ok addrTableDef [0x40, 0x0A000001] id (fun c _ => c.b 0 7 6 == 1), ok addrTableDef [0x80, 0x0A000001] id (fun c _ => c.b 0 7 6 == 2),
    ok ptpConfigDef [0, 0, 0, 0, 0, 0, 0, 2 * 65536], ok ptpStatusDef [],
    ok timeSetDef [] id (fun c _ => !bit (c.p 0) 4),
    ok timeSetDef [0x10] id (fun _ d => !d.run.active && !d.front.running && !([1, 2, 3].contains (d.f CAP_STAT CAP_STAT_STATE))),
    ok timeGetDef [],
    ok pulseSetDef [] (fun d => d.setF TSU_CTRL TSU_CTRL_VALID 1) (fun c d => d.on TSU_CTRL TSU_CTRL_VALID && c.b 0 4 3 == 0),
    ok pulseSetDef [0x108, 1000, 0, 0, 0, 1000] (fun d => d.setF TSU_CTRL TSU_CTRL_VALID 1) (fun c d =>
      let p := c.b 0 2 0
      let mode := c.b 0 4 3
      let d1 := ((((d.wrN (PO_CTRL p) (mode + c.b 0 5 5 * 4 + d.f (PO_CTRL p) PO_CTRL_MISSED * 16 + c.b 0 31 8 * 256)).wrN (PO_START_SEC p)
          (c.q 1)).wrN (PO_START_NS p) (c.q 3)).wrN (PO_PERIOD p) (c.q 5))
      d.on TSU_CTRL TSU_CTRL_VALID && mode != 0 && mode != 3 && decide (d.tod + 1000 * 2 ^ 40 ≤ d1.pulseStart p)),
    ok portDelayDef [],
    ok coreLoadDef [1, 0x00000000, 0x1000, 0, 4] id (fun c d => d.coreState (d.physOf c.coreNum) != CORE_RUN && (c.job d (0x0901 + 0x10000 * c.coreNum) false).isSome),
    ok coreStartDef [1, 0, 0, 0, 0, 100] id (fun c d => let k := d.physOf c.coreNum
      d.coreState k != CORE_RUN && (d.core k).qhalt == 0 && d.coreState k != CORE_RETIRED),
    ok coreStopDef [5] id (fun c _ => bit (c.p 0) 2),
    (let s := mb coreStopDef.op [1]; let c := s.dev.readCmd 0 0 0
     ready coreStopDef 0 0 0 s && !bit (c.p 0) 2 && (toBoundary (s.dev.physOf c.coreNum) 800000 s).dev.coreState (s.dev.physOf c.coreNum) != CORE_RUN),
    (let s := mb coreStopDef.op [1] (laneCore CORE_RUN); let c := s.dev.readCmd 0 0 0
     let k := s.dev.physOf c.coreNum
     let s1 := toBoundary k 800000 s
     ready coreStopDef 0 0 0 s && !bit (c.p 0) 2 && s1.dev.coreState k == CORE_RUN && (s1.core k).ctx.boundary),
    ok coreStatusDef [1],
    ok coreTuckDef [1] id (fun c d => (d.core (d.physOf c.coreNum)).qhalt == 0 && (d.core (d.physOf 3)).qhalt == 0 && d.reserveOk && (c.job d 0x0905 false).isSome)]).all id = true := by decide +kernel

/-- The same for commands that carry the hold-up samples. -/
def okH (df : CmdDef) (ps : List Nat) (f : Dev → Dev) (p : Cmd → State → Bool) : Bool :=
  let s := mb df.op ps f
  ready df 0 1500000 1499000 s && p (s.dev.readCmd 0 1500000 1499000) s

/-- A state or value of the witnesses below. -/
def isLog (x : Except Code (List (Nat × List Nat))) : Bool := match x with | .ok _ => true | .error _ => false

/-- A state or value of the witnesses below. -/
def logOf (x : Except Code (List (Nat × List Nat))) : List (Nat × List Nat) := match x with | .ok l => l | .error _ => []

/-- A state or value of the witnesses below. -/
def dcIdle (_ : Cmd) (d : Dev) : Bool := ([0, 1, 2, 3].any fun p => (d.per p).running) == false

/-- Hypotheses met, clause by clause: CareCommandsAnswer. -/
theorem witness_CareCommandsAnswer :
  ([
    ok errReadDef [0, 0] id (fun c d => decide ((d.ret.errLog.drop (c.p 0)).length ≤ ((if c.slot = SMB_SLOT then 14 else if c.rdest then 8191 else 270) - 10) / 8)),
    ok errAckDef [0x3FF], ok eccStatusDef [] id (fun c _ => !c.clear),
    (let s := { mb eccStatusDef.op [] with dev := (mb eccStatusDef.op []).dev.wrN (MB_WORD 0) (0x0A03 + 2 ^ 24) }
     (s.dev.readCmd 0 0 0).clear == false),
    ok scrubCtrlDef [0x1000], ok cvuSetDef [0] id (fun c d => let u := c.b 0 2 0
      d.f (CV_CFG u) CV_CFG_OWNER != 1 && d.f (CV_CFG u) CV_CFG_OWNER != 2 && !bit (c.p 0) 5),
    ok eccInjectDef [1, 0x20000000] id (fun c d => !(d.granuleUsed (c.b 0 2 0) (c.q 1) && !c.force)),
    ok thermStatusDef [], ok thermSetDef [] id (fun c d => !bit (c.p 0) 6 || d.f (TH_SENS (c.b 0 12 7)) TH_SENS_STATE != 0),
    ok wearReportDef [], ok reserveStatusDef [],
    ok leaseConfigDef [1] id (fun c d => !d.run.active && !d.compat && isOk (readTable d {} (c.q 4) 0) && c.p 3 == 0),
    ok leaseStatusDef [], ok arbiterConfigDef [1, 1000, 100] id (fun _ d => !d.isTwin && !d.compat),
    ok healthReadDef [2]]).all id = true := by decide +kernel

/-- Hypotheses met, clause by clause: KeepCommandsAnswer. -/
theorem witness_KeepCommandsAnswer :
  ([
    okM profileReadDef [hb % 2 ^ 32, hb / 2 ^ 32, 8192] (fun d => { d with ret := { d.ret with profile := [(0x0201, [1])] } }) hb [] (fun c s =>
      let bs := s.dev.profileBytes'
      decide (bs.length ≤ c.q 2) && bs != [] && (memWrite s.dev s.mem (c.q 0) bs false).1),
    okH profileWriteDef [0, 0x10102, 7] huOn (fun c s => !s.dev.run.active && isLog (profileAfter c s) &&
      (({ s.dev with ret := { s.dev.ret with profile := logOf (profileAfter c s) } } : Dev).huCheck 1500000 1499000).1),
    okH profileWriteDef [0, 0x10102, 7] id (fun c s => !s.dev.run.active && isLog (profileAfter c s) &&
      !(({ s.dev with ret := { s.dev.ret with profile := logOf (profileAfter c s) } } : Dev).huCheck 1500000 1499000).1),
    ok commitDef [] id (fun c d => (c.job d 0x0C03 false).isSome),
    okH holdupStatusDef [1] id (fun _ s => s.flash.engine == .idle), okH holdupStatusDef [0] id (fun c _ => !bit (c.p 0) 0),
    ok fwImageDef [0, 0x1023, 0x1000] id (fun c d => (c.job d 0x0C05 false).isSome),
    okH factoryDefaultsDef [0xA5C3] huOn (fun _ s => !s.dev.run.active && (({ s.dev with ret := { s.dev.ret with profile := [], lease := {} } } : Dev).huCheck 1500000 1499000).1),
    ok selftestDef [5] id (fun c d => d.testReady (c.b 0 2 0) (c.b 0 15 8) && (c.job d (0x0D0000 + c.b 0 2 0 * 256 + c.b 0 15 8) false).isSome),
    ok selftestResultDef [], ok debugLockDef [2],
    ok persStatusDef [] compatD,
    okH persAssignDef [0, 1, 1, 1, 1, 1000] (fun d => huOn (compatD d)) (fun k s => dcIdle k s.dev &&
      s.dev.persFits ([0, 1, 2, 3].map fun p => if bit (k.p 0) p then k.p (1 + p) else 0).sum (k.q 5) &&
      (((s.dev.persAssign k).putSetting 0x0111 (k.ps.take 18)).huCheck 1500000 1499000).1),
    ok persResetDef [2] compatD, ok persLogDef [0, 0x1000, 0x1000] compatD (fun c d => (c.job d 0x0113 false).isSome)]).all id = true := by decide +kernel

/-- A personality's slot 0 with a command word and its words, handed to firmware in compatibility mode. -/
def dc (p op : Nat) (ws : List Nat) (f : Dev → Dev := id) : State :=
  let d := compatD (up f).dev
  let d1 := (op :: ws).zipIdx.foldl (fun (e : Dev) (w, i) => e.wrN (DC_SLOT p i) w) d
  { State.reset with dev := ({ d1 with host := { d1.host with fwq := [dcSlot p 0] } } : Dev).setPer p { d1.per p with en := true } }

/-- The command is taken up, and more holds. -/
def okD (op p : Nat) (ws : List Nat) (f : Dev → Dev := id) (q : Dev → Bool := fun _ => true) : Bool :=
  readyDc op p 0 (dc p op ws f) && q (dc p op ws f).dev

/-- A state or value of the witnesses below. -/
def perRun (p : Nat) (d : Dev) : Dev := d.setPer p { d.per p with running := true, nch := 4 }

/-- Hypotheses met, clause by clause: PersonalityRowsComplete. -/
theorem witness_PersonalityRowsComplete :
  ([
    ok pingDef [] compatD (fun _ d => d.compat),
    okD 1 0 [], okD 0x10 1 [100] (fun d => { d.setPer 1 { d.per 1 with nch := 4 } with persRun := [2 ^ 16 * 1000000] }) (fun d => !d.persRateBad 1),
    okD 0x10 1 [100] (fun d => d.setPer 1 { d.per 1 with nch := 4 }) (fun d => d.persRateBad 1),
    okD 0x11 2 [] (perRun 2) (fun d => (d.per 2).running),
    okD 0x20 3 [15] id (fun d => decide (d.dcWord 3 0 1 ≤ 15)), okD 0x20 3 [15] (perRun 3) (fun d => decide (d.dcWord 3 0 1 ≤ 15)),
    okD 0x20 3 [16] id (fun d => decide (15 < d.dcWord 3 0 1)),
    okD 0x30 0 [1, 2, 3, 4, 5, 6] id (fun d => !(d.per 0).running), okD 0x30 0 [] (perRun 0) (fun d => (d.per 0).running),
    okD 0x40 0 [0, 0x3FF4, 12] id (fun d => decide (d.dcWord 0 0 1 ≤ 2 ∧ 1 ≤ d.dcWord 0 0 3 ∧ d.dcWord 0 0 3 ≤ 12) &&
      decide (d.dcWord 0 0 2 + d.dcWord 0 0 3 ≤ (if d.dcWord 0 0 1 = 0 then 0x4000 else if d.dcWord 0 0 1 = 1 then 0xFC00 else 0x10000))),
    okD 0x41 0 [2 ^ 14 - 1] id (fun d => decide (d.dcWord 0 0 1 < 2 ^ 14)), okD 0x42 0 [], okD 0x50 3 [],
    (let d := (dc 1 0 [] (fun d => d.setPer 1 { d.per 1 with nch := 4, chan0 := 0 })).dev.setF (LN_CTRL 17) LN_CTRL_FUNC 4
     let e := d.setPer 1 { d.per 1 with nch := 4 }
     (e.per 1).en && e.compat && e.laneFunc 17 == 4 && 17 / 16 == 1 && decide (0 < (e.per 1).nch)),
    (let d := (dc 0 0 []).dev
     let d1 := ((d.setPer 0 { d.per 0 with en := true }).setPer 1 { d.per 1 with en := true }).setF (CR_STAT 1) CR_STAT_CS 1
     let e := d1.setCoreState 1 CORE_RUN
     e.compat && e.coreCs 1 && e.coreState 1 == CORE_RUN && e.logicalOf 1 == 1 && (e.core 1).drain.ctx.boundary && (e.per 0).en && (e.per 1).en)]).all id = true := by decide +kernel

/-- A state or value of the witnesses below. -/
def aperOn (w : Bool) (d : Dev) : Dev := d.wrN (APER 0) (0x100000000000 + b2n w * 2 + 1)

/-- A state or value of the witnesses below. -/
def aj (st : Nat) (d : Dev) : Dev := (job 0x0107 5 d).wrN (JOB_WORD 0) ((job 0x0107 5 d).rdN (JOB_WORD 0) % 65536 + st * 65536)

/-- Hypotheses met, clause by clause: HostRowsComplete. -/
theorem witness_HostRowsComplete :
  ([
    slotOf 0x1000 == some 0 && slotOf 0x8000 == some 0 && !bit (up.dev.rdN DOORBELL) 0,
    slotOf 0x2FF8 == some 31 && bit ((up fun d => d.wrN DOORBELL (2 ^ 31)).dev.rdN DOORBELL) 31,
    bar0Ok 0x1001 4 == false, bar0Ok 4 8 == false,
    (up (aperOn true)).dev.on (APER 0) APER_EN && (up (aperOn true)).dev.on (APER 0) APER_WRITE,
    (up (aperOn false)).dev.on (APER 0) APER_EN && !(up (aperOn false)).dev.on (APER 0) APER_WRITE,
    (busRead 10 ((up (aperOn true)).dev.f (APER 0) APER_BASE * 2 ^ 26 + 16) 8 (up (aperOn true))).1.kind == .ok,
    commands.any (fun df => df.op == pingDef.op) && ready pingDef 0 0 0 (mb pingDef.op []),
    ((mb 0x0999 []).dev.host.fwq.head? == some 0) && (cmdOf ((mb 0x0999 []).dev.readCmd 0 0 0).op).isNone && (mb 0x0999 []).dev.mailServed,
    bit ({ up.dev.host with spacing := 4 }).spacing 2,
    !up.dev.fwStuck && !up.dev.pwr.inReset && !([FW_BOOT, FW_HALTED, FW_SHUTDOWN].contains up.dev.fwState),
    (up (aj 4)).dev.mailServed && (up (aj 4)).dev.jobState 0 == 4,
    (let s := up (job 0x0107 5); s.dev.mailServed && s.dev.jobState 0 == 2 && (jobWork (s.dev.jobOp 0) [] 0 s).2.isSome),
    up.dev.pwr.auxOn, up.dev.rdN SMB_DB % 2 == 0, { up.dev.host with smbAlert := true }.smbAlert, !up.dev.compat,
    (up compatD).dev.compat]).all id = true := by decide +kernel

/-- A state or value of the witnesses below. -/
def lst (n st : Nat) (d : Dev) : Dev := d.setF (LN_STAT n) LN_STAT_STATE st

/-- A state or value of the witnesses below. -/
def lfn (n fn : Nat) (d : Dev) : Dev := (d.setF (LN_CTRL n) LN_CTRL_FUNC fn).setF (LN_CTRL n) LN_CTRL_RX_EN 1

/-- A state or value of the witnesses below. -/
def laneOf (n : Nat) (g : Lane → Lane) (d : Dev) : Dev := d.setLane n (g (d.lane n))

/-- Hypotheses met, clause by clause: LaneTrainingRowsComplete. -/
theorem witness_LaneTrainingRowsComplete :
  ((
    [LST_CDR, LST_ADAPT, LST_DETECT, LST_FEC, LST_FRAME, LST_IDENT, LST_UP, LST_MISWIRED, LST_LOWPOWER].map fun st =>
      (lst 79 st up.dev).laneSt 79 == st) ++ [
    up.dev.identOk 0 1 2, (lfn 0 1 up.dev).identOk 0 0 0, !(lfn 0 1 up.dev).identOk 0 1 2,
    (let d := running (lfn 3 1 (lst 3 LST_ADAPT (laneOf 3 (fun l => { l with retrains := [0, 0, 0, 0, 0, 0, 0] }) up.dev)))
     let rs := (d.now :: (d.lane 3).retrains).filter fun t => decide (d.now ≤ t + SIXTY_S)
     let d1 := (d.laneMove 3 LST_CDR).cnt (LN_RETRAIN 3) 1
     let d2 := d1.setLane 3 { d1.lane 3 with retrains := rs.take 8 }
     decide (LST_CDR ≤ d.laneSt 3) && decide (d.laneSt 3 ≤ LST_IDENT) && decide (8 ≤ rs.length) && d2.laneRxUsed 3),
    (let d := lst 3 LST_IDENT up.dev
     let rs := (d.now :: (d.lane 3).retrains).filter fun t => decide (d.now ≤ t + SIXTY_S)
     decide (LST_CDR ≤ d.laneSt 3) && decide (d.laneSt 3 ≤ LST_IDENT) && decide (rs.length < 8)),
    (let d := running (lfn 3 1 (laneOf 3 (fun l => { l with signal := true }) up.dev))
     d.laneRxUsed 3 && d.laneSt 3 != LST_UP && (d.lane 3).signal && !(d.lane 3).rxFailed),
    (let d := (lst 5 LST_UP up.dev).setF (LN_CTRL 5) LN_CTRL_LP 1
     d.on (LN_CTRL 5) LN_CTRL_LP && d.laneSt 5 != LST_OFF && d.laneSt 5 != LST_LOWPOWER),
    !up.dev.on (LN_CTRL 5) LN_CTRL_LP && (lst 5 LST_LOWPOWER up.dev).laneSt 5 == LST_LOWPOWER && !(lst 5 LST_LOWPOWER up.dev).on (LN_CTRL 5) LN_CTRL_LP,
    (let d := laneOf 5 (fun l => { l with exitAt := some 3 }) up.dev
     (d.lane 5).exitAt.isSome && d.laneSt 5 != LST_UP),
    (let d := { up.dev with lgroups := [{ id := 0, tx := true, data := [5, 6], parity := 7 }] }
     ((d.setLane 5 { d.lane 5 with txFailed := true }).lgroups.find? fun g => g.tx && g.moved.isNone && g.data.contains 5).isSome &&
       ((d.setLane 8 { d.lane 8 with txFailed := true }).lgroups.find? fun g => g.tx && g.moved.isNone && g.data.contains 8).isNone)]).all id = true := by decide +kernel

/-- A good ASL header of a frame with no payload. -/
def hdr : Nat := sealHeader ASL_SYNC

/-- A state or value of the witnesses below. -/
def aslUp (d : Dev) : Dev := lst 9 LST_UP (lfn 9 1 d)

/-- A state or value of the witnesses below. -/
def grp : LGroup := { id := 0, tx := false, data := [9, 10], parity := 11 }

/-- Hypotheses met, clause by clause: LaneTrafficRowsComplete. -/
theorem witness_LaneTrafficRowsComplete :
  ([
    (let d := aslUp up.dev
     d.laneSt 9 == LST_UP && d.laneFunc 9 == 1 && !(d.lane 9).rxFailed && frameCheck 0 hdr [] == 0 && (d.frameBody 9 hdr []).rxGroup 9 == none),
    frameCheck 1 hdr [] != 0 && frameCheck 0 (hdr + 2 ^ 479) [] == 2 && frameCheck 0 (sealHeader (ASL_SYNC + 2 ^ 256)) [] == 3 && (aslUp up.dev).rxGroup 9 == none,
    (let d : Dev := { aslUp up.dev with lgroups := [grp] }
     let h := hdr + 2 ^ 479
     let g1 : LGroup := { grp with slots := grp.slots ++ [{ slot := 4, pos := bits h 155 152, lane := 9, check := frameCheck 0 h [], header := h, payload := [] }], newest := max grp.newest 4 }
     d.laneSt 9 == LST_UP && d.laneFunc 9 == 1 && d.rxGroup 9 == some grp && !grp.skew && !(g1.slots.any fun x => decide (x.slot + 3 < g1.newest))),
    (let d : Dev := { up.dev with lgroups := [{ grp with tx := true }], aslSlots := 1 }
     ((d : Dev).lgroups.find? fun g => g.tx && g.lanes.contains 11).isSome && (d.lgroups.find? fun g => g.tx && g.lanes.contains 12).isNone),
    (let d := (lfn 12 1 up.dev).setF (LN_CTRL 12) LN_CTRL_TX_EN 1
     ({ d with aslSlots := d.aslSlots + 1 } : Dev).sends 12),
    (let d := ((lfn 12 1 (lst 12 LST_UP up.dev)).setF (LN_CTRL 12) LN_CTRL_TX_EN 1).setBulk 0 { up.dev.bulkOf 0 with credit := 8 }
     decide (serialDiff (d.bulkOf 0).credit (((d.bulkOf 0).sent + d.bulkWaiting 0) % 2 ^ 32) 32 > 0) && d.txLanes 0 != [] && (d.bulkOf 0).queue == []),
    decide (serialDiff ((up.dev.setBulk 0 { up.dev.bulkOf 0 with credit := 0 }).bulkOf 0).credit 0 32 ≤ 0),
    (let d : Dev := { up.dev with lgroups := [{ grp with tx := true, tuck := some (1, 100) }] }
     (d.lgroups.find? fun g => g.tx && g.id == 0).isSome && !(earlier 100 100 48))]).all id = true := by decide +kernel

/-- A state or value of the witnesses below. -/
def jes (j : Jesd) (d : Dev) : Dev := lst 2 LST_UP (d.setJlink 1 (some j))

/-- A state or value of the witnesses below. -/
def j2 : Jesd := { lanes := [2] }

/-- A state or value of the witnesses below. -/
def eyeOn (d : Dev) : Dev := (lst 2 LST_UP d).setF (LN_EYE 2) LN_EYE_EN 1

/-- A state or value of the witnesses below. -/
def scan (d : Dev) : Dev := ((d.acceptJob 0x0304 [2, 0x10000, 0x10000] 0x030402 true false false).map (·.2)).getD d

/-- Hypotheses met, clause by clause: LaneTestRowsComplete. -/
theorem witness_LaneTestRowsComplete :
  ([
    (let d := jes j2 up.dev; d.jlink 1 == some j2 && j2.lanes.contains 2 && d.laneSt 2 == LST_UP && !j2.aligned && j2.subclass == 0),
    ({ j2 with subclass := 1, armed := some 0 } : Jesd).armed.isSome && ({ j2 with armed := some 0 } : Jesd).armJob == none,
    ({ j2 with subclass := 1, armed := some 0, armJob := some 3 } : Jesd).armJob == some 3,
    (let j : Jesd := { j2 with subclass := 1, lastEdge := some 0, aligned := true, phase := 2111 }
     decide (2111 < 2112 * max j.e 1) && (j.phase + 2113) % (2112 * max j.e 1) == 0 && (j.phase + 2112) % (2112 * max j.e 1) != 0),
    (jes { j2 with aligned := true } up.dev).jlink 1 == some { j2 with aligned := true },
    (eyeOn up.dev).laneSt 2 == LST_UP && (eyeOn up.dev).scanOf 2 == none && (eyeOn up.dev).on (LN_EYE 2) LN_EYE_EN,
    (((eyeOn up.dev).wrN (LN_EYE_ERR 2) 1).setF (LN_EYE 2) LN_EYE_EN 0).scanOf 2 == none,
    (let d := scan (lst 2 LST_UP up.dev); d.laneSt 2 == LST_UP && d.scanOf 2 == some 0 && ((scanPoints (d.job 0).params)[(d.job 0).tally]?).isSome),
    (let d := scan up.dev; d.laneSt 2 != LST_UP && d.scanOf 2 == some 0),
    (let d := up.dev.setF (LN_PRBS 2) LN_PRBS_CHK_EN 1; d.on (LN_PRBS 2) LN_PRBS_CHK_EN && !d.on (LN_PRBS 2) LN_PRBS_CHK_LOCK),
    (let d := (up.dev.setF (LN_PRBS 2) LN_PRBS_CHK_EN 1).setF (LN_PRBS 2) LN_PRBS_CHK_LOCK 1; d.on (LN_PRBS 2) LN_PRBS_CHK_EN && d.on (LN_PRBS 2) LN_PRBS_CHK_LOCK),
    (let d := (up.dev.setF (LN_PRBS 2) LN_PRBS_INJ_MODE 1).setF (LN_PRBS 2) LN_PRBS_GEN_EN 1; d.f (LN_PRBS 2) LN_PRBS_INJ_MODE == 1 && d.on (LN_PRBS 2) LN_PRBS_GEN_EN),
    (let d := laneOf 2 (fun l => { l with inj := 1 }) ((up.dev.setF (LN_PRBS 2) LN_PRBS_INJ_MODE 2).setF (LN_PRBS 2) LN_PRBS_GEN_EN 1)
     d.f (LN_PRBS 2) LN_PRBS_INJ_MODE == 2 && d.on (LN_PRBS 2) LN_PRBS_GEN_EN && (d.lane 2).inj == 1)]).all id = true := by decide +kernel

/-- The front runs with two inputs at 1 MHz, ten seconds after the epoch. -/
def frontGo (d : Dev) : Dev :=
  let e := (frontD d).wrN (TIM_SNG_NUM 0) 1000000
  { e with tod := 10 * secUnits, front := { e.front with running := true } }

/-- A state or value of the witnesses below. -/
def withF (g : Front → Front) (d : Dev) : Dev := { d with front := g d.front }

/-- Hypotheses met, clause by clause: FrontRowsComplete. -/
theorem witness_FrontRowsComplete :
  ([
    (let d := frontGo up.dev
     (d.frInput 1).isSome && d.front.conf && d.pastDeadline (fin 1) (16 * 3 + 15) && tget (fun _ => 0) d.front.detAt 1 ≤ 16 * 3),
    (let d := withF (fun f => { f with detAt := [(1, 2 ^ 33)] }) (frontGo up.dev)
     decide ((3 + 1) * 2 ^ d.frK ≤ tget (fun _ => 0) d.front.detAt 1) && (d.frInput 1).isSome),
    (let d := withF (fun f => { f with spn := 512 }) (frontGo up.dev); decide ((1 + 1) * d.front.mP ≤ d.front.spn) && (d.frInput 0).isSome),
    (let d := withF (fun f => { f with evt := [(0, some (5, 9))], detAt := [(0, 10)] }) (frontGo up.dev)
     (d.frInput 0).isSome && tget (fun _ => none) d.front.evt 0 == some (5, 9) && decide (9 + 1 + d.front.evtHold ≤ tget (fun _ => 0) d.front.detAt 0) &&
       !d.on FR_DET FR_DET_BLANK_EN && d.front.events.length == 0 && !d.on FR_DET FR_DET_EVT_TRIG),
    (let d := frontGo up.dev
     d.front.running && (d.front.inputs.zipIdx.all fun x => d.readable x.2 x.1 (d.front.knotAt + 255)) && !(d.front.stopAt.any fun n => decide (n ≤ d.front.knotAt))),
    (let d := withF (fun f => { f with knotAt := 65536 }) (frontGo up.dev)
     d.front.running && decide (d.front.spn * d.frHop + d.frP * d.frTaps / 2 ≤ d.front.knotAt) && !d.on FR_CTRL FR_CTRL_SK_EN &&
       (d.setF FR_CTRL FR_CTRL_SK_EN 1).on FR_CTRL FR_CTRL_SK_EN),
    (let d := (withF (fun f => { f with spn := 16 }) (frontGo up.dev)).setF FR_CTRL FR_CTRL_SK_EN 1
     d.front.running && d.on FR_CTRL FR_CTRL_SK_EN && d.front.mK != 0 && decide ((d.front.released / d.front.mK + 1) * d.front.mK ≤ d.front.spn)),
    (let d := withF (fun f => { f with stopAt := some 256, knotAt := 256 }) (frontGo up.dev)
     d.front.running && d.front.stopAt == some 256 && (({ d with front := { d.front with running := false, stopAt := none } } : Dev).setF FR_CTRL FR_CTRL_EN 0).capFront),
    (let d := roleD 3 (withF (fun f => { f with stopAt := some 256, knotAt := 256 }) (frontGo up.dev))
     !(({ d with front := { d.front with running := false, stopAt := none } } : Dev).setF FR_CTRL FR_CTRL_EN 0).capFront),
    (let d := withF (fun f => { f with running := false, startAt := some 1000 }) (frontGo up.dev)
     !d.front.running && d.front.startAt == some 1000 && decide (1000 ≤ d.outNow))]).all id = true := by decide +kernel

/-- A run of two inputs and four channels in batches of 256 spectra of 1 us each, ten seconds after its start. -/
def corr (g : Run → Run) (d : Dev) : Dev :=
  let p : RunPar := { n := 2, nch := 4, t := 256, w := 256, period := 65536 * 1000000, k := 4, pktLog2 := 5 }
  { d with tod := 10 * secUnits, run := g { d.run with active := true, par := p } }

/-- A state or value of the witnesses below. -/
def saved0 : Saved := { batch := 0, chunk := 0, pass := 0, pos := 0, slot := 0, tile := 0, ctx := {} }

/-- A state or value of the witnesses below. -/
def dump0 : Dump := { id := 0, start := 0, stop := 1, par := { n := 2, nch := 4, t := 256, w := 256, period := 65536 * 1000000, k := 4, pktLog2 := 5 },
                      early := false, holdover := false, image := 0 }

/-- Hypotheses met, clause by clause: CorrelatorRowsComplete. -/
theorem witness_CorrelatorRowsComplete :
  ([
    (let d := corr id up.dev
     d.run.active && d.run.inSlot == none && decide (d.run.par.s0 + (d.run.closed + 1) * d.run.par.t + d.run.par.w ≤ d.expSpn) && d.run.stopAt != some d.run.closed),
    (corr (fun r => { r with stopAt := some 0 }) up.dev).run.stopAt == some (corr id up.dev).run.closed,
    (let r := (corr (fun r => { r with closed := 1 }) up.dev).run
     r.active && r.closed != 0 && decide (r.staged < r.par.passes * r.par.courses) &&
       decide (r.staged - r.dispatched < 0x2000000 / (r.par.k * (128 * groups r.par.n) * 256 * fmtW r.par.c8))),
    (let d := corr (fun r => { r with closed := 1, staged := 1 }) up.dev
     let r := d.run
     r.active && r.closed != 0 && !d.dispatchHeld && decide (r.dispatched < r.par.passes * r.par.courses) && decide (r.dispatched < r.staged) &&
       !d.beamHolds (r.closed - 1) r.dispatched),
    (let d := corr (fun r => { r with closed := 1 }) up.dev
     !d.dispatchHeld && decide (d.run.dispatched < d.run.par.passes * d.run.par.courses) && decide (d.run.staged ≤ d.run.dispatched) && !d.run.lateNoted),
    (let d := corr (fun r => { r with closed := 1, inSlot := some 0, par := { r.par with c := 2, cLast := 2 } }) up.dev
     d.run.inSlot == some 0 && decide (d.run.slot + 1 < passSlots d.run.par 0) && !(d.run.lastCourse (0 % d.run.par.courses) && d.mortarFull)),
    (let r := (corr (fun r => { r with closed := 1, mortar := [saved0], layout := [(0, [(0, 0, 0)])] }) up.dev).run
     r.relItems[r.relDone]? == some (0, 0) &&
       (r.mortar.find? fun x => x.batch == r.relBatch && x.chunk == r.relChunk && x.pass == r.relPass && x.pos == 0 && x.slot == 0) == some saved0),
    (let x := { saved0 with chunk := 1, batch := 2 }
     let r := (corr (fun r => { r with promq := [x], integs := [{ id := 0, start := 0, stop := 8 }] }) up.dev).run
     r.promq == [x] && (r.integOf x.batch).isSome && x.chunk != 0 && ((r.integOf x.batch).all fun g => x.batch + 1 != g.stop) && !bit x.ctx.item 30 && !bit x.ctx.item 31),
    (let u := { dump0 with stop := 0 }
     let d := (corr (fun r => { r with dumps := [u] }) up.dev).setF AC_CTRL AC_CTRL_EN 1
     let r := d.run
     d.on AC_CTRL AC_CTRL_EN && (r.dumps.find? fun u => !u.started) == some u && !r.acctBad u &&
       ((List.range u.par.nch).map fun ch => r.weightFails u ch).foldl (· + ·) 0 == 0),
    (let u := { dump0 with started := true }
     (corr (fun r => { r with dumps := [u] }) up.dev).run.dumps.find? Dump.finished == some u),
    (let d := up.dev; (d.run.audit.map (·.2)) != some 64 && d.tileRole 64 == 1)]).all id = true := by decide +kernel

/-- A state or value of the witnesses below. -/
def course0 (cut : Bool) : BCourse := { batch := 0, q := 0, ch := 0, cut := cut }

/-- A state or value of the witnesses below. -/
def capPins (d : Dev) : Dev := ((d.setF CAP_CTRL CAP_CTRL_PIN_EN 0xF).setF CAP_CTRL CAP_CTRL_SRC_EN 1).setF CAP_TRIG CAP_TRIG_PIN_TIMEOUT 1

/-- A state or value of the witnesses below. -/
def seg0 : CapSeg := { first := 0, mask := 1 }

/-- A state or value of the witnesses below. -/
def chUp (c : Nat) (d : Dev) : Dev := d.setF (MC_CHSTAT c) MC_CHSTAT_STATE 1

/-- A state or value of the witnesses below. -/
def req0 (age : Nat) : MReq := { port := 1, bank := 0, row := 5, write := false, age := age }

/-- A state or value of the witnesses below. -/
def ignoredEdge (d : Dev) (pin : Nat) (rising : Bool) (hold : Nat) : Bool :=
  rising == bit (d.f CAP_TRIG CAP_TRIG_POL) pin || hold < clampN 1 100000 (d.f CAP_TRIG CAP_TRIG_MPW) * 10 ||
    (d.trigPin pin).1.any fun t => decide (d.now < t + clampN 1 (10 ^ 7) (d.f CAP_TRIG CAP_TRIG_MIN_INT) * 1000)

/-- Hypotheses met, clause by clause: StoreRowsComplete. -/
theorem witness_StoreRowsComplete :
  ([
    up.dev.beamOpen 0, !up.dev.beamOpen 1, up.dev.beamOpen 0 && (up.dev.wrN BM_WSPN 1).rdN BM_WSPN % 256 != 0,
    up.dev.rdN BM_WSPN % 256 == 0 && !up.dev.run.active && !up.dev.on BM_WCTRL BM_WCTRL_OLD_BUSY && !up.dev.on BM_WCTRL BM_WCTRL_READY,
    (let d := up.dev.setF BM_WCTRL BM_WCTRL_READY 1
     d.beamOpen 0 && d.rdN BM_WSPN % 256 == 0 && !d.on BM_WCTRL BM_WCTRL_OLD_BUSY && d.on BM_WCTRL BM_WCTRL_READY),
    ({ up.dev.beam with queue := [course0 false] } : Beam).queue == [course0 false] && up.dev.run.inSlot == none, (course0 true).cut,
    (let d := capPins up.dev
     bit (d.f CAP_CTRL CAP_CTRL_PIN_EN) 3 && bit (d.f CAP_CTRL CAP_CTRL_SRC_EN) 0 && ignoredEdge d 3 true 0 && !ignoredEdge d 3 true 1000000),
    (let d := capPins up.dev; bit (d.f CAP_CTRL CAP_CTRL_PIN_EN) 0 && d.f CAP_TRIG CAP_TRIG_PIN_TIMEOUT != 0 && !(d.trigPin 0).2),
    (let d := { up.dev with cap := { up.dev.cap with segs := [(7, some seg0)] } }.setCap 1
     d.capWriting && tget (fun _ => none) d.cap.segs 7 == some seg0 && !seg0.complete),
    (let d := chUp 0 up.dev
     (chanUnits (unitChan 1)).contains 1 && d.f (MC_CHSTAT (unitChan 1)) MC_CHSTAT_STATE == 1 && d.bestReq (freeReqs [] (slotted 24 16 [])) == none),
    (let d := chUp 71 up.dev
     unitChan 135 == 71 && (chanUnits 71).contains 135 && d.bestReq (freeReqs [] (slotted 128 80 [req0 1])) == some (req0 1)),
    (let d := (chUp 0 up.dev).wrN (MC_QOS 0) (regReset (MC_QOS 0)).toNat
     let b := req0 (d.target 1)
     d.bestReq (freeReqs [] (slotted 24 16 [b])) == some b && d.urgency b != 0 && decide (d.target b.port ≤ b.age)),
    (let d := chUp 0 up.dev
     let b := req0 (d.target 1 - 1)
     d.bestReq (freeReqs [] (slotted 24 16 [b])) == some b && d.urgency b != 0 && decide (b.age < d.target b.port)),
    !up.dev.urgent 135 false, (let d := up.dev.setMunit 0 { queue := [req0 1000000] }; d.urgent 0 false),
    (let d := chUp 5 up.dev; d.f (MC_CHSTAT 5) MC_CHSTAT_STATE == 1 && !((chanUnits 5).any fun u => d.urgent u true)),
    (let d := (chUp 5 up.dev).setMunit 10 { queue := [req0 1000000] }; (chanUnits 5).any fun u => d.urgent u true),
    (let d := up.dev.setMchan 71 { up.dev.mchan 71 with dueAt := some 4 }; (d.mchan 71).dueAt == some 4),
    up.dev.f (MC_CHSTAT 71) MC_CHSTAT_STATE != 3 && up.dev.f (MC_CHSTAT 71) MC_CHSTAT_FAILED_REPLAYS == 0,
    (let d := up.dev.setF (MC_CHSTAT 0) MC_CHSTAT_FAILED_REPLAYS 2; d.f (MC_CHSTAT 0) MC_CHSTAT_STATE != 3 && d.f (MC_CHSTAT 0) MC_CHSTAT_FAILED_REPLAYS + 1 == 3)]).all id = true := by decide +kernel

/-- A state or value of the witnesses below. -/
def sr : Nat := 0x20000000

/-- A state or value of the witnesses below. -/
def dmaRun (n : Nat) (x : DmaCh) (d : Dev) : Dev := ((d.setCh n x).setF (DC_STAT n) DC_STAT_STATE DMA_RUNNING).wrN (DC_CUR n) sr

/-- A state or value of the witnesses below. -/
def withMem (s : State) (a : Nat) (bs : List Nat) : State := { s with mem := s.mem.wr a bs }

/-- A descriptor that copies 64 bytes and is the last. -/
def desc : List Nat := leBytes 8 (sr + 4096) ++ leBytes 8 (sr + 8192) ++ leBytes 4 64 ++ leBytes 4 1 ++ leBytes 8 (2 ^ 48)

/-- A state or value of the witnesses below. -/
def copy64 : DmaCh := { src := sr + 4096, dst := sr + 8192, len := 64, copying := true }

/-- Hypotheses met, clause by clause: MatrixRowsComplete. -/
theorem witness_MatrixRowsComplete :
  ([
    decide (0x1FC0 / 4096 = (0x1FC0 + 64 - 1) / 4096), decide (0x1FC0 / 4096 ≠ (0x1FC0 + 65 - 1) / 4096),
    (let d := up.dev; d.xbTarget 10 sr == 1 && d.xbGrants 1 10 1024 [(1, 1023), (3, 0)] && !d.xbGrants 1 1 1023 [(10, 1024)]),
    (let d := up.dev; d.goesBefore 1 10 1025 1 1024 && !d.goesBefore 1 1 1024 10 1025),
    (let d := up.dev.wrN (XB_PRIO 3) 0x888888F8; d.goesBefore 1 3 0 1 1023 && !d.goesBefore 1 1 1023 3 0 && !d.goesBefore 0 3 0 1 0),
    (let d := { up.dev with xbLast := [(1, some 3)] }; d.goesBefore 1 1 0 3 0 && d.goesBefore 1 5 0 1 0),
    (let d := ((up.dev.setF SC_DBG SC_DBG_LEVEL 0).setF (CR_STAT (up.dev.physOf 0)) CR_STAT_STATE 2)
     d.f SC_DBG SC_DBG_LEVEL == 0 && d.f (CR_STAT (d.physOf 0)) CR_STAT_STATE == 2),
    (let d := up.dev; d.f SC_DBG SC_DBG_LEVEL != 0 || d.f (CR_STAT (d.physOf 0)) CR_STAT_STATE != 2),
    (up.dev.setF (DC_CTRL 15) DC_CTRL_OWNER 2).f (DC_CTRL 15) DC_CTRL_OWNER == 2, up.dev.chState 15 != DMA_RUNNING,
    (dmaRun 15 {} up.dev).chState 15 == DMA_RUNNING && !((dmaRun 15 {} up.dev).ch 15).copying && !((dmaRun 15 {} up.dev).ch 15).endCheck,
    ((up.dev.setCh 0 { endCheck := true }).ch 0).endCheck && !((up.dev.setCh 0 { endCheck := true }).ch 0).heldResume,
    !(up.dev.ch 0).endCheck && up.dev.chState 0 != DMA_AT_END,
    (let s := withMem { up with dev := (dmaRun 0 {} up.dev).setF (DC_STAT 0) DC_STAT_STATE DMA_AT_END } (sr + 24) (leBytes 8 (sr + 64))
     !(s.dev.ch 0).endCheck && s.dev.chState 0 == DMA_AT_END && (match (reread 0 s).1 with | some w => !bit w 48 | none => false)),
    (let d := dmaRun 0 copy64 up.dev; d.chState 0 == DMA_RUNNING && (d.ch 0).copying),
    (let s := { up with dev := (dmaRun 0 {} up.dev).wrN (DC_CUR 0) 0x60000000 }
     (busRead (dmaPort 0) (s.dev.rdN (DC_CUR 0)) 32 s).1.kind != .ok),
    (let s := withMem { up with dev := dmaRun 0 {} up.dev } sr desc
     let r := busRead (dmaPort 0) (s.dev.rdN (DC_CUR 0)) 32 s
     let b := r.1.data
     r.1.kind == .ok && !r.1.poison && at' b 6 2 == 0 && at' b 14 2 == 0 && bits (at' b 20 4) 7 3 == 0 && bits (at' b 20 4) 31 16 == 0 &&
       at' b 30 2 / 2 == 0 && bit (at' b 30 2) 0 && !bit (at' b 20 4) 1 && !bit (at' b 20 4) 2),
    (let s := { up with dev := dmaRun 0 { copy64 with src := 0x60000000 } up.dev }; (dmaCopy 0 64 s).2.1 != 0),
    (let s := { up with dev := dmaRun 0 { copy64 with fin := true } up.dev }
     let c := dmaCopy 0 64 s
     c.2.1 == 0 && (readBack 0 c.1 c.2.2).1),
    (let s := withMem { up with dev := (dmaRun 0 {} up.dev).setCh 0 { endCheck := true } } (sr + 24) (leBytes 8 (2 ^ 48))
     (s.dev.ch 0).endCheck && (match (reread 0 s).1 with | some w => bit w 48 | none => false))]).all id = true := by decide +kernel

/-- A state or value of the witnesses below. -/
def ecRow (k st a : Nat) (d : Dev) : Dev := d.setEc k 31 { d.ecEntry k 31 with state := st, addr := a }

/-- A state or value of the witnesses below. -/
def used (d : Dev) (k e : Nat) : Nat := d.ret.spare.repairs.countP fun r => r.1 == k && spareUnit k r.2 == spareUnit k (d.ecEntry k e).addr

/-- A state or value of the witnesses below. -/
def errE : ErrEntry := { code := 3, sev := 0, inst := 0, seq := 0, timeS := 0, timeNs := 0, addr := 0, info := 0 }

/-- Hypotheses met, clause by clause: IntegrityRowsComplete. -/
theorem witness_IntegrityRowsComplete :
  ([
    (let d := up.dev.setF (EC_CTRL 1) EC_CTRL_SCRUB_EN 1
     d.on (EC_CTRL 1) EC_CTRL_SCRUB_EN && (d.classSize 1).1 != 0 && decide (bits (d.rdN (EC_POS 1)) 47 0 + (d.classSize 1).2 < (d.classSize 1).1)),
    (let d := (up.dev.setF (EC_CTRL 1) EC_CTRL_SCRUB_EN 1).wrN (EC_POS 1) (0x400000 - 4)
     d.on (EC_CTRL 1) EC_CTRL_SCRUB_EN && decide ((d.classSize 1).1 ≤ bits (d.rdN (EC_POS 1)) 47 0 + (d.classSize 1).2)),
    (let d := (ecRow 6 EC_LOGGED 0x200000000000 up.dev).setF (EC_CTRL 6) EC_CTRL_TARGETED 1
     !d.dead (d.ecEntry 6 31).addr && d.on (EC_CTRL 6) EC_CTRL_TARGETED && (d.ecEntry 6 31).state == EC_LOGGED),
    (let d := { up.dev.setF (EC_CTRL 6) EC_CTRL_SCRUB_EN 1 with now := 10 ^ 16 }
     d.on (EC_CTRL 6) EC_CTRL_SCRUB_EN && !bit d.scrub.late 6 &&
       decide (tget (fun _ => 0) d.scrub.start 6 + 2 * clampN 1 604800 (d.f (EC_CTRL 6) EC_CTRL_PERIOD_S) * 10 ^ 9 ≤ d.now)),
    (let d := ecRow 1 EC_HARD 0x20000000 up.dev; (d.ecEntry 1 31).state == EC_HARD && decide (used d 1 31 < spareRows 1)),
    (let d := ecRow 0 EC_HARD 0 up.dev; (d.ecEntry 0 31).state == EC_HARD && decide (spareRows 0 ≤ used d 0 31)),
    (ecRow 5 EC_HARD 0 up.dev |>.ecEntry 5 31).state == EC_HARD,
    ({ up.dev with errq := [errE] } : Dev).errq == [errE] && !up.dev.scrub.taken,
    up.dev.cvOpen 7 0, (let d := up.dev.setF (CV_CFG 7) CV_CFG_OWNER 2; d.cvOpen 7 2 && !d.cvOpen 7 1 && !d.cvOpen 0 2),
    (up.dev.setF (CV_CFG 0) CV_CFG_ALIVE 1).f (CV_CFG 0) CV_CFG_ALIVE == 1,
    (let d := up.dev.setF (CV_CFG 0) CV_CFG_ALIVE 2
     d.f (CV_CFG 0) CV_CFG_ALIVE == 2 && serialDiff (1 % 256) (d.f (CV_ALIVE 0) CV_ALIVE_COUNT) 8 == 1 && decide (1 < serialDiff (2 % 256) (d.f (CV_ALIVE 0) CV_ALIVE_COUNT) 8) &&
       decide (serialDiff (0 % 256) (d.f (CV_ALIVE 0) CV_ALIVE_COUNT) 8 ≤ 0)),
    (let e := fun (x : Bool) => let d := (up.dev.setF (CV_CFG 0) CV_CFG_ALIVE 2).setCv 0 { up.dev.cv 0 with first := x }; (d.cvFeed 0 (.b 1)).setF (CV_ALIVE 0) CV_ALIVE_LAST 1
     ((e true).cv 0).first && !((e false).cv 0).first),
    ((up.dev.setCv 0 { up.dev.cv 0 with queue := [.b 1] }).cv 0).queue == [.b 1]]).all id = true := by decide +kernel

/-- A state or value of the witnesses below. -/
def lineUp (c l lev : Nat) (d : Dev) : Dev := ((d.setF (CR_INT c l) CR_INT_EN 1).setF (CR_INT c l) CR_INT_PEND 1).setF (CR_INT c l) CR_INT_LEVEL lev

/-- A state or value of the witnesses below. -/
def coreGo (c : Nat) (d : Dev) : Dev := d.setCoreState c CORE_RUN

/-- Hypotheses met, clause by clause: CoreRowsComplete. -/
theorem witness_CoreRowsComplete :
  ([
    (let d := coreGo 1 (lineUp 1 47 1 up.dev); d.bestLine 1 == some (47, 1) && d.canTake 1 && !d.coreCs 1 && decide (d.ipl 1 < 2)),
    (let d := coreGo 3 (lineUp 3 0 0 up.dev); d.bestLine 3 == some (0, 2) && d.canTake 3 && d.ipl 3 == 0),
    (let d := (coreGo 1 up.dev).wrN (QD_BP 1 2) (2 ^ 31); d.coreReady 1 && !(d.core 1).skipBp && d.breakAt 1 (d.core 1).ctx.pc && (d.core 1).ctx.boundary),
    ((up.dev.setCore 1 { up.dev.core 1 with werr := 1 }).core 1).werr != 0,
    (let d := { (coreGo 1 up.dev).setF (CR_CTRL 1) CR_CTRL_WDOG_EN 1 with now := 10 ^ 15 }
     d.on (CR_CTRL 1) CR_CTRL_WDOG_EN && (d.core 1).qhalt == 0 && d.coreState 1 == CORE_RUN && decide ((d.core 1).wdogAt + d.wdogMs 1 * 10 ^ 6 ≤ d.now) && d.logicalOf 1 != 0),
    (let d := { (coreGo 0 up.dev).setF (CR_CTRL 0) CR_CTRL_WDOG_EN 1 with now := 10 ^ 15 }
     d.on (CR_CTRL 0) CR_CTRL_WDOG_EN && (d.core 0).qhalt == 0 && d.coreState 0 == CORE_RUN && decide ((d.core 0).wdogAt + d.wdogMs 0 * 10 ^ 6 ≤ d.now) && d.logicalOf 0 == 0),
    (let d := up.dev.wrN (CR_TCMP 2) (2 ^ 63 + up.dev.crTimer 2); bit (d.rdN (CR_TCMP 2)) 63 && d.rdN (CR_TCMP 2) % 2 ^ 48 == d.crTimer 2),
    ([0, 1, 2, 3].all fun c => (regRow (CR_CTRL c)).isSome && (regRow (CR_WDOG c)).isSome && (regRow (CR_INT c 40)).isSome && (regRow (CR_INT c 47)).isSome),
    up.dev.coreState (up.dev.physOf 3) != CORE_RUN && up.dev.coreState (up.dev.physOf 3) != CORE_RETIRED]).all id = true := by decide +kernel

/-- Core 1 runs at address 0 of its program memory, which holds the given words; its local memories are empty. -/
def code (ws : List Nat) (f : Dev → Dev := id) : State :=
  let d := f ((up.dev.setCoreState 1 CORE_RUN))
  { State.reset with dev := d, mem := ({} : Mem).wr 0x51000000 (ws.flatMap fun w => leBytes 3 w ++ [0]) }

/-- What its next instruction acts on. -/
def codeS1 (s : State) : State := (fetchR 1 s).2.2.setCore 1 { (fetchR 1 s).2.2.core 1 with acc := [], skipBp := false }

/-- The instruction is the next one, and more holds of what it acts on. -/
def nx (i : RIns) (ws : List Nat) (f : Dev → Dev := id) (p : State → Bool := fun _ => true) : Bool :=
  let s := code ws f
  s.dev.coreReady 1 && (fetchR 1 s).1 == i && (fetchR 1 s).2.1.isNone && (s.breakCheck 1).isNone && p (codeS1 s)

/-- A state or value of the witnesses below. -/
def okR' {α : Type} (x : RM α) : Bool := match x with | .ok _ => true | .error _ => false

/-- A state or value of the witnesses below. -/
def loops (n : Nat) (d : Dev) : Dev := d.setCore 1 { d.core 1 with ctx := { (d.core 1).ctx with loops := List.replicate n (8, 9, 1) } }

/-- Hypotheses met, clause by clause: RhaexControlComplete. -/
theorem witness_RhaexControlComplete :
  ([
    nx .nop [0], nx .rts [0x001000] id (fun s => okR' (dataRead 1 false (s.rv 1 (tD (s.core 1)) (RC_P0 + 7)) s)), nx .rti1 [0x002000], nx .rti2 [0x003000],
    nx .rtt [0x004000], nx .enddo [0x005000], nx .sync [0x006000] id (fun s => (s.core 1).werr == 0), nx .wait [0x007000], nx .trap [0x008000],
    nx .illegal [0x009000], nx .illegal [0xDC0000], nx (.bra (-1)) [0x103FFF],
    nx (.bsr 5) [0x140005] id (fun s => okR' (callTo 1 1 (s.dispTo 1 5) (s.rw 1 (tD (s.core 1)) (RC_P0 + 7) 100))),
    nx (.bcc 14 3) [0x1B8003], nx (.jmp false 0x3FFFF) [0x700000, 0x03FFFF], nx (.jmp true 7) [0x700001, 7],
    nx (.bccLong 1 9) [0x704001, 9], nx (.doLoop false 3 4) [0x200C04] id (fun s => decide ((s.core 1).ctx.loops.length < 4) && s.count 1 false 3 != 0),
    nx (.doLoop false 0 4) [0x200004] id (fun s => s.count 1 false 0 == 0 && !s.dev.coreCs 1),
    nx (.doLoop true 2 4) [0x248004] (loops 4) (fun s => decide (4 ≤ (s.core 1).ctx.loops.length)),
    nx (.doLong 4 70000) [0x708004, 70000], nx (.rep false 255) [0x2BFC00], nx (.repLong 5) [0x70C000, 5]]).all id = true := by decide +kernel

/-- A state or value of the witnesses below. -/
def p7 (d : Dev) : Dev := d.setCore 1 { d.core 1 with regs := [(RC_P0 + 7, 100)] }

/-- Hypotheses met, clause by clause: RhaexMovesComplete. -/
theorem witness_RhaexMovesComplete :
  ([
    nx (.bsr 5) [0x140005] p7 (fun s => okR' (callTo 1 1 (s.dispTo 1 5) s)), nx (.jmp true 7) [0x700001, 7] p7 (fun s => okR' (callTo 1 2 7 s)),
    nx (.movei 0 0xFF8000) [0x308000], nx (.moveiLong 0x38 0xFFFFFF) [0x713800, 0xFFFFFF], nx (.mover 0x3F 0x10) [0x4FD000],
    nx (.movem false false 0 0 1) [0x500080] p7 (fun s => okR' (dataRead 1 false (agu 1 0 1 1 s).1 (agu 1 0 1 1 s).2)),
    nx (.movem true true 8 7 1) [0x5C8E80] p7 (fun s => okR' (dataWrite 1 true (agu 1 7 1 1 s).1 5 (agu 1 7 1 1 s).2)),
    nx (.movex true false 0 7) [0x722038, 0] p7 (fun s => okR' (dataRead 1 true ((s.rv 1 (tD (s.core 1)) (RC_P0 + 7) + s.rv 1 (tD (s.core 1)) (RC_N0 + 7)) % 2 ^ 24) s)),
    nx (.movex false true 0 7) [0x721038, 0] p7 (fun s => okR' (dataWrite 1 false ((s.rv 1 (tD (s.core 1)) (RC_P0 + 7) + s.rv 1 (tD (s.core 1)) (RC_N0 + 7)) % 2 ^ 24) 5 s)),
    nx (.movel false true 3 7 0) [0x715F80, 0] p7 (fun s => let a := agu 1 7 0 2 s
      let a2 := (a.1 + 1) % 2 ^ 24
      let r := limited (a.2.accU 1 (tR (a.2.core 1)) 3) (a.2.rv 1 (tE1 (a.2.core 1)) SR_SM == 1) 48
      let s2 := a.2.noteLimit 1 r.2
      s2.reachable 1 false a2 && (match dataWrite 1 false a.1 (r.1 / 2 ^ 24) s2 with | .ok ((), t) => okR' (dataWrite 1 false a2 (r.1 % 2 ^ 24) t) | .error _ => false)),
    nx (.movel true false 0 7 0) [0x716380, 0] p7 (fun s => let a := agu 1 7 0 2 s
      match dataRead 1 true a.1 a.2 with | .ok (_, t) => okR' (dataRead 1 true ((a.1 + 1) % 2 ^ 24) t) | .error _ => false),
    nx (.logic 0 0 1) [0x600020], nx (.logic 1 0 1) [0x620020], nx (.logic 2 0 1) [0x640020],
    nx (.bitOp 3 0 23) [0x6605C0], nx (.bitOp 4 0 23) [0x6805C0], nx (.bitOp 5 0 23) [0x6A05C0], nx (.addi 0x18 (-1)) [0x6CC7FF]]).all id = true := by decide +kernel

/-- Hypotheses met, clause by clause: RhaexParallelComplete. -/
theorem witness_RhaexParallelComplete :
  ((List.range 23).map (fun op =>
      nx (.par op 3 2 0 0) [0x800000 + op * 2 ^ 18 + 3 * 2 ^ 16 + 2 * 2 ^ 14] id (fun s => okR' (parMoves 1 0 0 s))) ++ [
    nx (.par 1 0 0 0 0) [0x840000] id (fun s => decide (0 ≤ s.accNow 1 0)),
    nx (.par 0x10 0 0 0 0) [0xC00000] (fun d => d.setCore 1 { d.core 1 with regs := [(RC_AH, 0x800000), (RC_AG, 0xFF)] }) (fun s => decide (s.accNow 1 0 < 0)),
    nx (.normf 0 4) [0x718100, 0], nx (.macx 1 2 3 0) [0x71DB00, 0], nx (.macx 1 2 3 1) [0x71DB40, 0], nx (.macx 3 3 3 2) [0x71FF80, 0]]).all id = true := by decide +kernel

/-- A state or value of the witnesses below. -/
def portUp (m : Nat) (d : Dev) : Dev :=
  let e := ((d.setF (EM_CTRL m) EM_CTRL_MODE 1).setF (EM_CTRL m) EM_CTRL_MAX_FRAME 1518).setF (EM_CTRL m) EM_CTRL_UNTAGGED 1
  (e.setF (EM_STAT m) EM_STAT_LINK 1).setPort m { e.port m with mac := 0x112233445566 }

/-- A state or value of the witnesses below. -/
def frameTo (type len : Nat) : List Nat := leBytes 6 0x112233445566 ++ List.replicate 6 2 ++ beBytes 2 type ++ List.replicate (len - 14) 0

/-- A state or value of the witnesses below. -/
def res0 (fails : Nat) : Res := { port := 3, v6 := false, ip := 5, resolved := true, fails := fails }

/-- A state or value of the witnesses below. -/
def txStream (cls : Nat) (d : Dev) : Dev :=
  { d with net := { d.net with streams := [(0, some { words := [cls * 2 ^ 21, 0, 0, 9578, 0, 0x010000E0], tokens := 10 ^ 9 })],
                               queue := [{ stream := 0, seq := 1, body := [1, 2, 3], at' := 0 }] } }

/-- Hypotheses met, clause by clause: NetworkRowsComplete. -/
theorem witness_NetworkRowsComplete :
  ([
    (let d := portUp 19 up.dev
     let bs := frameTo 0x0800 60
     d.macMode 19 != 0 && d.on (EM_STAT 19) EM_STAT_LINK && beAt bs 12 2 == 0x0800 && decide (60 ≤ bs.length) && decide (bs.length + 4 ≤ d.f (EM_CTRL 19) EM_CTRL_MAX_FRAME) &&
       d.on (EM_CTRL 19) EM_CTRL_UNTAGGED && d.acceptsDst 19 (at' bs 0 6) 0x0800),
    (let bs := frameTo 0x8808 14 ++ [1, 1, 0, 0]; beAt bs 12 2 == 0x8808 && beAt (bs.drop 14) 0 2 == 0x0101),
    (let bs := frameTo 0x8808 14 ++ [0, 1, 0, 0]; beAt bs 12 2 == 0x8808 && beAt (bs.drop 14) 0 2 == 1), decide ((frameTo 0x0800 59).length < 60),
    !up.dev.stormed 19 7, bit ((up.dev.setF (EM_STAT 0) EM_STAT_PAUSED 128).f (EM_STAT 0) EM_STAT_PAUSED) 7,
    (up.dev.setF (EM_STAT 0) EM_STAT_STORM 128).stormed 0 7,
    (let d := (portUp 0 up.dev).setF (EM_CTRL 0) EM_CTRL_PFC_TX_EN 1
     let e := d.setPort 0 { d.port 0 with pfcSent := true }
     e.on (EM_CTRL 0) EM_CTRL_PFC_TX_EN && (e.port 0).pfcSent),
    (let d := txStream 1 (portUp 0 up.dev)
     d.portSends 0 && (([2, 3, 4, 5, 6].findSome? fun pri => (d.candidates 0 pri).head?.map fun x => (pri, x))).isSome),
    (let d := { up.dev with net := { up.dev.net with cache := [res0 3] } }
     d.res 3 false 5 == some (res0 3) && !(res0 3).static && (res0 3).resolved && decide (3 ≤ (res0 3).fails)),
    (let d := { up.dev with net := { up.dev.net with cache := [res0 2] } }
     d.res 3 false 5 == some (res0 2) && decide ((res0 2).fails < 3)),
    (let d := txStream 5 up.dev; d.streamIs 0 5 && ((d.waiting 0).find? fun p => !p.gap).isSome)]).all id = true := by decide +kernel

/-- A state or value of the witnesses below. -/
def ptpP (m st : Nat) (d : Dev) : Dev := d.setPort m { d.port m with ptp := st }

/-- A state or value of the witnesses below. -/
def valid (d : Dev) : Dev := d.setF TSU_CTRL TSU_CTRL_VALID 1

/-- Hypotheses met, clause by clause: TimeRowsComplete. -/
theorem witness_TimeRowsComplete :
  ([
    (ptpP 19 2 up.dev |>.port 19).ptp == 2 && !(ptpP 19 2 up.dev).ptpP2p 19, (ptpP 19 3 up.dev |>.port 19).ptp == 3,
    (let d := { up.dev with net := { up.dev.net with ptpCfg := [1, 1] } }; d.ptpOn 0 && d.ptpSlave == none),
    (let d := (ptpP 0 2 { up.dev with net := { up.dev.net with ptpCfg := [1, 1] } }).setF (TIM_REF REF_PTP) TIM_REF_EN 1
     let d1 := (d.setPort 0 { d.port 0 with master := none, hist := [] }).ptpDecide
     d.ptpOn 0 && d.ptpSlave.isSome && d1.ptpSlave == none && d1.refOn REF_PTP),
    (let d := (ptpP 0 2 up.dev).setF TSU_CTRL TSU_CTRL_SRC 1; d.f TSU_CTRL TSU_CTRL_SRC == 1 && (d.port 0).ptp == 2 && (d.port 0).hist.length != 8),
    decide (2 ≤ (up.dev.setF TSU_CTRL TSU_CTRL_SRC 2).f TSU_CTRL TSU_CTRL_SRC),
    (let d := { valid (up.dev.setPulse 7 (0, some 100, false)) with tod := 100 }
     !(d.pulse 7).2.2 && (d.pulse 7).2.1 == some 100 && d.on TSU_CTRL TSU_CTRL_VALID && decide (100 ≤ d.tod)),
    (let d := { (up.dev.setPulse 7 (1, some (10 ^ 9 * 2 ^ 40), true)) with tod := 10 ^ 9 * 2 ^ 40 * 2 }
     (d.pulse 7).2.2 && (d.pulse 7).2.1 == some (10 ^ 9 * 2 ^ 40) && decide (10 ^ 9 * 2 ^ 40 - d.pulsePeriod 7 * 2 ^ 40 + d.pulseWidth 7 ≤ d.tod))]).all id = true := by decide +kernel

/-- A state or value of the witnesses below. -/
def refUp (r : Nat) (d : Dev) : Dev := d.setF (TIM_REF r) TIM_REF_EN 1

/-- A state or value of the witnesses below. -/
def soft (d : Dev) (r : Nat) : Nat := max 1 (d.f (TIM_REFTH r) TIM_REFTH_SOFT)

/-- A state or value of the witnesses below. -/
def hard (d : Dev) (r : Nat) : Nat := max (soft d r) (d.f (TIM_REFTH r) TIM_REFTH_HARD)

/-- A state or value of the witnesses below. -/
def ppsNo (d : Dev) (rising : Bool) (ns : Nat) : Bool :=
  rising == d.on (TIM_REF (4 + 1)) TIM_REF_POL || decide (ns < d.tim.ppsMpw) || (tget (fun _ => none) d.tim.ppsAt 1).any fun t => decide (d.now < t + 5 * 10 ^ 8)

/-- Hypotheses met, clause by clause: TimingRowsComplete. -/
theorem witness_TimingRowsComplete :
  ([
    (refUp 7 up.dev).refOn 7, REF_PTP != 0 && (refUp 0 up.dev).refOn 0, ppsNo up.dev false 2000, !ppsNo up.dev true 2000,
    decide (soft up.dev 0 < hard up.dev 0),
    ((refUp 2 up.dev).setF (TIM_REFSTAT 2) TIM_REFSTAT_QSTATE 2).qstate 2 == 2, ((refUp 2 up.dev).setF (TIM_REFSTAT 2) TIM_REFSTAT_QSTATE 3).qstate 2 == 3] ++
    ([TS_SWITCH, TS_ACQUIRE, TS_NARROW, TS_LOCKED, TS_HOLDOVER, TS_HOLDOVER_POOR].map fun st => (up.dev.setTim st).timSt == st && st != TS_XO_FAULT) ++ [
    ((up.dev.setTim TS_SWITCH).setF TIM_STAT TIM_STAT_SEL 0).timSel == 0,
    decide (((up.dev.setTim TS_NARROW).f TIM_STAT TIM_STAT_BW_STEP) < 2),
    decide (2 ≤ ((up.dev.setTim TS_NARROW).setF TIM_STAT TIM_STAT_BW_STEP 2).f TIM_STAT TIM_STAT_BW_STEP),
    (let d := { (up.dev.setTim TS_HOLDOVER).setF TIM_HO TIM_HO_HO_LIM 1 with tim := { up.dev.tim with hoSecs := 4000 } }
     d.timSt == TS_HOLDOVER && d.f TIM_HO TIM_HO_HO_LIM != 0 && decide (d.f TIM_HO TIM_HO_HO_LIM * 3600 < d.tim.hoSecs) && !d.tim.hoNoted),
    (let d := { ((up.dev.setTim TS_LOCKED).setF TIM_STAT TIM_STAT_SEL 1).setF (TIM_REFSTAT 1) TIM_REFSTAT_QSTATE 1 with tim := { up.dev.tim with lockSecs := 60 } }
     d.timSt == TS_LOCKED && d.qualified d.timSel && decide (60 ≤ d.tim.lockSecs)),
    (let x : HistRec := { t := 0, off := 0, temp := 0 }
     let d : Int → Dev := fun sum => { up.dev with tim := { up.dev.tim with lockSecs := 60, lockSum := sum }, ret := { up.dev.ret with hist := { up.dev.ret.hist with modelValid := true, days := [x] } } }
     let lim := clampN 1 10000 (up.dev.f TIM_HO TIM_HO_XO_JUMP) * 10 ^ 7
     let diff := fun (sum : Int) => (roundDiv (d sum).tim.lockSum 60 - (d sum).predict x.off x.t).natAbs
     decide (60 ≤ (d 0).tim.lockSecs) && !(d 0).tim.xoChecked && (d 0).ret.hist.modelValid && (d 0).ret.hist.days.getLast? == some x && decide (diff 0 ≤ lim) && decide (lim < diff (10 ^ 20))),
    (up.dev.setF TIM_STAT TIM_STAT_TEMP_EXT 1).on TIM_STAT TIM_STAT_TEMP_EXT, { up.dev.tim with xoExt := true }.xoExt, up.dev.timSt != TS_SWITCH,
    (let d := (up.dev.setF (TIM_SYSREF 3) TIM_SYSREF_SPER 16).setF (TIM_SYSREF 3) TIM_SYSREF_MODE 1
     d.f (TIM_SYSREF 3) TIM_SYSREF_SPER != 0 && d.sngCount (d.f (TIM_SYSREF 3) TIM_SYSREF_SNG) % d.f (TIM_SYSREF 3) TIM_SYSREF_SPER == 0 && d.f (TIM_SYSREF 3) TIM_SYSREF_MODE == 1),
    (let d := { (up.dev.setF (TIM_SYSREF 3) TIM_SYSREF_SPER 16).setF (TIM_SYSREF 3) TIM_SYSREF_MODE 2 with tim := { up.dev.tim with gap := [(3, some (0, 2))] } }
     d.f (TIM_SYSREF 3) TIM_SYSREF_MODE == 2 && tget (fun _ => none) d.tim.gap 3 == some (0, 0 + 2) && decide (0 ≤ d.sngCount (d.f (TIM_SYSREF 3) TIM_SYSREF_SNG)))]).all id = true := by decide +kernel

/-- A state or value of the witnesses below. -/
def twinD (d : Dev) : Dev := d.setF LS_CTRL LS_CTRL_ROLE 1

/-- A state or value of the witnesses below. -/
def arbD (d : Dev) : Dev := d.setF LS_CTRL LS_CTRL_ROLE 2

/-- A good lease word of a type with no body, to node 0. -/
def lsWord (type : Nat) : List Nat :=
  let b := leBytes 2 0xA7B5 ++ [type] ++ List.replicate 25 0
  b ++ leBytes 4 (crc32c b)

/-- A state or value of the witnesses below. -/
def withT (g : Twin → Twin) (d : Dev) : Dev := { d with twin := g d.twin }

/-- A state or value of the witnesses below. -/
def rep0 : Report := { alive := 0, fw := 2, lease := 1, errSum := 0, gen := 5, ue := 0, cfg := 0, dumpId := 0, digest := 0, skipped := 0, subst := 0, audit := 0 }

/-- Hypotheses met, clause by clause: HeatRowsComplete. -/
theorem witness_HeatRowsComplete :
  ([
    up.dev.therm.shut.isNone && up.dev.fwState != FW_SHUTDOWN,
    (let d3 := (((List.range 56).filter fun k => (up.dev.takeReadings [] []).elementBad k []).foldl (fun (e : Dev) k => e.elementFails k) (up.dev.takeReadings [] [])).takeOffsets.takeEst
     d3.on TH_CTRL TH_CTRL_EN && d3.warnings.shutTest.throttle.f TH_CTRL TH_CTRL_DUTY == 0),
    ({ up.dev.therm with prim := [55] } : Therm).prim.contains 55,
    (let d := { up.dev with therm := { up.dev.therm with shut := some (1, 2, 3) } }; d.therm.shut == some (1, 2, 3) && d.fwState != FW_SHUTDOWN),
    ((up.dev.setF DEVSTAT DEVSTAT_FW_STATE FW_SHUTDOWN).fwState == FW_SHUTDOWN),
    (let d := (up.dev.setF AV_CTRL AV_CTRL_EN 1).setF AV_CTRL AV_CTRL_VSET_MV 800
     let ms : List Int := [-100]
     let act := (List.range 79).filter d.unitActive
     d.on AV_CTRL AV_CTRL_EN && d.serving &&
       decide ((act.map fun u => ms.getD u 0).foldl min (ms.getD 68 0) < (clampN 50 1000 (d.f AV_CTRL AV_CTRL_M_TARGET) : Int)) &&
       decide (d.f AV_CTRL AV_CTRL_VSET_MV < 850) && d.therm.upAt.isNone)]).all id = true := by decide +kernel

/-- Hypotheses met, clause by clause: HeatRowsComplete_duty. -/
theorem witness_HeatRowsComplete_duty :
  ([
    (let d := (up.dev.setF TH_CTRL TH_CTRL_EN 0)
     let d3 := (((List.range 56).filter fun k => (d.takeReadings [] []).elementBad k []).foldl (fun (e : Dev) k => e.elementFails k) (d.takeReadings [] [])).takeOffsets.takeEst
     !d3.on TH_CTRL TH_CTRL_EN),
    (let d := (up.dev.setF TH_CTRL TH_CTRL_DUTY 3)
     let d3 := (((List.range 56).filter fun k => (d.takeReadings [] []).elementBad k []).foldl (fun (e : Dev) k => e.elementFails k) (d.takeReadings [] [])).takeOffsets.takeEst
     d3.on TH_CTRL TH_CTRL_EN && decide (0 < d3.warnings.shutTest.throttle.f TH_CTRL TH_CTRL_DUTY))]).all id = true := by decide +kernel

/-- Hypotheses met, clause by clause: LeaseRowsComplete. -/
theorem witness_LeaseRowsComplete :
  ([
    (twinD up.dev).isTwin && (twinD up.dev).leaseBad [0], !(twinD up.dev).leaseBad (lsWord 2) && at' (lsWord 2) 2 1 == 2,
    !(twinD up.dev).leaseBad (lsWord 3) && at' (lsWord 3) 4 1 == (twinD up.dev).f LS_CTRL LS_CTRL_NODE,
    !(twinD up.dev).leaseBad (lsWord 1) && !((twinD up.dev).twin.syncAt.any fun t => decide ((twinD up.dev).now < t + 900000)),
    ((withT (fun t => { t with syncAt := some 0 }) (twinD up.dev)).twin.syncAt.any fun t => decide (up.dev.now < t + 900000)),
    !(arbD up.dev).leaseBad (lsWord 4) && (arbD up.dev).isArb && !(twinD up.dev).leaseBad (lsWord 4) && !(twinD up.dev).isArb,
    (let d := withT (fun t => { t with holder := true }) (twinD up.dev); d.isTwin && d.twin.holder && decide (d.twin.leaseEnd ≤ d.now)),
    (let d := { twinD up.dev with now := 5000000 }; d.isTwin && !d.twin.noArb && decide (d.twin.syncAt.getD 0 + 5000000 ≤ d.now)),
    (twinD up.dev).syncLease.isTwin, (arbD up.dev).isArb,
    (let d := withT (fun t => { t with hold := some 1, last := [(1, some rep0)] }) (arbD up.dev)
     !d.twin.waiting && d.twin.hold == some 1 && d.mayRenew 1),
    (let d := withT (fun t => { t with hold := some 0, last := [(1, some rep0)] }) (arbD up.dev)
     !d.twin.waiting && d.twin.hold == some 0 && !d.mayRenew 0 && !d.twin.cfgBad && d.mayGrant (1 - 0) && d.grantSafe 0),
    bit (withT (fun t => { t with got := 2 }) (arbD up.dev)).twin.got 1, !bit (arbD up.dev).twin.got 1 && decide (tget (fun _ => 0) (arbD up.dev).twin.miss 1 + 1 < 3),
    decide (3 ≤ tget (fun _ => 0) (withT (fun t => { t with miss := [(0, 2)] }) (arbD up.dev)).twin.miss 0 + 1),
    (let d := { withT (fun t => { t with waiting := true }) (arbD up.dev) with now := 10 ^ 9 }
     d.isArb && d.twin.waiting && decide (d.twin.startAt + 30000000 + d.twin.g * 1000 ≤ d.now))]).all id = true := by decide +kernel

/-- A state or value of the witnesses below. -/
def fwAt (st : Nat) : State := { State.reset with dev := State.reset.dev.setF DEVSTAT DEVSTAT_FW_STATE st }

/-- A state or value of the witnesses below. -/
def req1 : CommitReq := { why := .user, job := none, checked := true }

/-- A state or value of the witnesses below. -/
def reqD (d : Dev) : Dev := { d with pwr := { d.pwr with reqs := [req1] } }

/-- Hypotheses met, clause by clause: PowerRowsComplete. -/
theorem witness_PowerRowsComplete :
  ([
    up.dev.pwr.auxOn && !up.dev.on SC_WDOG SC_WDOG_HOLD,
    (let d := { up.dev with now := 10 ^ 9, pwr := { up.dev.pwr with wdogDue := some 0 } }; d.pwr.wdogDue == some 0 && decide (0 + 100000000 ≤ d.now) && !d.on SC_WDOG SC_WDOG_HOLD),
    { up.dev.host with sysReset := true }.sysReset,
    (let d := { up.dev with pwr := { up.dev.pwr with inReset := true } }; d.pwr.inReset && d.pwr.auxOn && !holdsReset d.tap.ir),
    (let s := fwAt FW_BOOT
     let f := s.flash
     let s1 := { s with flash := f.select, dev := { s.dev with ret := f.select.image } }
     !s.dev.pwr.inReset && s.dev.pwr.auxOn && s.dev.fwState == FW_BOOT && f.engine == .idle && (match bootCore true s1 with | some s2 => !(s2.dev.romId).tap.testEn | none => false)),
    (fwAt FW_RESTORE).dev.fwState == FW_RESTORE && !(fwAt FW_RESTORE).dev.pwr.inReset && !(fwAt FW_RESTORE).dev.fwStuck,
    (fwAt FW_TRAIN).dev.fwState == FW_TRAIN && !(fwAt FW_TRAIN).dev.pwr.inReset && !(fwAt FW_TRAIN).dev.fwStuck,
    (let s := { up with dev := reqD up.dev, flash := { up.flash with slot1 := .bad } }
     s.dev.pwr.reqs != [] && s.dev.canCommit && s.flash.engine == .idle && decide (s.dev.recentCommits.length < 12) && !s.flash.clean),
    (let s := { up with dev := reqD up.dev }; s.flash.clean && (s.dev.commitCheck 0 0).1),
    (let d := { up.dev with pwr := { up.dev.pwr with reqs := [{ req1 with checked := false }] } }; !(d.commitCheck 0 0).1),
    ({ up.flash with engine := .programming } : Flash).engine == .programming, ({ reqD up.dev with pwr := { up.dev.pwr with running := [req1] } } : Dev).pwr.running != [],
    ({ up.flash with engine := .erasing, selValid := true } : Flash).engine == .erasing && !up.flash.selValid,
    (let d := { up.dev with now := 10 ^ 13, pwr := { up.dev.pwr with histLow := some 0 } }; d.pwr.histLow == some 0 && decide (0 + 3600 * 10 ^ 9 ≤ d.now) && d.serving)]).all id = true := by decide +kernel

/-- A state or value of the witnesses below. -/
def tapD (ir : Nat) (d : Dev) : Dev := { d with tap := { d.tap with ir := ir } }

/-- Hypotheses met, clause by clause: DebugRowsComplete. -/
theorem witness_DebugRowsComplete :
  ([
    up.dev.tapCode (2 % 256) true == 2, up.dev.tapCode (0x10 % 256) true != 2 && !holdsReset (up.dev.tapCode (0x10 % 256) true),
    up.dev.tapCode (0x03 % 256) true == 3 && holdsReset 3, (tapD 0x10 up.dev).qdpOpen,
    (let d := (tapD 0x10 up.dev).setCoreState 0 CORE_RUN; d.qdpOpen && d.coreState d.qdpCore == CORE_RUN && (d.core d.qdpCore).ctx.boundary),
    (let d := (tapD 0x10 up.dev).setCoreState 0 CORE_RUN
     let e := d.setCore 0 { d.core 0 with ctx := { (d.core 0).ctx with rep := some 3 } }
     e.qdpOpen && !(e.core e.qdpCore).ctx.boundary),
    (let d := ((tapD 0x10 up.dev).setCore 0 { up.dev.core 0 with qhalt := 1 }).setCoreState 0 CORE_HALTED
     (d.core d.qdpCore).qhalt != 0 && d.coreState d.qdpCore == CORE_HALTED),
    ({ (tapD 0x10 up.dev).tap with late := some (1, 2) } : Tap).late == some (1, 2), (tapD 0x10 up.dev).tap.late == none]).all id = true := by decide +kernel

/-- A state or value of the witnesses below. -/
def isNext (x : Host.Outcome State Fault Refusal) : Bool := match x with | .next _ => true | _ => false

/-- A state or value of the witnesses below. -/
def isRef (x : Host.Outcome State Fault Refusal) : Bool := match x with | .refused _ => true | _ => false

/-- A state or value of the witnesses below. -/
def withQ (c : Instr) : State := { State.reset with pending := [c] }

/-- The flash with generation 1 in slot 0, which is selected, and something in slot 1. -/
def flashOn (e : Engine) (other : RSlot) : Flash :=
  { State.reset.flash with slot0 := .ok 1 0 {}, slot1 := other, sel := false, selValid := true, engine := e, bufGen := 2 }

/-- A state or value of the witnesses below. -/
def cvSet (d : Dev) : Dev :=
  let e := ((d.setF (CV_CFG 0) CV_CFG_WIDTH 32).setF (CV_CFG 0) CV_CFG_REFIN 1).setF (CV_CFG 0) CV_CFG_REFOUT 1
  ((e.wrN (CV_POLY 0) 0x1EDC6F41).wrN (CV_INIT 0) 0xFFFFFFFF).wrN (CV_XOROUT 0) 0xFFFFFFFF

/-- A state or value of the witnesses below. -/
def irq (d : Dev) : Dev := { d.wrN INT_EN 0x80 with host := { d.host with msixEn := true, msixMask := 0, linkUp := true, d3hot := false } }

/-- Hypotheses met, clause by clause: General statements. -/
theorem witness_general :
  ([
    State.reset.pending == [] && (withQ .heartbeatTick).pending == [.heartbeatTick] && isNext (step (withQ .heartbeatTick)),
    State.reset.mem.wf, ({ withQ .heartbeatTick with flash := flashOn .idle .blank } : State).flash.selValid,
    (flashOn .idle .blank).slot false == .ok 1 0 {} && (flashOn .idle .blank).genOk, (flashOn .idle (.ok 0 0 {})).genOk,
    (flashOn .programming .blank).engine == .programming && (flashOn .programming .blank).genOk,
    (flashOn .erasing (.ok 0 0 {})).engine == .erasing && (flashOn .erasing (.ok 0 0 {})).genOk,
    (let d := State.reset.dev.setF DEVSTAT DEVSTAT_FW_STATE FW_RESTORE; d.fwState == FW_RESTORE && !d.pwr.inReset && !d.fwStuck),
    isNext (exec .heartbeatTick State.reset) && deviceOnly .heartbeatTick && !flashWork .heartbeatTick, isNext (exec (.jobDone 0 []) State.reset),
    isRef (exec (.spiFrame [] 0) { State.reset with dev := compatD State.reset.dev }),
    (State.reset.dev.route 0x20000000).1 == .sram && (memWrite State.reset.dev {} 0x30000000 [1] false).1 == false,
    granule 0x20000000 == 4 && (granulesOf 0x20000002 4).contains 0x20000000 && granule (0x20000002 + 4 - 1) == granule 0x20000002 && !(granulesOf 0x20000002 4).contains 0x20000008,
    serialDiff 0 (2 ^ 15) 16 == -(2 ^ 15) && later 1 0 16, serialDiff (2 ^ 48 - 1) 0 48 == -1,
    decide (up.dev.errq.length < 16) && !up.dev.on ER_STAT ER_STAT_FIRST_VALID && (up.dev.setF ER_STAT ER_STAT_FIRST_VALID 1).on ER_STAT ER_STAT_FIRST_VALID,
    decide (16 ≤ ({ up.dev with errq := List.replicate 16 errE } : Dev).errq.length),
    !bit (up.dev.rdN INT_EN) 7, (let d := irq up.dev; bit (d.rdN INT_EN) 7 && d.host.msixEn && !(d.host.d3hot || !d.host.linkUp || bit d.host.spacing 7) && !bit d.host.msixMask 7),
    bit ({ (irq up.dev).host with msixMask := 128 } : HostIf).msixMask 7, ({ (irq up.dev).host with d3hot := true } : HostIf).d3hot,
    (let c := up.dev.readCmd SMB_SLOT 0 0; c.slot == SMB_SLOT && !smbOpcodes.contains roleSetDef.op),
    runStartDef.mode == 1 && (compatD up.dev).compat, persLogDef.mode == 2 && !up.dev.compat,
    (let s := mb pingDef.op [] (fun d => d.wrN (MB_WORD 0) 0); let c := s.dev.readCmd 0 0 0
     c.rsv == 0 && !rsvSet c (pingDef.masks c) && !c.rdest && served FW_SHUTDOWN roleSetDef.op != some true && served FW_READY pingDef.op == some true),
    (let s := mb sysResetDef.op [1]; let c := s.dev.readCmd 0 0 0; sysResetDef.bad c s),
    (State.reset.dev.setF DEVSTAT DEVSTAT_FW_STATE FW_BOOT).mailServed == false,
    (let s := mb 0x0999 []; s.dev.host.fwq.head? == some 0 && s.dev.mailServed && !listedOp (s.dev.readCmd 0 0 0).op),
    (let c := (mb pingDef.op []).dev.readCmd 0 0 0; decide (c.slot < 32) && !c.rdest),
    (let c := (mb (pingDef.op + 65536) []).dev.readCmd 0 0 0; c.noIrq),
    (up.dev.acceptJob 0x0107 [] 5 false false false).isSome && ((job 0x0107 5 up.dev).acceptJob 0x0304 [] 6 true false false).isSome,
    State.reset.dev.pwr.auxOn && !State.reset.dev.latched, (State.reset.dev.setF TH_LATCH TH_LATCH_DIGITAL 1).latched,
    (let d := cvSet up.dev
     d.f (CV_CFG 0) CV_CFG_WIDTH == 32 && d.on (CV_CFG 0) CV_CFG_REFIN && d.on (CV_CFG 0) CV_CFG_REFOUT && d.rdN (CV_POLY 0) == 0x1EDC6F41 && d.rdN (CV_INIT 0) == 0xFFFFFFFF &&
       d.rdN (CV_XOROUT 0) == 0xFFFFFFFF),
    (let s := mb debugLockDef.op [0] (fun d => d.setF SC_DBG SC_DBG_LEVEL 2); let c := s.dev.readCmd 0 0 0; debugLockDef.bad c s),
    ok debugLockDef [0xA5C30005],
    ok debugLockDef [1] (fun d => (d.setCoreState 1 CORE_HALTED).setCore 1 { d.core 1 with qhalt := 2 }) (fun c d =>
      decide (d.f SC_DBG SC_DBG_LEVEL < c.b 0 1 0) && d.coreState 1 == CORE_HALTED && (d.core 1).qhalt != 0 && decide (d.errq.length < 16)),
    (up.dev.setF (CR_STAT 1) CR_STAT_CS 1).coreCs 1]).all id = true := by decide +kernel

/-- A fold that works out each value before the next step. -/
def sfold (f : Nat → Nat → Nat) : Nat → List Nat → Nat
  | r, [] => r
  | r, d :: ds => match f r d with
    | 0 => sfold f 0 ds
    | m + 1 => sfold f (m + 1) ds

/-- It is the fold. -/
theorem sfold_eq (f : Nat → Nat → Nat) (ds : List Nat) : ∀ r, sfold f r ds = ds.foldl f r := by
  induction ds with
  | nil => intro r; rfl
  | cons d ds ih =>
    intro r
    rw [List.foldl_cons, sfold, ← ih]
    cases f r d <;> rfl

/-- A frame of lane 1 without its check value. -/
def frBody : List Nat := leBytes 4 64 ++ leBytes 2 0 ++ [1, 0] ++ List.replicate 256 1

/-- The register after the frame. -/
theorem frame_register : sfold (crcByte 32 0x04C11DB7 true) (0xFFFFFFFF % 2 ^ 32) frBody = 116869158 := by decide +kernel
/-- CRC-32 by the fold above. -/
theorem crc32_sfold (bs : List Nat) : crc32 bs = (reflectN 32 (sfold (crcByte 32 0x04C11DB7 true) (0xFFFFFFFF % 2 ^ 32) bs) ^^^ 0xFFFFFFFF) % 2 ^ 32 := by
  rw [sfold_eq]; rfl

/-- Its check value. -/
theorem test_frame_check : crc32 frBody = 2616004767 := by
  rw [crc32_sfold, frame_register]; decide +kernel

/-- A frame meets the hypotheses of DC512_FRAME_RECEIVED (with the state of the last entry but one above). -/
theorem witness_PersonalityRowsComplete_frame (b : List Nat) (hb : b = frBody ++ leBytes 4 (crc32 frBody)) : b.length = 268 ∧ crc32 (b.take 264) = at' b 264 4 ∧ at' b 0 4 % 8 = 0 ∧ at' b 4 2 < 4 ∧ at' b 6 1 ≤ 15 := by
  subst hb
  have e : (frBody ++ leBytes 4 (crc32 frBody)).take 264 = frBody := List.take_left' (by decide +kernel)
  rw [e, test_frame_check]
  refine ⟨?_, ?_, ?_, ?_, ?_⟩ <;> decide +kernel

/-! Well-formed commands: each check refuses a term one past its range and admits the last value of every range. -/

/-- Ill-formed commands, one for each check, are refused. -/
theorem test_wf_refuses_1 : ([
    .doorbellWrite (2 ^ 64), .mailboxSlotWrite (2 ^ 20) 4 0, .mailboxSlotWrite 0 5 0, .mailboxSlotWrite 0 4 (2 ^ 64),
    .bar0RefusedAccess false false (2 ^ 20) 0, .bar0RefusedAccess false false 0 (2 ^ 64), .bar2Access false (2 ^ 40) 0 [] false,
    .bar2Access false 0 (2 ^ 32) [] false, .bar2Access false 0 0 [256] false, .commandTakeUp (2 ^ 64) 0, .commandTakeUp 0 (2 ^ 64),
    .msixSpacingEnd 8, .endpointReset 4, .outboundTimeout 12 0, .outboundTimeout 0 (2 ^ 64), .jobDone 1024 [], .smbusWrite 256 [] false,
    .smbusWrite 0 [256] false, .smbusWrite 0 (List.replicate 65 0) false, .spiFrame [256] 0, .spiFrame [] (2 ^ 32), .ping 33, .devInfo 33,
    .jobQuery 33, .jobCancel 33, .jobRelease 33, .aperSet 33, .copy 33, .roleSet 33, .modeSet 33 0 0, .modeSet 0 (2 ^ 64) 0,
    .modeSet 0 0 (2 ^ 64), .hostConfig 33, .sysReset 33, .persStatus 33, .persAssign 33 0 0, .persAssign 0 (2 ^ 64) 0,
    .persAssign 0 0 (2 ^ 64), .persReset 33, .persLog 33, .timRefSet 33, .timLoopSet 33, .timForce 33, .timPhaseStep 33, .timOutput 33,
    .timSng 33, .timXo 33, .timHistory 33, .timStatus 33, .timSysrefGo 33, .timClocks 33, .laneSet 33, .laneStatus 33, .lanePower 33,
    .eyeScan 33, .prbs 33, .errInject 33, .laneGroup 33, .jesdLink 33, .jesdAlign 33, .frontConfig 33, .delayModel 33, .modelTable 33,
    .coefLoad 33, .gainLoad 33, .detectSet 33, .detectRead 33, .routeSet 33, .frontStart 33, .frontStatus 33, .xcorPlan 33, .bondRead 33,
    .bondSet 33, .tuckpoint 33, .auditCtrl 33, .tileStatus 33, .runStart 33, .runStop 33, .integSet 33, .dumpRoute 33, .dumpNow 33,
    .peek 33, .accStatus 33, .beamConfig 33, .beamRoute 33, .beamWload 33, .beamWswap 33, .beamStatus 33, .memStatus 33, .memQos 33] : List Instr).all (fun i => !i.wf) = true := by decide +kernel

/-- Ill-formed commands, one for each check, are refused. -/
theorem test_wf_refuses_2 : ([
    .memRetrain 33, .capConfig 33, .capArm 33, .capTrigger 33, .capRead 33, .capRelease 33, .capStatus 33, .ethPort 33, .streamSet 33,
    .acpRx 33, .netStatus 33, .addrTable 33, .ptpConfig 33, .ptpStatus 33, .timeSet 33, .timeGet 33, .pulseSet 33, .portDelay 33,
    .coreLoad 33, .coreStart 33, .coreStop 33, .coreStatus 33, .coreTuck 33, .errRead 33, .errAck 33, .eccStatus 33, .scrubCtrl 33,
    .cvuSet 33, .eccInject 33, .thermStatus 33, .thermSet 33, .wearReport 33, .reserveStatus 33, .leaseConfig 33, .leaseStatus 33,
    .arbiterConfig 33, .healthRead 33, .profileRead 33, .profileWrite 33 0 0, .profileWrite 0 (2 ^ 64) 0, .profileWrite 0 0 (2 ^ 64),
    .commit 33, .holdupStatus 33 0 0, .holdupStatus 0 (2 ^ 64) 0, .holdupStatus 0 0 (2 ^ 64), .fwImage 33, .factoryDefaults 33 0 0,
    .factoryDefaults 0 (2 ^ 64) 0, .factoryDefaults 0 0 (2 ^ 64), .selftest 33, .selftestResult 33, .debugLock 33, .dc512Doorbell 4 0 [],
    .dc512Doorbell 0 (2 ^ 64) [], .dc512Reset 4 0, .dc512Reset 0 8, .dc512Start 4 0, .dc512Start 0 8, .dc512Stop 4 0, .dc512Stop 0 8,
    .setDump 4 0, .setDump 0 8, .setOutput 4 0, .setOutput 0 8, .loadDsp 4 0, .loadDsp 0 8, .runDsp 4 0, .runDsp 0 8, .haltDsp 4 0,
    .haltDsp 0 8, .getStatus 4 0, .getStatus 0 8, .dc512Flr 4, .dc512FrameReceived 80 [], .dc512FrameReceived 0 [256],
    .personalitySwitch 4, .signalDetect 80, .cdrLock 80, .adaptationSettled 80, .fecLock 80, .frameLock 80 false, .identify 80 0 0,
    .identify 0 0 256, .laneStateTimeout 80, .lossOfLaneLock 80 0, .lossOfLaneLock 0 3, .lowpowerEnter 80, .lowpowerExit 80,
    .lpExitLate 80, .aslFrameReceived 80 0 0 0 0 []] : List Instr).all (fun i => !i.wf) = true := by decide +kernel

/-- Ill-formed commands, one for each check, are refused. -/
theorem test_wf_refuses_3 : ([
    .aslFrameReceived 0 (2 ^ 64) 0 0 0 [], .aslFrameReceived 0 0 0 0 0 [256], .aslFrameSlot 80, .bulkFrameSend 256 0 [],
    .bulkFrameSend 0 16 [], .bulkFrameSend 0 0 [256], .laneTuckpoint 256 0, .txMonitorFail 80, .laneFailTimeout 80,
    .jesdMultiblockReceived 256 0 false [], .jesdMultiblockReceived 0 80 false [], .sysrefEdge 256 0 0, .sysrefTimeout 256,
    .jesdLinkFault 256, .eyePointStart 80, .eyePointDone 80 0 0, .eyeScanWaitTimeout 80, .checkerLock 80 0 0, .injGo 80,
    .periodicInjection 80, .cntClr 80, .sampleDeadline 2048 0, .sampleDeadline 0 (2 ^ 64), .detectorIntervalEnd 3 0 0 0,
    .detectorIntervalEnd 0 2048 0 0, .detectorIntervalEnd 0 0 16384 0, .envelopeEvent 2048, .reserveTileSelftest 68 false,
    .strikeExpiry 68, .swap 64, .ready 64, .trigInEdge 4 false 0, .trigTimeout 4, .capDrop 0 (2 ^ 40) 0, .capDrop 0 0 (2 ^ 32),
    .commandSlot 136 0 [], .refresh 136 false [], .retrainPause 72, .retrainForced 72, .parityAlert 72 false,
    .matrixAccess 12 0 [] false 0 0 [] [] [], .matrixAccess 0 0 [] false (2 ^ 64) 0 [] [] [], .matrixAccess 0 0 [(12, 0)] false 0 0 [] [] [],
    .matrixAccess 0 0 [] false 0 (2 ^ 32) [] [] [], .matrixAccess 0 0 [] false 0 0 [256] [] [], .targetedScrub 7 0 0,
    .targetedScrub 0 32 0, .targetedScrub 0 0 3, .patrolScrub 7 0, .patrolScrub 0 3, .scrubLate 7, .spared 7 0 false, .spared 0 32 false,
    .cvStart 8 0, .cvStart 0 64, .cvFeedB 8 0 0, .cvFeedB 0 64 0, .cvFeedB 0 0 (2 ^ 64), .cvFeedH 8 0 0, .cvFeedH 0 64 0,
    .cvFeedH 0 0 (2 ^ 64), .cvFeedW 8 0 0, .cvFeedW 0 64 0, .cvFeedW 0 0 (2 ^ 64), .feedAbsorb 8, .cvAliveGo 8 0 0, .cvAliveGo 0 64 0,
    .cvAliveGo 0 0 65536, .cvResultRead 8, .remap 64, .dmaStart 16 0, .dmaStart 0 64, .resume 16 0, .resume 0 64, .abort 16 0 0,
    .abort 0 64 0, .descriptorFetch 16, .descriptorComplete 16, .endCheck 16, .cmdStart 4 0, .cmdStart 0 64, .cmdHalt 4 0, .cmdHalt 0 64,
    .cmdReset 4 0, .cmdReset 0 64, .kick 4 0, .kick 0 64, .watchdogExpiry 4, .timerCompare 4, .swset 4 0 0, .swset 0 48 0] : List Instr).all (fun i => !i.wf) = true := by decide +kernel

/-- Ill-formed commands, one for each check, are refused. -/
theorem test_wf_refuses_4 : ([
    .swset 0 0 64, .windowWriteError 4, .level1Interrupt 4, .level2Interrupt 4, .rNop 4, .rRts 4, .rRti1 4, .rRti2 4, .rRtt 4, .rEnddo 4,
    .rSync 4, .rWait 4, .rTrap 4, .rBra 4, .rBsr 4, .rBcc 4, .rDo 4, .rRep 4, .rMovei 4, .rMover 4, .rMovem 4, .rAnd 4, .rOr 4, .rEor 4,
    .rBset 4, .rBclr 4, .rBtst 4, .rAddi 4, .rMovesOnly 4, .rMpy 4, .rMac 4, .rMsu 4, .rMpyr 4, .rMacr 4, .rMac2 4, .rMsu2 4, .rAdd 4,
    .rSub 4, .rAdda 4, .rSuba 4, .rCmp 4, .rTst 4, .rClr 4, .rNeg 4, .rAbs 4, .rTfr 4, .rRnd 4, .rAsl 4, .rAsr 4, .rNorm 4, .rExp 4,
    .rJmp 4, .rJsr 4, .rBccLong 4, .rDoLong 4, .rRepLong 4, .rMoveiLong 4, .rMovel 4, .rNormf 4, .rMacx 4, .rMovex 4,
    .ethFrameReceived 20 false [] 0, .ethFrameReceived 0 false [256] 0, .pfcPauseEnd 20 0, .pfcPauseEnd 0 8, .pfcStorm 20 0, .pfcStorm 0 8,
    .stormClear 20 0, .stormClear 0 8, .pfcRenew 20 0, .linkDown 20 false false, .linkUp 20 false, .packetTransmit 20,
    .entryRefresh 20 false 0, .trigTxDrop 1024, .ptpMessageTx 20 0, .ptpMessageTx 0 16, .announceTimeout 20,
    .offsetMeasurement 20 0 0 0 0 0, .pulseEdge 8, .activityFault 8, .periodFault 8, .ppsInEdge 2 false 0,
    .frequencyMeasurement 8 0 false false, .timXoTempWrite (2 ^ 64), .phaseStep (2 ^ 64), .sysrefOutPulse 4, .sensorTuckpoint 56,
    .leaseSync [256], .leaseGrant [256]] : List Instr).all (fun i => !i.wf) = true := by decide +kernel

/-- Ill-formed commands, one for each check, are refused. -/
theorem test_wf_refuses_5 : ([
    .leaseRevoke [256], .healthReport [256], .twinFailed 2, .powerOnReset 4, .supplyMonitorLow 11 0, .powerSeq 8 0 0, .powerSeq 0 11 0,
    .train [65536] 0 [] [] [] [] [] false, .train [] 65536 [] [] [] [] [] false, .train [] 0 [] [] [80] [] [] false,
    .train [] 0 [] [] [] [68] [] false, .trainTimeout [] [] [80], .commitStart (2 ^ 64) 0, .commitStart 0 (2 ^ 64),
    .instructionLoad 256 false, .qdpAccess (2 ^ 45) false, .breakpoint 4, .wordLatchRead (2 ^ 64), .registerWrite 64 0 4 0,
    .registerWrite 0 (2 ^ 64) 4 0, .registerWrite 0 0 5 0, .registerWrite 0 0 4 (2 ^ 64), .illegalInstruction 4,
    .returnToD0 false false false false 256] : List Instr).all (fun i => !i.wf) = true := by decide +kernel

/-- Every checked operand at the last value of its range is admitted. -/
theorem test_wf_admits_1 : ([
    .doorbellWrite (2 ^ 64 - 1), .mailboxSlotWrite (2 ^ 20 - 1) 8 (2 ^ 64 - 1), .bar0RefusedAccess false false (2 ^ 20 - 1) (2 ^ 64 - 1),
    .bar2Access false (2 ^ 40 - 1) (2 ^ 32 - 1) [255] false, .commandTakeUp (2 ^ 64 - 1) (2 ^ 64 - 1), .msixSpacingEnd 7, .endpointReset 3,
    .outboundTimeout 11 (2 ^ 64 - 1), .jobDone 1023 [], .smbusWrite 255 [255] false, .spiFrame [255] (2 ^ 32 - 1), .ping 32, .devInfo 32,
    .jobQuery 32, .jobCancel 32, .jobRelease 32, .aperSet 32, .copy 32, .roleSet 32, .modeSet 32 (2 ^ 64 - 1) (2 ^ 64 - 1), .hostConfig 32,
    .sysReset 32, .persStatus 32, .persAssign 32 (2 ^ 64 - 1) (2 ^ 64 - 1), .persReset 32, .persLog 32, .timRefSet 32, .timLoopSet 32,
    .timForce 32, .timPhaseStep 32, .timOutput 32, .timSng 32, .timXo 32, .timHistory 32, .timStatus 32, .timSysrefGo 32, .timClocks 32,
    .laneSet 32, .laneStatus 32, .lanePower 32, .eyeScan 32, .prbs 32, .errInject 32, .laneGroup 32, .jesdLink 32, .jesdAlign 32,
    .frontConfig 32, .delayModel 32, .modelTable 32, .coefLoad 32, .gainLoad 32, .detectSet 32, .detectRead 32, .routeSet 32,
    .frontStart 32, .frontStatus 32, .xcorPlan 32, .bondRead 32, .bondSet 32, .tuckpoint 32, .auditCtrl 32, .tileStatus 32, .runStart 32,
    .runStop 32, .integSet 32, .dumpRoute 32, .dumpNow 32, .peek 32, .accStatus 32, .beamConfig 32, .beamRoute 32, .beamWload 32,
    .beamWswap 32, .beamStatus 32, .memStatus 32, .memQos 32, .memRetrain 32, .capConfig 32, .capArm 32, .capTrigger 32, .capRead 32,
    .capRelease 32, .capStatus 32, .ethPort 32, .streamSet 32, .acpRx 32, .netStatus 32, .addrTable 32, .ptpConfig 32, .ptpStatus 32] : List Instr).all (fun i => i.wf) = true := by decide +kernel

/-- Every checked operand at the last value of its range is admitted. -/
theorem test_wf_admits_2 : ([
    .timeSet 32, .timeGet 32, .pulseSet 32, .portDelay 32, .coreLoad 32, .coreStart 32, .coreStop 32, .coreStatus 32, .coreTuck 32,
    .errRead 32, .errAck 32, .eccStatus 32, .scrubCtrl 32, .cvuSet 32, .eccInject 32, .thermStatus 32, .thermSet 32, .wearReport 32,
    .reserveStatus 32, .leaseConfig 32, .leaseStatus 32, .arbiterConfig 32, .healthRead 32, .profileRead 32,
    .profileWrite 32 (2 ^ 64 - 1) (2 ^ 64 - 1), .commit 32, .holdupStatus 32 (2 ^ 64 - 1) (2 ^ 64 - 1), .fwImage 32,
    .factoryDefaults 32 (2 ^ 64 - 1) (2 ^ 64 - 1), .selftest 32, .selftestResult 32, .debugLock 32, .dc512Doorbell 3 (2 ^ 64 - 1) [],
    .dc512Reset 3 7, .dc512Start 3 7, .dc512Stop 3 7, .setDump 3 7, .setOutput 3 7, .loadDsp 3 7, .runDsp 3 7, .haltDsp 3 7,
    .getStatus 3 7, .dc512Flr 3, .dc512FrameReceived 79 [255], .personalitySwitch 3, .signalDetect 79, .cdrLock 79, .adaptationSettled 79,
    .fecLock 79, .frameLock 79 false, .identify 79 0 255, .laneStateTimeout 79, .lossOfLaneLock 79 2, .lowpowerEnter 79, .lowpowerExit 79,
    .lpExitLate 79, .aslFrameReceived 79 (2 ^ 64 - 1) 0 0 0 [255], .aslFrameSlot 79, .bulkFrameSend 255 15 [255], .laneTuckpoint 255 0,
    .txMonitorFail 79, .laneFailTimeout 79, .jesdMultiblockReceived 255 79 false [], .sysrefEdge 255 0 0, .sysrefTimeout 255,
    .jesdLinkFault 255, .eyePointStart 79, .eyePointDone 79 0 0, .eyeScanWaitTimeout 79, .checkerLock 79 0 0, .injGo 79,
    .periodicInjection 79, .cntClr 79, .sampleDeadline 2047 (2 ^ 64 - 1), .detectorIntervalEnd 2 2047 16383 0, .envelopeEvent 2047,
    .reserveTileSelftest 67 false, .strikeExpiry 67, .swap 63, .ready 63, .trigInEdge 3 false 0, .trigTimeout 3,
    .capDrop 0 (2 ^ 40 - 1) (2 ^ 32 - 1), .commandSlot 135 0 [], .refresh 135 false [], .retrainPause 71, .retrainForced 71,
    .parityAlert 71 false, .matrixAccess 11 0 [(11, 9)] false (2 ^ 64 - 1) (2 ^ 32 - 1) [255] [] [], .targetedScrub 6 31 2] : List Instr).all (fun i => i.wf) = true := by decide +kernel

/-- Every checked operand at the last value of its range is admitted. -/
theorem test_wf_admits_3 : ([
    .patrolScrub 6 2, .scrubLate 6, .spared 6 31 false, .cvStart 7 63, .cvFeedB 7 63 (2 ^ 64 - 1), .cvFeedH 7 63 (2 ^ 64 - 1),
    .cvFeedW 7 63 (2 ^ 64 - 1), .feedAbsorb 7, .cvAliveGo 7 63 65535, .cvResultRead 7, .remap 63, .dmaStart 15 63, .resume 15 63,
    .abort 15 63 0, .descriptorFetch 15, .descriptorComplete 15, .endCheck 15, .cmdStart 3 63, .cmdHalt 3 63, .cmdReset 3 63, .kick 3 63,
    .watchdogExpiry 3, .timerCompare 3, .swset 3 47 63, .windowWriteError 3, .level1Interrupt 3, .level2Interrupt 3, .rNop 3, .rRts 3,
    .rRti1 3, .rRti2 3, .rRtt 3, .rEnddo 3, .rSync 3, .rWait 3, .rTrap 3, .rBra 3, .rBsr 3, .rBcc 3, .rDo 3, .rRep 3, .rMovei 3, .rMover 3,
    .rMovem 3, .rAnd 3, .rOr 3, .rEor 3, .rBset 3, .rBclr 3, .rBtst 3, .rAddi 3, .rMovesOnly 3, .rMpy 3, .rMac 3, .rMsu 3, .rMpyr 3,
    .rMacr 3, .rMac2 3, .rMsu2 3, .rAdd 3, .rSub 3, .rAdda 3, .rSuba 3, .rCmp 3, .rTst 3, .rClr 3, .rNeg 3, .rAbs 3, .rTfr 3, .rRnd 3,
    .rAsl 3, .rAsr 3, .rNorm 3, .rExp 3, .rJmp 3, .rJsr 3, .rBccLong 3, .rDoLong 3, .rRepLong 3, .rMoveiLong 3, .rMovel 3, .rNormf 3,
    .rMacx 3, .rMovex 3, .ethFrameReceived 19 false [255] 0, .pfcPauseEnd 19 7, .pfcStorm 19 7, .stormClear 19 7, .pfcRenew 19 0,
    .linkDown 19 false false] : List Instr).all (fun i => i.wf) = true := by decide +kernel

/-- Every checked operand at the last value of its range is admitted. -/
theorem test_wf_admits_4 : ([
    .linkUp 19 false, .packetTransmit 19, .entryRefresh 19 false 0, .trigTxDrop 1023, .ptpMessageTx 19 15, .announceTimeout 19,
    .offsetMeasurement 19 0 0 0 0 0, .pulseEdge 7, .activityFault 7, .periodFault 7, .ppsInEdge 1 false 0,
    .frequencyMeasurement 7 0 false false, .timXoTempWrite (2 ^ 64 - 1), .phaseStep (2 ^ 64 - 1), .sysrefOutPulse 3, .sensorTuckpoint 55,
    .leaseSync [255], .leaseGrant [255], .leaseRevoke [255], .healthReport [255], .twinFailed 1, .powerOnReset 3, .supplyMonitorLow 10 0,
    .powerSeq 7 10 0, .train [65535] 65535 [] [] [79] [67] [] false, .trainTimeout [] [] [79], .commitStart (2 ^ 64 - 1) (2 ^ 64 - 1),
    .instructionLoad 255 false, .qdpAccess (2 ^ 45 - 1) false, .breakpoint 3, .wordLatchRead (2 ^ 64 - 1),
    .registerWrite 63 (2 ^ 64 - 1) 8 (2 ^ 64 - 1), .illegalInstruction 3, .returnToD0 false false false false 255] : List Instr).all (fun i => i.wf) = true := by decide +kernel

/-! Worked examples of the manual. -/

/-- R16: the lease generation example. -/
theorem test_serial_example :
    (serialDiff 5 0xFFF0 16, later 5 0xFFF0 16, serialDiff 0x7FF0 0xFFF0 16, earlier 0x7FF0 0xFFF0 16) = (21, true, -32768, true) := by
  decide +kernel

/-- R76: the eye scan of 65 by 193 steps taken by 4 and by 12 has 289 points. -/
theorem test_eye_points : (scanPoints [0x90005, 0x420E0, 0xC60A0]).length = 289 := by decide +kernel

/-- The eye scan example of chapter 12: slot 3 with tag 0x21 and its three parameter words, waiting. -/
def eyeCmd : State :=
  let d := up.dev.trainStep 5 0 8
  let d1 := [0x21000304, 0x90005, 0x420E0, 0xC60A0].zipIdx.foldl (fun (e : Dev) (w, i) => e.wrN (MB_WORD (64 * 3 + i)) w) d
  { State.reset with dev := { d1.wrN DOORBELL 8 with host := { d1.host with fwq := [3] } } }

/-- Chapter 12: the command is accepted, word 0 of the slot's completion reads 0x2101_0304 and the doorbell bit clears. -/
theorem test_eye_accept :
    (match exec (.eyeScan 3) eyeCmd with
      | .next t => (t.dev.rdN (CPL_WORD 48), t.dev.rdN DOORBELL)
      | _ => (0, 1)) = (0x21010304, 0) := by decide +kernel

/-- R97 to R99: the delay example, and a fraction that rounds to the next sample. -/
theorem test_delay_position :
    (readPos (2 ^ 46) 10000000 (12346789 * 2 ^ 48 / 10000), readPos (2 ^ 46) 10000000 (3 * 2 ^ 48 / 10000)) = ((9998765, 329), (10000000, 0)) := by
  decide +kernel

/-- R153: XCOR_PLAN of the standard case at 1.05 GHz. -/
theorem test_plan_standard :
    (let p := planOf 4096 false 256 0 2304 1050 108223
     ([p.k, p.c, p.cLast, p.passes, p.depth, p.need], p.tileKhz, p.slotUse)) = ([1, 9, 9, 256, 32, 2304], 116666, 9166) := by decide +kernel

/-- R435, R449: the plan of four personalities of 1,024 channels. -/
theorem test_plan_personalities :
    (let p := planOf 512 false 4096 0 0 1050 1
     ([p.k, p.passes, p.c, p.cLast], p.need)) = ([76, 54, 12, 11], 647) := by decide +kernel

/-- R163: the mortar keeps the low part of a product that binary32 would lose. -/
theorem test_promote_example :
    promoteComp (fl32 (2 ^ 40)) (fl32 7) false (-2000000000) = (fl32 1097511600128, fl32 27655, false) := by decide +kernel

/-- R225 to R227: a capture segment of the example and the capacity of its ring. -/
theorem test_capture_example :
    (let n := 4096 * 128
     let crs := segCourses n 1
     let g := segGrains 4096 n 1 crs
     (crs, g * 4096, (2 ^ 38 - 2 ^ 30) / 4096 * 8 / g)) = (1, 134221824, 16319) := by decide +kernel

/-- R115: symmetric saturation of a sample. -/
theorem test_requantise : (requantise false 0 (8, -9)).1 = codeOf false 7 (-7) := by decide +kernel

/-- R318: core 1 with base 0x1000, step 5 and a length in the registers of index 2. -/
def aguState (p l : Nat) : State :=
  code [] (fun d => d.setCore 1 { d.core 1 with regs := [(RC_P0 + 2, p), (RC_N0 + 2, 5), (RC_B0 + 2, 0x1000), (RC_L0 + 2, l)] })

/-- The pointer of index 2 after an access. -/
def aguP2 (x : Nat × State) : Nat := (x.2.core 1).final (RC_P0 + 2)

/-- R318, R319: the address update examples of chapter 10. -/
theorem test_agu_example :
    [aguP2 (agu 1 2 3 1 (aguState 0x1062 100)), aguP2 (agu 1 2 1 1 (aguState 0x1062 64)), aguP2 (agu 1 2 1 1 (aguState 0xFF0 100))] =
      [0x1003, 0x1023, 0x1055] := by decide +kernel

/-- R314: MAC X0,Y0,A0 of -1 by -1 on 255·2^47, whose word is 0x880000. -/
def mac256 : State :=
  code [0x880000] (fun d => d.setCore 1 { d.core 1 with regs :=
    [(RC_X0, 0x800000), (RC_Y0, 0x800000), (RC_AH, 0x800000), (RC_AG, 0x7F), (SR_FM, 1)] })

/-- R314: the 256th MAC of the example wraps to the least value and sets V. -/
theorem test_mac_wraps :
    (match exec (.rMac 1) mac256 with
      | .next t => [(t.core 1).final RC_AG, (t.core 1).final RC_AH, (t.core 1).final RC_AL, (t.core 1).final SR_V, (t.core 1).final SR_N]
      | _ => []) = [0x80, 0, 0, 1, 1] := by decide +kernel

/-- R468: the hold-up check passes with 88 mJ and fails with 52 mJ once the bank has aged. -/
theorem test_holdup_example :
    (let d := huOn up.dev
     let q := fun v => v * 256 / d.f SC_HU_CFG SC_HU_CFG_RATIO
     [d.huCheck (q 5000000) (q 4990000), d.huCheck (q 5000000) (q 4983300)].map (·.1)) = [true, false] := by decide +kernel

/-! Steps. -/

/-- On an empty queue time passes: the device clock has moved and nothing waits. -/
theorem test_empty_queue :
    (match Sys2Proof.Machine.step State.reset with
      | .next t => t.pending.isEmpty && decide (State.reset.dev.now < t.dev.now)
      | _ => false) = true := by decide +kernel

/-- The command in front runs, and the rest of the queue waits: a doorbell write of slots 0 and 2 hands them over. -/
theorem test_step_front :
    (match Sys2Proof.Machine.step { up with pending := [.doorbellWrite 5, .heartbeatTick] } with
      | .next t => (t.pending, t.dev.host.fwq)
      | _ => ([], [])) = ([.heartbeatTick], [0, 2]) := by decide +kernel

end Sys2Proof.Tests
end

section
/-!
SUPPORT. The counters of the scope chapter: event counters that saturate (R20) and wrapping counters ordered by their serial
difference (R16).
-/
namespace Sys2Proof.Proofs
open Sys2Proof.Machine Sys2Proof.Laws

/-! Saturating counters. -/

/-- Portions added one after the other to a counter that saturates at `m` count like their sum added at once. -/
theorem foldl_saturating {α : Type} {add : α → Nat → α} {count : α → Nat} {m : Nat}
    (hadd : ∀ d n, count (add d n) = min (count d + n) m) (ns : List Nat) (d : α) (hd : count d ≤ m) :
    count (ns.foldl add d) = min (count d + ns.sum) m := by
  induction ns generalizing d with
  | nil => rw [List.foldl_nil, List.sum_nil, Nat.add_zero, Nat.min_eq_left hd]
  | cons n ns ih =>
    rw [List.foldl_cons, ih (add d n) (hadd d n ▸ Nat.min_le_right _ _), hadd, List.sum_cons]
    omega

theorem rdN_le (d : Dev) (a : Nat) : d.rdN a ≤ 2 ^ 64 - 1 := Nat.le_sub_one_of_lt (d.rd a).isLt

theorem f_le (d : Dev) (a : Nat) (f : Fld) : d.f a f ≤ 2 ^ (f.hi + 1 - f.lo) - 1 :=
  Nat.le_sub_one_of_lt (getF_lt f (d.rd a))

theorem rdN_foldl_cnt (d : Dev) (a : Nat) (ns : List Nat) :
    (ns.foldl (fun (e : Dev) n => e.cnt a n) d).rdN a = min (d.rdN a + ns.sum) (2 ^ 64 - 1) :=
  foldl_saturating (count := fun e : Dev => e.rdN a) (fun e n => rdN_cnt e a n) ns d (rdN_le d a)

theorem f_foldl_cntF (d : Dev) (a : Nat) (f : Fld) (hf : FldOk f) (ns : List Nat) :
    (ns.foldl (fun (e : Dev) n => e.cntF a f n) d).f a f = min (d.f a f + ns.sum) (2 ^ (f.hi + 1 - f.lo) - 1) :=
  foldl_saturating (count := fun e : Dev => e.f a f) (fun e n => f_cntF e a f hf n) ns d (f_le d a f)

/-- Settles O42: a counter holds the sum of all portions cut off at all ones, so at all ones nothing moves it but a write. -/
theorem countersSaturate : Obligations.CountersSaturate := by
  intro d a f ns hlo hhi
  have hreg := rdN_foldl_cnt d a ns
  have hfld := f_foldl_cntF d a f ⟨hlo, hhi⟩ ns
  refine ⟨hreg, hfld, fun hfull => ?_, fun hfull => ?_, rdN_wrN_self d a 0, ?_⟩
  · rw [hreg, hfull, Nat.min_eq_right (Nat.le_add_right _ _)]
  · rw [hfld, hfull, Nat.min_eq_right (Nat.le_add_right _ _)]
  · rw [f_setF d a f ⟨hlo, hhi⟩, Nat.zero_mod]

/-! Wrapping counters. -/

theorem later_iff (a b n : Nat) : later a b n = true ↔ serialDiff a b n > 0 := decide_eq_true_iff

theorem earlier_iff (a b n : Nat) : earlier a b n = true ↔ serialDiff a b n < 0 := decide_eq_true_iff

theorem two_pow_eq_two_mul_half {n : Nat} (hn : 1 ≤ n) : (2 : Int) ^ n = 2 * 2 ^ (n - 1) := by
  rw [Int.mul_comm, ← Int.pow_succ, Nat.succ_eq_add_one, Nat.sub_add_cancel hn]

/-- R16: the serial difference lies in -2^(n-1) .. 2^(n-1) - 1. -/
theorem serialDiff_range {n : Nat} (hn : 1 ≤ n) (a b : Nat) :
    -(2 ^ (n - 1)) ≤ serialDiff a b n ∧ serialDiff a b n < 2 ^ (n - 1) := by
  have hpow := two_pow_eq_two_mul_half hn
  have hpos : (0 : Int) < 2 ^ n := Int.pow_pos (by decide)
  have hge := Int.emod_nonneg ((a : Int) - b + 2 ^ (n - 1)) (Int.ne_of_gt hpos)
  have hlt := Int.emod_lt_of_pos ((a : Int) - b + 2 ^ (n - 1)) hpos
  rw [serialDiff]
  omega

/-- The serial difference and the plain difference agree modulo the range of the counter. -/
theorem dvd_sub_serialDiff (a b n : Nat) : (2 ^ n : Int) ∣ a - b - serialDiff a b n := by
  have hdvd : (2 ^ n : Int) ∣ (a - b + 2 ^ (n - 1)) - (a - b + 2 ^ (n - 1)) % 2 ^ n := Int.dvd_self_sub_emod
  have heq : (a : Int) - b - serialDiff a b n = (a - b + 2 ^ (n - 1)) - (a - b + 2 ^ (n - 1)) % 2 ^ n := by
    rw [serialDiff]
    omega
  rw [heq]
  exact hdvd

/-- The serial difference is the one number of its range that agrees with the plain difference modulo the range of the counter. -/
theorem serialDiff_eq_of_dvd {n a b : Nat} {q : Int} (hn : 1 ≤ n) (hlo : -(2 ^ (n - 1)) ≤ q) (hhi : q < 2 ^ (n - 1))
    (h : (2 ^ n : Int) ∣ a - b - q) : serialDiff a b n = q := by
  have hpow := two_pow_eq_two_mul_half hn
  obtain ⟨c, hc⟩ := h
  have hsum : (a : Int) - b + 2 ^ (n - 1) = q + 2 ^ (n - 1) + 2 ^ n * c := by omega
  rw [serialDiff, hsum, Int.add_mul_emod_self_left, Int.emod_eq_of_lt (by omega) (by omega), Int.add_sub_cancel]

theorem serialDiff_eq_zero_iff {n a b : Nat} (hn : 1 ≤ n) (ha : a < 2 ^ n) (hb : b < 2 ^ n) :
    serialDiff a b n = 0 ↔ a = b := by
  constructor
  · intro h
    have hdvd := dvd_sub_serialDiff a b n
    rw [h, Int.sub_zero] at hdvd
    have hmod : (a : Int) % 2 ^ n = b % 2 ^ n := Int.emod_eq_emod_iff_emod_sub_eq_zero.mpr (Int.emod_eq_zero_of_dvd hdvd)
    have hnat : a % 2 ^ n = b % 2 ^ n := by exact_mod_cast hmod
    rwa [Nat.mod_eq_of_lt ha, Nat.mod_eq_of_lt hb] at hnat
  · rintro rfl
    have hpos : (0 : Int) < 2 ^ (n - 1) := Int.pow_pos (by decide)
    refine serialDiff_eq_of_dvd hn (by omega) hpos ?_
    rw [Int.sub_self, Int.sub_zero]
    exact Int.dvd_zero _

/-- Half the range taken either way is the same difference, since it wraps onto its negative. -/
theorem serialDiff_swap_of_half {n a b : Nat} (hn : 1 ≤ n) (h : serialDiff a b n = -(2 ^ (n - 1))) :
    serialDiff b a n = -(2 ^ (n - 1)) := by
  have hpow := two_pow_eq_two_mul_half hn
  have hpos : (0 : Int) < 2 ^ (n - 1) := Int.pow_pos (by decide)
  obtain ⟨c, hc⟩ := dvd_sub_serialDiff a b n
  refine serialDiff_eq_of_dvd hn (Int.le_refl _) (by omega) ⟨1 - c, ?_⟩
  rw [Int.mul_sub, Int.mul_one]
  omega

theorem serialDiff_swap_of_ne_half {n a b : Nat} (hn : 1 ≤ n) (h : serialDiff a b n ≠ -(2 ^ (n - 1))) :
    serialDiff b a n = -serialDiff a b n := by
  obtain ⟨hlo, hhi⟩ := serialDiff_range hn a b
  obtain ⟨c, hc⟩ := dvd_sub_serialDiff a b n
  refine serialDiff_eq_of_dvd hn (by omega) (by omega) ⟨-c, ?_⟩
  rw [Int.mul_neg]
  omega

/-- Settles O45: the serial difference is the representative of the plain difference in a half-open range around 0 (R16). -/
theorem serialOrder : Obligations.SerialOrder := by
  intro n a b hn ha hb
  obtain ⟨hlo, hhi⟩ := serialDiff_range hn a b
  refine ⟨later_iff a b n, serialDiff_eq_zero_iff hn ha hb, earlier_iff a b n, fun h => ?_, fun h => ?_,
    Int.emod_eq_zero_of_dvd (dvd_sub_serialDiff a b n), hlo, hhi⟩
  · have hneg : (-(2 ^ (n - 1)) : Int) < 0 := Int.neg_neg_of_pos (Int.pow_pos (by decide))
    rw [earlier_iff, earlier_iff, serialDiff_swap_of_half hn h, h]
    exact ⟨hneg, hneg⟩
  · rw [later_iff, earlier_iff, serialDiff_swap_of_ne_half hn h]
    exact Int.neg_lt_zero_iff.symm

end Sys2Proof.Proofs
end

section
/-!
SUPPORT. The extension of a received 48-bit SPN to 64 bits around the expected SPN (R24), by the rules of the serial difference.
-/
namespace Sys2Proof.Proofs
open Sys2Proof.Machine Sys2Proof.Laws

theorem coe_wrapN (n : Nat) (z : Int) : (wrapN n z : Int) = z % 2 ^ n :=
  Int.toNat_of_nonneg (Int.emod_nonneg z (Int.ne_of_gt (Int.pow_pos (by decide))))

theorem wrapN_lt (n : Nat) (z : Int) : wrapN n z < 2 ^ n := by
  have hlt : (wrapN n z : Int) < 2 ^ n := by
    rw [coe_wrapN]
    exact Int.emod_lt_of_pos z (Int.pow_pos (by decide))
  exact_mod_cast hlt

/-- The extended value is the expected SPN moved by the 48-bit serial difference, modulo the 64-bit range. -/
theorem dvd_extend48_sub (e x : Nat) : (2 ^ 64 : Int) ∣ extend48 e x - e - serialDiff x e 48 := by
  rw [extend48, coe_wrapN, Int.sub_sub]
  exact Int.dvd_emod_sub_self

/-- Both moduli are multiples of 2^48, so wrapping at 64 bits leaves the low 48 bits those of the received SPN. -/
theorem extend48_mod_eq (e x : Nat) : extend48 e x % 2 ^ 48 = x % 2 ^ 48 := by
  obtain ⟨c, hc⟩ := dvd_extend48_sub e x
  obtain ⟨k, hk⟩ := dvd_sub_serialDiff x e 48
  omega

/-- The 48-bit serial difference is small enough to be the 64-bit one of the extended value. -/
theorem serialDiff_extend48 (e x : Nat) : serialDiff (extend48 e x) e 64 = serialDiff x e 48 := by
  obtain ⟨hlo, hhi⟩ := serialDiff_range (n := 48) (by decide) x e
  exact serialDiff_eq_of_dvd (by decide) (by omega) (by omega) (dvd_extend48_sub e x)

/-- Settles O46: the extended value differs from the expected SPN by the 48-bit serial difference, whose range is R24's. -/
theorem spnExtended : Obligations.SpnExtended := by
  intro e x _ hx
  obtain ⟨hlo, hhi⟩ := serialDiff_range (n := 48) (by decide) x e
  rw [serialDiff_extend48, extend48_mod_eq, Nat.mod_eq_of_lt hx]
  exact ⟨wrapN_lt 64 _, rfl, hlo, Int.le_sub_one_of_lt hhi⟩

end Sys2Proof.Proofs
end

section
/-!
SUPPORT. The requantiser of the front (R115): the codes that values take, and what a channel of a spectrum holds and counts.
-/
namespace Sys2Proof.Proofs
open Sys2Proof.Machine Sys2Proof.Laws

/-! Codes of values and the blank code. -/

theorem clampI_eq_max_min {lo hi : Int} (h : lo ≤ hi) (x : Int) : clampI lo hi x = max lo (min hi x) := by
  unfold clampI
  split
  · omega
  · split <;> omega

theorem clampI_mem_range {lo hi : Int} (h : lo ≤ hi) (x : Int) : lo ≤ clampI lo hi x ∧ clampI lo hi x ≤ hi := by
  rw [clampI_eq_max_min h]
  omega

/-- Half the range is the pattern of -2^n in n + 1 bits, which symmetric saturation leaves out. -/
theorem wrapN_ne_half {n : Nat} {z : Int} (hlo : -(2 ^ n) < z) (hhi : z < 2 ^ n) : wrapN (n + 1) z ≠ 2 ^ n := by
  intro h
  have hmod : z % (2 * 2 ^ n) = 2 ^ n := by
    rw [Int.mul_comm, ← Int.pow_succ, ← coe_wrapN, h, Int.natCast_pow, Int.cast_ofNat_Int]
  rcases Int.lt_or_le z 0 with hneg | hpos
  · rw [← Int.add_emod_right, Int.emod_eq_of_lt (by omega) (by omega)] at hmod
    omega
  · rw [Int.emod_eq_of_lt hpos (by omega)] at hmod
    omega

/-- The largest magnitude of a part of a sample code (R115). -/
def codeTop (c8 : Bool) : Int := if c8 then 127 else 7

theorem neg_codeTop_le (c8 : Bool) : -codeTop c8 ≤ codeTop c8 := by
  cases c8 <;> decide

/-- The real part of the blank code is the pattern that no part within ±top wraps to. -/
theorem codeOf_ne_blankCode {c8 : Bool} {re im : Int} (hre : -codeTop c8 ≤ re ∧ re ≤ codeTop c8) : codeOf c8 re im ≠ blankCode c8 := by
  obtain ⟨hlo, hhi⟩ := hre
  intro h
  cases c8 with
  | false =>
    have hne : wrapN 4 re ≠ 8 := wrapN_ne_half (n := 3) (Int.lt_of_lt_of_le (by decide) hlo) (Int.lt_of_le_of_lt hhi (by decide))
    have him := wrapN_lt 4 im
    change 16 * wrapN 4 re + wrapN 4 im = 0x88 at h
    omega
  | true =>
    have hne : wrapN 8 re ≠ 128 := wrapN_ne_half (n := 7) (Int.lt_of_lt_of_le (by decide) hlo) (Int.lt_of_le_of_lt hhi (by decide))
    have hre := wrapN_lt 8 re
    change wrapN 8 re + 256 * wrapN 8 im = 0x8080 at h
    omega

/-! A value requantised. -/

theorem code_requantise (c8 : Bool) (shift : Nat) (x : Int × Int) :
    (requantise c8 shift x).1 = codeOf c8 (clampI (-codeTop c8) (codeTop c8) (roundDiv x.1 (2 ^ shift)))
      (clampI (-codeTop c8) (codeTop c8) (roundDiv x.2 (2 ^ shift))) := rfl

theorem code_requantise_ne_blankCode (c8 : Bool) (shift : Nat) (x : Int × Int) : (requantise c8 shift x).1 ≠ blankCode c8 := by
  rw [code_requantise]
  exact codeOf_ne_blankCode (clampI_mem_range (neg_codeTop_le c8) _)

theorem count_requantise (c8 : Bool) (shift : Nat) (x : Int × Int) :
    (requantise c8 shift x).2 =
      b2n (decide (roundDiv x.1 (2 ^ shift) > codeTop c8) || decide (roundDiv x.1 (2 ^ shift) < -codeTop c8)) +
      b2n (decide (roundDiv x.2 (2 ^ shift) > codeTop c8) || decide (roundDiv x.2 (2 ^ shift) < -codeTop c8)) := by
  rw [← Bool.decide_or, ← Bool.decide_or]
  rfl

/-! One channel of a spectrum. -/

/-- The code of a channel of a spectrum and the saturated parts it counts: the blank code where the channel is blanked. -/
def chanCode (d : Dev) (i : Nat) (x : FInput) (m c : Nat) (seg : Option Seg) (blanked : Bool) (v : Int × Int) : Nat × Nat :=
  let c8 := d.on FR_CTRL FR_CTRL_FMT
  if blanked then (blankCode c8, 0)
  else requantise c8 x.rqShift (mulGain (d.chanValue seg (m * d.frHop) c v) (d.gainOf i c))

/-- A counter left alone where there is nothing to count reads as if 0 had been added. -/
theorem rdN_ite_cnt (d : Dev) (a n : Nat) : (if n = 0 then d else d.cnt a n).rdN a = min (d.rdN a + n) (2 ^ 64 - 1) := by
  split
  case isTrue h => rw [h, Nat.add_zero, Nat.min_eq_left (rdN_le d a)]
  case isFalse => exact rdN_cnt d a n

theorem front_ite_cnt (d : Dev) (a n : Nat) : (if n = 0 then d else d.cnt a n).front = d.front := by
  split
  · rfl
  · exact front_cnt d a n

/-- The hold keeps a code plus one, so that 0 says that no code was made. -/
theorem held_frChannel (d : Dev) (i : Nat) (x : FInput) (m c : Nat) (seg : Option Seg) (blanked : Bool) (v : Int × Int) :
    tget (fun _ => 0) (d.frChannel i x m c seg blanked v).front.held (frKey (m * 16384 + c) i) =
      (chanCode d i x m c seg blanked v).1 + 1 := by
  unfold Dev.frChannel
  dsimp only
  rw [front_ite_cnt, tget_tset_self]
  rfl

theorem reqSat_frChannel (d : Dev) (i : Nat) (x : FInput) (m c : Nat) (seg : Option Seg) (blanked : Bool) (v : Int × Int) :
    (d.frChannel i x m c seg blanked v).rdN (FR_REQ_SAT i) =
      min (d.rdN (FR_REQ_SAT i) + (chanCode d i x m c seg blanked v).2) (2 ^ 64 - 1) :=
  rdN_ite_cnt _ _ _

/-- Settles O48: symmetric saturation leaves out the pattern of the blank code (R115), and a channel that is not blanked holds and
counts what the requantiser gives. -/
theorem requantiserSaturates : Obligations.RequantiserSaturates := by
  intro c8 shift x _ top re im out
  have hclamp : ∀ y, clampI (-top) top y = max (-top) (min top y) := clampI_eq_max_min (neg_codeTop_le c8)
  refine ⟨?_, count_requantise c8 shift x, code_requantise_ne_blankCode c8 shift x, fun d i m c f seg v => ?_⟩
  · rw [← hclamp, ← hclamp]
    exact code_requantise c8 shift x
  · refine ⟨held_frChannel d i f m c seg false v, reqSat_frChannel d i f m c seg false v,
      held_frChannel d i f m c seg true v, ?_⟩
    rw [reqSat_frChannel]
    exact Nat.min_eq_left (rdN_le d _)

end Sys2Proof.Proofs
end

section
/-!
SUPPORT. Addresses in the compatibility state (R320): the update of a pointer, and the places of a personality's data addresses
(R332, R446, Table 15.1; log entry 61).
-/
namespace Sys2Proof.Proofs
open Sys2Proof.Machine Sys2Proof.Laws

/-! The update of a pointer. -/

/-- The step of an update mode as address generation takes it, before MOVEL's scale. -/
def modeStep (s : State) (c pn mode : Nat) : Int :=
  if mode = 1 then 1 else if mode = 2 then -1 else sext 24 (s.rv c (tD (s.core c)) (RC_N0 + pn))

theorem address_agu_of_coreCs {s : State} {c : Nat} (hcs : s.dev.coreCs c = true) (pn mode scale : Nat) :
    (agu c pn mode scale s).1 = s.rv c (tD (s.core c)) (RC_P0 + pn) % 2 ^ 16 :=
  if_pos hcs

theorem state_agu_mode_zero (c pn scale : Nat) (s : State) : (agu c pn 0 scale s).2 = s := rfl

theorem state_agu_of_mode_ne_zero (c pn scale : Nat) (s : State) {mode : Nat} (hmode : mode ≠ 0) :
    (agu c pn mode scale s).2 =
      s.rw c (tD (s.core c)) (RC_P0 + pn) (s.stepped c pn (modeStep s c pn mode * scale)) := by
  match mode, hmode with
  | 1, _ => rfl
  | 2, _ => rfl
  | n + 3, _ => simp [agu, modeStep]

/-- Bn and Ln are not read in the compatibility state (R320). -/
theorem stepped_of_coreCs {s : State} {c : Nat} (hcs : s.dev.coreCs c = true) (pn : Nat) (step : Int) :
    s.stepped c pn step = wrapN 16 (s.rv c (tD (s.core c)) (RC_P0 + pn) + step) :=
  if_pos hcs

/-! The place of a data address. -/

/-- The branch of the compatibility state: the native ranges and windows of R308 and R309 have no part in it. -/
theorem place_of_coreCs {s : State} {c : Nat} (hcs : s.dev.coreCs c = true) (y : Bool) (a : Nat) :
    s.place c y a =
      if y = false ∧ 0xFC00 ≤ a % 2 ^ 16 then .page (s.persOf c) (a % 2 ^ 16)
      else .word (s.localBase c (if y then 2 else 1) + 4 * (0x10000 * (s.core c).bank + a % 2 ^ 16)) := by
  simp [State.place, hcs]

/-- Every data address but the peripheral page of X space is a word of the bank's 64K words of its memory. -/
theorem place_word_of_coreCs {s : State} {c a : Nat} {y : Bool} (hcs : s.dev.coreCs c = true) (ha : a < 2 ^ 16)
    (hplain : y = true ∨ a < 0xFC00) :
    s.place c y a = .word (s.localBase c (if y then 2 else 1) + 4 * (0x10000 * (s.core c).bank + a)) := by
  have hno : ¬(y = false ∧ 0xFC00 ≤ a) := by
    rintro ⟨hx, hhigh⟩
    rcases hplain with hy | hlow
    · exact Bool.false_ne_true (hx.symm.trans hy)
    · exact Nat.not_le.mpr hlow hhigh
  rw [place_of_coreCs hcs, Nat.mod_eq_of_lt ha, if_neg hno]

/-- The top 1,024 X addresses are the peripheral page of the personality in use (R446). -/
theorem place_page_of_coreCs {s : State} {c a : Nat} (hcs : s.dev.coreCs c = true) (hhigh : 0xFC00 ≤ a) (ha : a < 2 ^ 16) :
    s.place c false a = .page (s.persOf c) a := by
  rw [place_of_coreCs hcs, Nat.mod_eq_of_lt ha, if_pos ⟨rfl, hhigh⟩]

/-- Settles O60: in the compatibility state an update wraps the sum at 16 bits whatever the mode, and a 16-bit data address is either
a word of the bank or, high in X space, one of its personality's page. -/
theorem compatAddresses : Obligations.CompatAddresses := by
  intro s c pn mode scale a y hcs _ t p step q
  refine ⟨address_agu_of_coreCs hcs pn mode scale, ?_, fun hmode => ⟨?_, ?_⟩,
    place_word_of_coreCs hcs, place_page_of_coreCs hcs⟩
  · rintro rfl
    exact state_agu_mode_zero c pn scale s
  · rw [state_agu_of_mode_ne_zero c pn scale s hmode, stepped_of_coreCs hcs]
    rfl
  · exact wrapN_lt 16 _

end Sys2Proof.Proofs
end

section
/-!
SUPPORT. The opcodes of the mailbox (R381, Table 12.13): the commands that firmware knows are those of the table's ranges, and the slot
at the front of the doorbell order with any other opcode is completed.
-/
namespace Sys2Proof.Proofs
open Sys2Proof.Machine Sys2Proof.Laws

/-! The opcodes that firmware carries out. -/

/-- The ranges of opcodes of Table 12.13, first and last, as `listedOp` gives them. -/
def tableRanges : List (Nat × Nat) :=
  [(0x0101, 0x010B), (0x0110, 0x0113), (0x0201, 0x020B), (0x0301, 0x0309), (0x0401, 0x040A), (0x0501, 0x0506), (0x0507, 0x050D),
   (0x0601, 0x0605), (0x0701, 0x0709), (0x0801, 0x080B), (0x0901, 0x0905), (0x0A01, 0x0A06), (0x0B01, 0x0B08), (0x0C01, 0x0C06),
   (0x0D01, 0x0D03)]

/-- The opcodes of the ranges, one by one. -/
def tableOps : List Nat := tableRanges.flatMap fun r => List.range' r.1 (r.2 + 1 - r.1)

theorem mem_range'_iff_between (a b x : Nat) : x ∈ List.range' a (b + 1 - a) ↔ a ≤ x ∧ x ≤ b := by
  rw [List.mem_range'_1]
  omega

theorem listedOp_iff_mem_tableOps (op : Nat) : listedOp op = true ↔ op ∈ tableOps := by
  have hany : listedOp op = tableRanges.any fun r => decide (r.1 ≤ op ∧ op ≤ r.2) := rfl
  simp only [hany, tableOps, List.any_eq_true, decide_eq_true_eq, List.mem_flatMap, mem_range'_iff_between]

/-- The commands stand in the order of the table, one for each of its opcodes. -/
theorem map_op_commands : commands.map CmdDef.op = tableOps := by decide

theorem isSome_cmdOf_iff_mem (op : Nat) : (cmdOf op).isSome = true ↔ op ∈ commands.map CmdDef.op := by
  simp only [cmdOf, List.find?_isSome, beq_iff_eq, List.mem_map]

/-- Firmware knows a command for exactly the listed opcodes (R381). -/
theorem isSome_cmdOf (op : Nat) : (cmdOf op).isSome = listedOp op := by
  rw [Bool.eq_iff_iff, isSome_cmdOf_iff_mem, map_op_commands, listedOp_iff_mem_tableOps]

theorem cmdOf_eq_none_of_unlisted {op : Nat} (h : listedOp op = false) : cmdOf op = none :=
  Option.not_isSome_iff_eq_none.mp (by rw [isSome_cmdOf, h]; exact Bool.false_ne_true)

/-! Taking up a slot that holds no command. -/

theorem exec_commandTakeUp (s0 s1 : Nat) (s : State) : exec (.commandTakeUp s0 s1) s = .next (takeUp s0 s1 s) := rfl

/-- A mailbox slot at the front whose opcode has no command is completed with BAD_OPCODE as soon as firmware serves the mailbox. -/
theorem takeUp_of_cmdOf_none {s : State} {k s0 s1 : Nat} (hfront : s.dev.host.fwq.head? = some k) (hslot : k ≤ SMB_SLOT)
    (hserved : s.dev.mailServed = true) (hnone : cmdOf (s.dev.readCmd k s0 s1).op = none) :
    takeUp s0 s1 s = finish (s.dev.readCmd k s0 s1) { code := .badOpcode } s := by
  have hmail : ¬ k ≥ 64 := Nat.not_le.mpr (Nat.lt_of_le_of_lt hslot (by decide))
  simp only [takeUp, hfront, if_neg hmail, hnone, if_pos hserved]

/-- Settles O54: the commands' opcodes are the table's one by one, so an opcode of none of its ranges finds no command. -/
theorem unlistedOpcodes : Obligations.UnlistedOpcodes := by
  refine ⟨isSome_cmdOf, fun s k s0 s1 hfront hslot hserved hunlisted => ?_⟩
  rw [exec_commandTakeUp, takeUp_of_cmdOf_none hfront hslot hserved (cmdOf_eq_none_of_unlisted hunlisted)]

end Sys2Proof.Proofs
end

section
/-!
SUPPORT. The error summary (R397): the bits of ERR_SUM as they are set and acknowledged, and what the summary, the interrupts and the
lease leave of ERRC.
-/
namespace Sys2Proof.Proofs
open Sys2Proof.Machine Sys2Proof.Laws

/-! What is kept of ERRC while the summary, the interrupts and the lease follow. -/

/-- The first registers of ERRC: ER_STAT, ER_FIRST and ER_HEAD stand there. -/
abbrev IsErrcReg (a : Nat) : Prop := ER_STAT ≤ a ∧ a < ER_STAT + 0x100

theorem isErrcReg_stat : IsErrcReg ER_STAT := by decide

theorem isErrcReg_first {k : Nat} (hk : k < 4) : IsErrcReg (ER_FIRST k) := by
  unfold IsErrcReg ER_FIRST ER_STAT
  omega

theorem isErrcReg_head {k : Nat} (hk : k < 4) : IsErrcReg (ER_HEAD k) := by
  unfold IsErrcReg ER_HEAD ER_STAT
  omega

/-- `e` holds the error queue, the sequence counter and the registers of ERRC of `d`. -/
structure ErrcKept (d e : Dev) : Prop where
  errq : e.errq = d.errq
  errSeq : e.errSeq = d.errSeq
  rd : ∀ a, IsErrcReg a → e.rd a = d.rd a

theorem ErrcKept.refl (d : Dev) : ErrcKept d d := ⟨rfl, rfl, fun _ _ => rfl⟩

theorem ErrcKept.trans {d e g : Dev} (h : ErrcKept d e) (h' : ErrcKept e g) : ErrcKept d g :=
  ⟨h'.errq.trans h.errq, h'.errSeq.trans h.errSeq, fun a ha => (h'.rd a ha).trans (h.rd a ha)⟩

theorem ErrcKept.f {d e : Dev} (h : ErrcKept d e) (g : Fld) : e.f ER_STAT g = d.f ER_STAT g :=
  congrArg (getF g) (h.rd ER_STAT isErrcReg_stat)

theorem ErrcKept.on {d e : Dev} (h : ErrcKept d e) (g : Fld) : e.on ER_STAT g = d.on ER_STAT g :=
  congrArg (· == 1) (h.f g)

theorem ErrcKept.rdN {d e : Dev} (h : ErrcKept d e) {a : Nat} (ha : IsErrcReg a) : e.rdN a = d.rdN a :=
  congrArg BitVec.toNat (h.rd a ha)

theorem errcKept_setF (d : Dev) {a : Nat} (f : Fld) (v : Nat) (ha : ¬ IsErrcReg a) : ErrcKept d (d.setF a f v) :=
  ⟨rfl, rfl, fun _ hb => rd_setF_ne d f v fun h => ha (h ▸ hb)⟩

/-- A cause of an interrupt changes at most the host interface and what was sent. -/
theorem cause_eq (d : Dev) (v : Nat) : ∃ h o, d.cause v = { d with host := h, out := o } := by
  unfold Dev.cause
  dsimp only
  split
  · exact ⟨_, _, rfl⟩
  · split
    · exact ⟨_, _, rfl⟩
    · split
      · exact ⟨_, _, rfl⟩
      · split <;> exact ⟨_, _, rfl⟩

theorem rd_cause (d : Dev) (v a : Nat) : (d.cause v).rd a = d.rd a := by
  obtain ⟨h, o, heq⟩ := cause_eq d v
  rw [heq]
  rfl

theorem errcKept_cause (d : Dev) (v : Nat) : ErrcKept d (d.cause v) := by
  obtain ⟨h, o, heq⟩ := cause_eq d v
  rw [heq]
  exact ⟨rfl, rfl, fun _ _ => rfl⟩

/-- A reported field either has its value already or takes it, with its cause noted. -/
theorem setStat_eq (d : Dev) (f : Fld) (v : Nat) :
    d.setStat f v = d ∨
      ∃ h o, d.setStat f v = { (d.setF DEVSTAT f v).setF INT_CAUSE INT_CAUSE_STATE 1 with host := h, out := o } := by
  obtain ⟨h, o, heq⟩ := cause_eq ((d.setF DEVSTAT f v).setF INT_CAUSE INT_CAUSE_STATE 1) 2
  unfold Dev.setStat
  dsimp only
  rw [heq]
  split
  · exact .inl rfl
  · split <;> exact .inr ⟨_, _, rfl⟩

theorem errcKept_setStat (d : Dev) (f : Fld) (v : Nat) : ErrcKept d (d.setStat f v) := by
  obtain heq | ⟨h, o, heq⟩ := setStat_eq d f v
  · rw [heq]
    exact .refl d
  · rw [heq]
    have hkept := (errcKept_setF d f v (a := DEVSTAT) (by decide)).trans
      (errcKept_setF _ INT_CAUSE_STATE 1 (a := INT_CAUSE) (by decide))
    exact ⟨hkept.errq, hkept.errSeq, hkept.rd⟩

theorem f_setStat_ne (d : Dev) {f g : Fld} (v : Nat) (hf : FldOk f) (hd : g.hi < f.lo ∨ f.hi < g.lo) :
    (d.setStat f v).f DEVSTAT g = d.f DEVSTAT g := by
  obtain heq | ⟨h, o, heq⟩ := setStat_eq d f v
  · rw [heq]
  · rw [heq]
    exact (f_setF_reg _ INT_CAUSE_STATE g 1 (by decide)).trans (f_setF_ne d DEVSTAT f g hf hd v)

/-- The lease may lose its holder, and its state is reported in LS_STAT and DEVSTAT. -/
theorem syncLease_eq (d : Dev) :
    ∃ tw v, d.syncLease = (({ d with twin := tw } : Dev).setF LS_STAT LS_STAT_STATE v).setStat DEVSTAT_LEASE v := by
  unfold Dev.syncLease
  split <;> exact ⟨_, _, rfl⟩

theorem errcKept_syncLease (d : Dev) : ErrcKept d d.syncLease := by
  obtain ⟨tw, v, heq⟩ := syncLease_eq d
  rw [heq]
  have htwin : ErrcKept d { d with twin := tw } := ⟨rfl, rfl, fun _ _ => rfl⟩
  exact (htwin.trans (errcKept_setF _ _ _ (by decide))).trans (errcKept_setStat _ _ _)

theorem f_errSum_syncLease (d : Dev) : d.syncLease.f DEVSTAT DEVSTAT_ERR_SUM = d.f DEVSTAT DEVSTAT_ERR_SUM := by
  obtain ⟨tw, v, heq⟩ := syncLease_eq d
  rw [heq, f_setStat_ne _ v ⟨by decide, by decide⟩ (by decide)]
  exact f_setF_reg _ LS_STAT_STATE DEVSTAT_ERR_SUM v (by decide)

theorem errcKept_errSum (d : Dev) (b : Nat) : ErrcKept d (d.errSum b) := by
  unfold Dev.errSum
  dsimp only
  split
  · exact .refl d
  · have hset := ((errcKept_setF d DEVSTAT_ERR_SUM (d.f DEVSTAT DEVSTAT_ERR_SUM ||| 2 ^ b) (a := DEVSTAT) (by decide)).trans
      (errcKept_setF _ INT_CAUSE_ERR 1 (a := INT_CAUSE) (by decide))).trans (errcKept_cause _ 3)
    split
    · exact hset.trans (errcKept_syncLease _)
    · exact hset

/-! The bits of ERR_SUM. -/

theorem bit_setErrSum (d : Dev) (v : Nat) {i : Nat} (hi : i < 8) :
    bit ((d.setF DEVSTAT DEVSTAT_ERR_SUM v).f DEVSTAT DEVSTAT_ERR_SUM) i = bit v i := by
  have hf : (d.setF DEVSTAT DEVSTAT_ERR_SUM v).f DEVSTAT DEVSTAT_ERR_SUM = v % 2 ^ 8 :=
    f_setF d DEVSTAT DEVSTAT_ERR_SUM ⟨by decide, by decide⟩ v
  rw [hf, bit, Nat.testBit_mod_two_pow, decide_eq_true hi, Bool.true_and]
  rfl

/-- A bit not set yet is written; the cause noted, the interrupt and the lease leave ERR_SUM as written. -/
theorem f_errSum_of_clear {d : Dev} {b : Nat} (h : bit (d.f DEVSTAT DEVSTAT_ERR_SUM) b = false) :
    (d.errSum b).f DEVSTAT DEVSTAT_ERR_SUM =
      (d.setF DEVSTAT DEVSTAT_ERR_SUM (d.f DEVSTAT DEVSTAT_ERR_SUM ||| 2 ^ b)).f DEVSTAT DEVSTAT_ERR_SUM := by
  have hnote : ∀ e : Dev, ((e.setF INT_CAUSE INT_CAUSE_ERR 1).cause 3).f DEVSTAT DEVSTAT_ERR_SUM = e.f DEVSTAT DEVSTAT_ERR_SUM :=
    fun e => (congrArg (getF DEVSTAT_ERR_SUM) (rd_cause _ 3 DEVSTAT)).trans (f_setF_reg e INT_CAUSE_ERR DEVSTAT_ERR_SUM 1 (by decide))
  unfold Dev.errSum
  dsimp only
  rw [if_neg (Bool.eq_false_iff.mp h)]
  split
  · rw [f_errSum_syncLease, hnote]
  · exact hnote _

/-- Setting a bit of ERR_SUM sets it and clears none. -/
theorem bit_errSum (d : Dev) (b : Nat) {i : Nat} (hi : i < 8) :
    bit ((d.errSum b).f DEVSTAT DEVSTAT_ERR_SUM) i = (bit (d.f DEVSTAT DEVSTAT_ERR_SUM) i || b == i) := by
  cases hset : bit (d.f DEVSTAT DEVSTAT_ERR_SUM) b with
  | true =>
    have hsame : d.errSum b = d := if_pos hset
    rw [hsame]
    by_cases h : b = i
    · rw [← h, hset, Bool.true_or]
    · rw [beq_false_of_ne h, Bool.or_false]
  | false =>
    rw [f_errSum_of_clear hset, bit_setErrSum d _ hi, bit, Nat.testBit_or, Nat.testBit_two_pow]
    rfl

/-- The bits that ERR_ACK may not clear: bit 0 while an entry waits, bit 4 while LOST is set. -/
theorem testBit_ackKeep (empty lost : Bool) {i : Nat} (hi : i < 8) :
    ((if empty then 0 else 1) + (if lost then 2 ^ 4 else 0)).testBit i = ((i == 0 && !empty) || (i == 4 && lost)) := by
  revert empty lost i
  decide

theorem testBit_ackMask (mask : Nat) {i : Nat} (hi : i < 8) : (0xFF ^^^ (mask % 256)).testBit i = !bit mask i := by
  rw [Nat.testBit_xor, Nat.testBit_mod_two_pow mask 8, Nat.testBit_two_pow_sub_one 8, decide_eq_true hi, Bool.true_and, Bool.true_xor]
  rfl

theorem bit_errAck (d : Dev) (mask : Nat) {i : Nat} (hi : i < 8) :
    bit ((d.errAck mask).f DEVSTAT DEVSTAT_ERR_SUM) i =
      (bit (d.f DEVSTAT DEVSTAT_ERR_SUM) i &&
        (!bit mask i || (i == 0 && !d.errq.isEmpty) || (i == 4 && d.on ER_STAT ER_STAT_LOST))) := by
  unfold Dev.errAck
  dsimp only
  rw [f_errSum_syncLease, bit_setErrSum d _ hi, bit, Nat.testBit_and, Nat.testBit_or, testBit_ackMask mask hi,
    testBit_ackKeep _ _ hi, ← Bool.or_assoc]
  rfl

end Sys2Proof.Proofs
end

section
/-!
SUPPORT. The entry that an event makes in ERRC (R395, R397): the first-error record, the place in the queue, and the whole of raising it.
-/
namespace Sys2Proof.Proofs
open Sys2Proof.Machine Sys2Proof.Laws

/-! Entries written to registers. -/

/-- Four words written to the four registers of an entry. -/
def wrEntry (d : Dev) (r : Nat → Nat) (ws : List Nat) : Dev :=
  (((d.wrN (r 0) (ws.getD 0 0)).wrN (r 1) (ws.getD 1 0)).wrN (r 2) (ws.getD 2 0)).wrN (r 3) (ws.getD 3 0)

theorem rdN_wrEntry (d : Dev) {r : Nat → Nat} (hr : r.Injective) (ws : List Nat) {k : Nat} (hk : k < 4) :
    (wrEntry d r ws).rdN (r k) = ws.getD k 0 % 2 ^ 64 := by
  have hcases : k = 0 ∨ k = 1 ∨ k = 2 ∨ k = 3 := by omega
  rcases hcases with rfl | rfl | rfl | rfl <;> simp [wrEntry, rdN_wrN, hr.eq_iff]

theorem rd_wrEntry_ne (d : Dev) {r : Nat → Nat} (ws : List Nat) {a : Nat} (ha : ∀ k < 4, r k ≠ a) :
    (wrEntry d r ws).rd a = d.rd a := by
  simp [wrEntry, Dev.wrN, rd_wr, ha]

theorem errq_wrEntry (d : Dev) (r : Nat → Nat) (ws : List Nat) : (wrEntry d r ws).errq = d.errq := by
  simp only [wrEntry, errq_wrN]

theorem errSeq_wrEntry (d : Dev) (r : Nat → Nat) (ws : List Nat) : (wrEntry d r ws).errSeq = d.errSeq := by
  simp only [wrEntry, errSeq_wrN]

theorem injective_first : ER_FIRST.Injective := fun i j h => by
  unfold ER_FIRST at h
  omega

theorem injective_head : ER_HEAD.Injective := fun i j h => by
  unfold ER_HEAD at h
  omega

theorem head_ne_first {i j : Nat} (hj : j < 4) : ER_HEAD i ≠ ER_FIRST j := by
  unfold ER_HEAD ER_FIRST
  omega

theorem first_ne_stat {k : Nat} : ER_FIRST k ≠ ER_STAT := by
  unfold ER_FIRST ER_STAT
  omega

theorem head_ne_stat {k : Nat} : ER_HEAD k ≠ ER_STAT := by
  unfold ER_HEAD ER_STAT
  omega

theorem f_wrEntry_stat (d : Dev) {r : Nat → Nat} (ws : List Nat) (hr : ∀ k < 4, r k ≠ ER_STAT) (g : Fld) :
    (wrEntry d r ws).f ER_STAT g = d.f ER_STAT g :=
  congrArg (getF g) (rd_wrEntry_ne d ws hr)

theorem syncHead_eq (d : Dev) :
    d.syncHead = (wrEntry d ER_HEAD ((d.errq.head?.map ErrEntry.words).getD [])).setF ER_STAT ER_STAT_DEPTH d.errq.length := by
  unfold Dev.syncHead
  cases d.errq <;> rfl

theorem noteFirst_of_first {d : Dev} (e : ErrEntry) (h : d.on ER_STAT ER_STAT_FIRST_VALID = false) :
    d.noteFirst e = (wrEntry d ER_FIRST e.words).setF ER_STAT ER_STAT_FIRST_VALID 1 :=
  if_neg (Bool.eq_false_iff.mp h)

theorem noteFirst_of_later {d : Dev} (e : ErrEntry) (h : d.on ER_STAT ER_STAT_FIRST_VALID = true) :
    d.noteFirst e = d.cntF ER_STAT ER_STAT_LATER 1 :=
  if_pos h

/-! The first-error record. -/

/-- The record is made of registers alone. -/
theorem errq_errSeq_noteFirst (d : Dev) (e : ErrEntry) : (d.noteFirst e).errq = d.errq ∧ (d.noteFirst e).errSeq = d.errSeq := by
  cases h : d.on ER_STAT ER_STAT_FIRST_VALID with
  | true => rw [noteFirst_of_later e h, errq_cntF, errSeq_cntF]; exact ⟨rfl, rfl⟩
  | false => rw [noteFirst_of_first e h, errq_setF, errSeq_setF, errq_wrEntry, errSeq_wrEntry]; exact ⟨rfl, rfl⟩

theorem rd_noteFirst_ne (d : Dev) (e : ErrEntry) {a : Nat} (hstat : ER_STAT ≠ a) (hfirst : ∀ k < 4, ER_FIRST k ≠ a) :
    (d.noteFirst e).rd a = d.rd a := by
  cases h : d.on ER_STAT ER_STAT_FIRST_VALID with
  | true => rw [noteFirst_of_later e h, Dev.cntF, rd_setF_ne _ _ _ hstat]
  | false => rw [noteFirst_of_first e h, rd_setF_ne _ _ _ hstat, rd_wrEntry_ne _ _ hfirst]

/-- The first-error record has no part in LOST and LOST_CNT. -/
theorem f_noteFirst_lost (d : Dev) (e : ErrEntry) {g : Fld} (hg : g = ER_STAT_LOST ∨ g = ER_STAT_LOST_CNT) :
    (d.noteFirst e).f ER_STAT g = d.f ER_STAT g := by
  have hlater : g.hi < ER_STAT_LATER.lo := by rcases hg with rfl | rfl <;> decide
  have hvalid : ER_STAT_FIRST_VALID.hi < g.lo := by rcases hg with rfl | rfl <;> decide
  cases h : d.on ER_STAT ER_STAT_FIRST_VALID with
  | true => rw [noteFirst_of_later e h, Dev.cntF, f_setF_ne _ _ _ _ ⟨by decide, by decide⟩ (.inl hlater)]
  | false =>
    rw [noteFirst_of_first e h, f_setF_ne _ _ _ _ ⟨by decide, by decide⟩ (.inr hvalid), f_wrEntry_stat _ _ fun _ _ => first_ne_stat]

/-- With a first error on record, an entry adds one to LATER and leaves ER_FIRST (R395). -/
theorem noteFirst_later {d : Dev} (e : ErrEntry) (h : d.on ER_STAT ER_STAT_FIRST_VALID = true) :
    (d.noteFirst e).on ER_STAT ER_STAT_FIRST_VALID = true ∧
      (d.noteFirst e).f ER_STAT ER_STAT_LATER = min (d.f ER_STAT ER_STAT_LATER + 1) 0xFFFFFFFF ∧
      ∀ k, (d.noteFirst e).rdN (ER_FIRST k) = d.rdN (ER_FIRST k) := by
  rw [noteFirst_of_later e h]
  refine ⟨?_, f_cntF d ER_STAT ER_STAT_LATER ⟨by decide, by decide⟩ 1, fun k => ?_⟩
  · rw [Dev.on, Dev.cntF, f_setF_ne _ _ _ _ ⟨by decide, by decide⟩ (by decide)]
    exact h
  · rw [Dev.rdN, Dev.cntF, rd_setF_ne _ _ _ first_ne_stat.symm]
    rfl

/-- With no first error on record, an entry becomes it (R395). -/
theorem noteFirst_first {d : Dev} (e : ErrEntry) (h : d.on ER_STAT ER_STAT_FIRST_VALID = false) :
    (d.noteFirst e).on ER_STAT ER_STAT_FIRST_VALID = true ∧
      (d.noteFirst e).f ER_STAT ER_STAT_LATER = d.f ER_STAT ER_STAT_LATER ∧
      ∀ k < 4, (d.noteFirst e).rdN (ER_FIRST k) = e.words.getD k 0 % 2 ^ 64 := by
  rw [noteFirst_of_first e h]
  refine ⟨?_, ?_, fun k hk => ?_⟩
  · rw [Dev.on, f_setF _ _ _ ⟨by decide, by decide⟩]
    rfl
  · rw [f_setF_ne _ _ _ _ ⟨by decide, by decide⟩ (by decide), f_wrEntry_stat _ _ fun _ _ => first_ne_stat]
  · rw [Dev.rdN, rd_setF_ne _ _ _ first_ne_stat.symm]
    exact rdN_wrEntry d injective_first e.words hk

/-! The place in the queue. -/

/-- The device with an entry queued, or lost where 16 wait (R395). -/
def placed (d : Dev) (e : ErrEntry) : Dev :=
  if d.errq.length < 16 then ({ d with errq := d.errq ++ [e] } : Dev).syncHead
  else (d.setF ER_STAT ER_STAT_LOST 1).cntF ER_STAT ER_STAT_LOST_CNT 1

theorem placed_of_room {d : Dev} (e : ErrEntry) (h : d.errq.length < 16) :
    placed d e = ({ d with errq := d.errq ++ [e] } : Dev).syncHead := if_pos h

theorem placed_of_full {d : Dev} (e : ErrEntry) (h : 16 ≤ d.errq.length) :
    placed d e = (d.setF ER_STAT ER_STAT_LOST 1).cntF ER_STAT ER_STAT_LOST_CNT 1 := if_neg (Nat.not_lt.mpr h)

theorem errq_placed_of_room {d : Dev} (e : ErrEntry) (h : d.errq.length < 16) : (placed d e).errq = d.errq ++ [e] := by
  rw [placed_of_room e h, syncHead_eq, errq_setF, errq_wrEntry]

theorem errq_placed_of_full {d : Dev} (e : ErrEntry) (h : 16 ≤ d.errq.length) : (placed d e).errq = d.errq := by
  rw [placed_of_full e h, errq_cntF, errq_setF]

theorem errSeq_placed (d : Dev) (e : ErrEntry) : (placed d e).errSeq = d.errSeq := by
  unfold placed
  split
  · rw [syncHead_eq, errSeq_setF, errSeq_wrEntry]
  · rw [errSeq_cntF, errSeq_setF]

theorem rd_placed_ne (d : Dev) (e : ErrEntry) {a : Nat} (hstat : ER_STAT ≠ a) (hhead : ∀ k < 4, ER_HEAD k ≠ a) :
    (placed d e).rd a = d.rd a := by
  unfold placed
  split
  · rw [syncHead_eq, rd_setF_ne _ _ _ hstat, rd_wrEntry_ne _ _ hhead]
    rfl
  · rw [Dev.cntF, rd_setF_ne _ _ _ hstat, rd_setF_ne _ _ _ hstat]

/-- A field other than DEPTH keeps its value as an entry is queued. -/
theorem f_placed_of_room {d : Dev} (e : ErrEntry) (h : d.errq.length < 16) {g : Fld} (hg : ER_STAT_DEPTH.hi < g.lo) :
    (placed d e).f ER_STAT g = d.f ER_STAT g := by
  rw [placed_of_room e h, syncHead_eq, f_setF_ne _ _ _ _ ⟨by decide, by decide⟩ (.inr hg), f_wrEntry_stat _ _ fun _ _ => head_ne_stat]
  rfl

theorem depth_placed_of_room {d : Dev} (e : ErrEntry) (h : d.errq.length < 16) :
    (placed d e).f ER_STAT ER_STAT_DEPTH = d.errq.length + 1 := by
  rw [placed_of_room e h, syncHead_eq, f_setF _ _ _ ⟨by decide, by decide⟩, List.length_append, List.length_singleton]
  exact Nat.mod_eq_of_lt (Nat.lt_of_le_of_lt h (by decide))

/-- ER_HEAD holds the oldest entry once an entry is queued (R396). -/
theorem head_placed_of_room {d : Dev} (e : ErrEntry) (h : d.errq.length < 16) {k : Nat} (hk : k < 4) :
    (placed d e).rdN (ER_HEAD k) = (((placed d e).errq.head?.map ErrEntry.words).getD []).getD k 0 % 2 ^ 64 := by
  rw [errq_placed_of_room e h, placed_of_room e h, syncHead_eq, Dev.rdN, rd_setF_ne _ _ _ head_ne_stat.symm]
  exact rdN_wrEntry _ injective_head _ hk

theorem lost_placed_of_full {d : Dev} (e : ErrEntry) (h : 16 ≤ d.errq.length) : (placed d e).f ER_STAT ER_STAT_LOST = 1 := by
  rw [placed_of_full e h, Dev.cntF, f_setF_ne _ _ _ _ ⟨by decide, by decide⟩ (by decide)]
  exact f_setF d ER_STAT ER_STAT_LOST ⟨by decide, by decide⟩ 1

theorem lostCnt_placed_of_full {d : Dev} (e : ErrEntry) (h : 16 ≤ d.errq.length) :
    (placed d e).f ER_STAT ER_STAT_LOST_CNT = min (d.f ER_STAT ER_STAT_LOST_CNT + 1) 0xFFFF := by
  rw [placed_of_full e h, f_cntF _ _ _ ⟨by decide, by decide⟩, f_setF_ne _ _ _ _ ⟨by decide, by decide⟩ (by decide)]
  rfl

/-- The queue has no part in the first-error record. -/
theorem f_placed_first (d : Dev) (e : ErrEntry) {g : Fld} (hg : g = ER_STAT_FIRST_VALID ∨ g = ER_STAT_LATER) :
    (placed d e).f ER_STAT g = d.f ER_STAT g := by
  have hdepth : ER_STAT_DEPTH.hi < g.lo := by rcases hg with rfl | rfl <;> decide
  have hlost : g.hi < ER_STAT_LOST.lo ∨ ER_STAT_LOST.hi < g.lo := by rcases hg with rfl | rfl <;> decide
  have hcnt : g.hi < ER_STAT_LOST_CNT.lo ∨ ER_STAT_LOST_CNT.hi < g.lo := by rcases hg with rfl | rfl <;> decide
  rcases Nat.lt_or_ge d.errq.length 16 with h | h
  · exact f_placed_of_room e h hdepth
  · rw [placed_of_full e h, Dev.cntF, f_setF_ne _ _ _ _ ⟨by decide, by decide⟩ hcnt,
      f_setF_ne _ _ _ _ ⟨by decide, by decide⟩ hlost]

/-! Raising an entry. -/

/-- The ERR_SUM bit listed against a code. -/
def listedBit (code : Nat) : Option Nat := (errTable.find? fun r => r.1 == code).bind fun r => r.2.2

/-- The device once an entry has taken the next SEQ and is in the first-error record. -/
def noted (d : Dev) (e : ErrEntry) : Dev := ({ d with errSeq := d.errSeq + 1 } : Dev).noteFirst e

theorem errq_noted (d : Dev) (e : ErrEntry) : (noted d e).errq = d.errq := (errq_errSeq_noteFirst _ e).1

theorem f_noted_lost (d : Dev) (e : ErrEntry) {g : Fld} (hg : g = ER_STAT_LOST ∨ g = ER_STAT_LOST_CNT) :
    (noted d e).f ER_STAT g = d.f ER_STAT g := f_noteFirst_lost _ e hg

/-- The device once the entry is in its place as well. -/
def recorded (d : Dev) (e : ErrEntry) : Dev := placed (noted d e) e

theorem errSeq_recorded (d : Dev) (e : ErrEntry) : (recorded d e).errSeq = d.errSeq + 1 :=
  (errSeq_placed _ e).trans (errq_errSeq_noteFirst _ e).2

/-- The ERR_SUM bit of the place that an entry finds: 0 queued, 4 lost (R397). -/
def placeBit (d : Dev) : Nat := if d.errq.length < 16 then 0 else 4

theorem place_errSum_eq (d : Dev) (e : ErrEntry) :
    (if d.errq.length < 16 then ({ d with errq := d.errq ++ [e] } : Dev).syncHead.errSum 0
      else ((d.setF ER_STAT ER_STAT_LOST 1).cntF ER_STAT ER_STAT_LOST_CNT 1).errSum 4) = (placed d e).errSum (placeBit d) := by
  unfold placed placeBit
  split <;> rfl

/-- Raising an entry records it, sets the bit of its place and then the bit of its code. -/
theorem raise_eq (d : Dev) (code inst addr info : Nat) :
    d.raise code inst addr info =
      (listedBit code).elim ((recorded d (d.errEntry code inst addr info)).errSum (placeBit d))
        ((recorded d (d.errEntry code inst addr info)).errSum (placeBit d)).errSum := by
  have hbit : placeBit (noted d (d.errEntry code inst addr info)) = placeBit d := by
    rw [placeBit, errq_noted, placeBit]
  have hplace := place_errSum_eq (noted d (d.errEntry code inst addr info)) (d.errEntry code inst addr info)
  rw [hbit] at hplace
  unfold Dev.raise listedBit
  cases errTable.find? fun r => r.1 == code with
  | none => exact hplace
  | some r =>
    obtain ⟨_, _, _ | b⟩ := r
    · exact hplace
    · exact congrArg (Dev.errSum · b) hplace

/-- The bits of ERR_SUM change nothing in ERRC. -/
theorem errcKept_raise (d : Dev) (code inst addr info : Nat) :
    ErrcKept (recorded d (d.errEntry code inst addr info)) (d.raise code inst addr info) := by
  rw [raise_eq]
  have hplace := errcKept_errSum (recorded d (d.errEntry code inst addr info)) (placeBit d)
  cases listedBit code with
  | none => exact hplace
  | some b => exact hplace.trans (errcKept_errSum _ b)

/-- Recording an entry does not reach ERR_SUM. -/
theorem rd_recorded_devstat (d : Dev) (e : ErrEntry) : (recorded d e).rd DEVSTAT = d.rd DEVSTAT := by
  have hhead : ∀ k < 4, ER_HEAD k ≠ DEVSTAT := by decide
  have hfirst : ∀ k < 4, ER_FIRST k ≠ DEVSTAT := by decide
  rw [recorded, rd_placed_ne _ e (by decide) hhead, noted, rd_noteFirst_ne _ e (by decide) hfirst]
  rfl

theorem bit_placeBit (d : Dev) (i : Nat) :
    (placeBit d == i) = ((i == 0 && decide (d.errq.length < 16)) || (i == 4 && decide (16 ≤ d.errq.length))) := by
  rcases Nat.lt_or_ge d.errq.length 16 with h | h
  · rw [placeBit, if_pos h, decide_eq_true h, decide_eq_false (Nat.not_le.mpr h), Bool.and_true, Bool.and_false, Bool.or_false, BEq.comm]
  · rw [placeBit, if_neg (Nat.not_lt.mpr h), decide_eq_true h, decide_eq_false (Nat.not_lt.mpr h), Bool.and_true, Bool.and_false,
      Bool.false_or, BEq.comm]

theorem bit_raise (d : Dev) (code inst addr info : Nat) {i : Nat} (hi : i < 8) :
    bit ((d.raise code inst addr info).f DEVSTAT DEVSTAT_ERR_SUM) i =
      (bit (d.f DEVSTAT DEVSTAT_ERR_SUM) i || listedBit code == some i || placeBit d == i) := by
  have hplace : bit (((recorded d (d.errEntry code inst addr info)).errSum (placeBit d)).f DEVSTAT DEVSTAT_ERR_SUM) i =
      (bit (d.f DEVSTAT DEVSTAT_ERR_SUM) i || placeBit d == i) := by
    rw [bit_errSum _ _ hi, Dev.f, rd_recorded_devstat]
    rfl
  rw [raise_eq]
  cases listedBit code with
  | none => exact hplace.trans (by rw [beq_false_of_ne (nofun : none ≠ some i), Bool.or_false])
  | some b =>
    rw [Option.elim_some, bit_errSum _ _ hi, hplace, Bool.or_right_comm]
    rfl

/-- Settles O50: raising an entry sets the bits of its code and of its place, and ERR_ACK keeps a bit that it does not name or may not
clear. -/
theorem errorSummaryBits : Obligations.ErrorSummaryBits := by
  intro d code inst addr info mask i hi v listed
  refine ⟨?_, bit_errAck d mask hi⟩
  rw [bit_raise d code inst addr info hi, bit_placeBit, ← Bool.or_assoc]
  rfl

/-! The entry raised. -/

theorem f_recorded_first (d : Dev) (e : ErrEntry) {g : Fld} (hg : g = ER_STAT_FIRST_VALID ∨ g = ER_STAT_LATER) :
    (recorded d e).f ER_STAT g = (noted d e).f ER_STAT g := f_placed_first _ e hg

theorem on_recorded_valid (d : Dev) (e : ErrEntry) :
    (recorded d e).on ER_STAT ER_STAT_FIRST_VALID = (noted d e).on ER_STAT ER_STAT_FIRST_VALID :=
  congrArg (· == 1) (f_recorded_first d e (.inl rfl))

theorem rdN_recorded_first (d : Dev) (e : ErrEntry) {k : Nat} (hk : k < 4) :
    (recorded d e).rdN (ER_FIRST k) = (noted d e).rdN (ER_FIRST k) :=
  congrArg BitVec.toNat (rd_placed_ne _ e first_ne_stat.symm fun _ _ => head_ne_first hk)

/-- Settles O49: the entry is noted as the first error and placed in the queue, and what follows in ERR_SUM, the interrupts and the
lease leaves both as they are. -/
theorem errorEntriesQueue : Obligations.ErrorEntriesQueue := by
  intro d code inst addr info e t
  have hkept : ErrcKept (recorded d e) t := errcKept_raise d code inst addr info
  have hlen : (noted d e).errq.length = d.errq.length := congrArg List.length (errq_noted d e)
  have hfirst : ∀ {k}, k < 4 → t.rdN (ER_FIRST k) = (noted d e).rdN (ER_FIRST k) := fun hk =>
    (hkept.rdN (isErrcReg_first hk)).trans (rdN_recorded_first d e hk)
  have hvalid : t.on ER_STAT ER_STAT_FIRST_VALID = (noted d e).on ER_STAT ER_STAT_FIRST_VALID :=
    (hkept.on _).trans (on_recorded_valid d e)
  have hlater : t.f ER_STAT ER_STAT_LATER = (noted d e).f ER_STAT ER_STAT_LATER :=
    (hkept.f _).trans (f_recorded_first d e (.inr rfl))
  refine ⟨⟨rfl, rfl, rfl, rfl, rfl, rfl, rfl, rfl, hkept.errSeq.trans (errSeq_recorded d e)⟩, fun hroom => ?_, fun hfull => ?_,
    fun hset => ?_, fun hclear => ?_⟩
  · have hroom' : (noted d e).errq.length < 16 := hlen ▸ hroom
    refine ⟨?_, ?_, ?_, ?_, fun k hk => ?_⟩
    · rw [hkept.errq, recorded, errq_placed_of_room e hroom', errq_noted]
    · rw [hkept.f, recorded, f_placed_of_room e hroom' (by decide), f_noted_lost d e (.inl rfl)]
    · rw [hkept.f, recorded, f_placed_of_room e hroom' (by decide), f_noted_lost d e (.inr rfl)]
    · rw [hkept.f, recorded, depth_placed_of_room e hroom', hlen]
    · rw [hkept.rdN (isErrcReg_head hk), hkept.errq]
      exact head_placed_of_room e hroom' hk
  · have hfull' : 16 ≤ (noted d e).errq.length := hlen ▸ hfull
    refine ⟨?_, ?_, ?_⟩
    · rw [hkept.errq, recorded, errq_placed_of_full e hfull', errq_noted]
    · rw [hkept.f, recorded, lost_placed_of_full e hfull']
    · rw [hkept.f, recorded, lostCnt_placed_of_full e hfull', f_noted_lost d e (.inr rfl)]
  · obtain ⟨hon, hcount, hwords⟩ := noteFirst_later (d := { d with errSeq := d.errSeq + 1 }) e hset
    exact ⟨hvalid.trans hon, hlater.trans hcount, fun k hk => (hfirst hk).trans (hwords k)⟩
  · obtain ⟨hon, hcount, hwords⟩ := noteFirst_first (d := { d with errSeq := d.errSeq + 1 }) e hclear
    exact ⟨hvalid.trans hon, hlater.trans hcount, fun k hk => (hfirst hk).trans (hwords k hk)⟩

end Sys2Proof.Proofs
end

section
/-!
SUPPORT. Retained state across a power failure (R465, R466, R470): which slot a boot selects, what a power failure leaves in the slots, and
the erase that RESTORE begins.
-/
namespace Sys2Proof.Proofs
open Sys2Proof.Machine Sys2Proof.Laws

/-! The selection of R465. -/

theorem serialDiff_next (h : Nat) : serialDiff ((h + 1) % 2 ^ 32) h 32 = 1 :=
  serialDiff_eq_of_dvd (by decide) (by decide) (by decide) (by omega)

theorem later_next (h : Nat) : later ((h + 1) % 2 ^ 32) h 32 = true := by
  rw [later_iff, serialDiff_next]
  decide

theorem not_later_next (h : Nat) : later h ((h + 1) % 2 ^ 32) 32 = false := by
  have hdiff : serialDiff h ((h + 1) % 2 ^ 32) 32 = -1 := by
    rw [serialDiff_swap_of_ne_half (by decide) (by rw [serialDiff_next]; decide), serialDiff_next]
  rw [later, hdiff]
  rfl

/-- Slot `b` holds `img` under generation `g`, and a valid slot beside it has the generation before. -/
structure Newest (f : Flash) (b : Bool) (g c : Nat) (img : Retained) : Prop where
  slot : f.slot b = .ok g c img
  next : ∀ h, (f.slot !b).gen? = some h → g = (h + 1) % 2 ^ 32

theorem Newest.pick {f : Flash} {b : Bool} {g c : Nat} {img : Retained} (hn : Newest f b g c img) :
    f.pick.1 = true ∧ f.pick.2.1 = b := by
  obtain ⟨hslot, hnext⟩ := hn
  cases b with
  | false =>
    have hslot0 : f.slot0.gen? = some g := congrArg RSlot.gen? hslot
    cases hslot1 : f.slot1.gen? with
    | none => simp [Flash.pick, hslot0, hslot1]
    | some h =>
      have hg : g = (h + 1) % 2 ^ 32 := hnext h hslot1
      simp only [Flash.pick, hslot0, hslot1, hg, not_later_next, and_self]
  | true =>
    have hslot1 : f.slot1.gen? = some g := congrArg RSlot.gen? hslot
    cases hslot0 : f.slot0.gen? with
    | none => simp [Flash.pick, hslot0, hslot1]
    | some h =>
      have hg : g = (h + 1) % 2 ^ 32 := hnext h hslot0
      simp only [Flash.pick, hslot0, hslot1, hg, later_next, and_self]

/-- Only the slots count for the selection; what was selected before does not. -/
theorem Newest.select {f : Flash} {b : Bool} {g c : Nat} {img : Retained} (hn : Newest f b g c img) :
    f.select.selValid = true ∧ f.select.image = img := by
  obtain ⟨hvalid, hsel⟩ := hn.pick
  have hslot : (if f.pick.2.1 then f.slot1 else f.slot0) = .ok g c img := by
    rw [hsel]
    exact hn.slot
  refine ⟨hvalid, ?_⟩
  simp only [Flash.image, Flash.select, hvalid, hslot]
  rfl

/-! Generations in order. -/

theorem newest_of_genOk {f : Flash} {g c : Nat} {img : Retained} (hok : f.genOk = true) (hvalid : f.selValid = true)
    (hslot : f.slot f.sel = .ok g c img) : Newest f f.sel g c img := by
  have hgen : (f.slot f.sel).gen? = some g := congrArg RSlot.gen? hslot
  refine ⟨hslot, fun h hother => ?_⟩
  simp only [Flash.genOk, hvalid, hgen, hother, Bool.and_eq_true, Bool.not_true, Bool.false_or, beq_iff_eq] at hok
  obtain ⟨⟨_, horder⟩, _⟩ := hok
  exact horder

theorem bufGen_of_genOk {f : Flash} {g c : Nat} {img : Retained} (hok : f.genOk = true) (hvalid : f.selValid = true)
    (hslot : f.slot f.sel = .ok g c img) (hbusy : f.engine = .programming ∨ f.engine = .verifying) : f.bufGen = (g + 1) % 2 ^ 32 := by
  have hgen : (f.slot f.sel).gen? = some g := congrArg RSlot.gen? hslot
  have hrun : (f.engine == .programming || f.engine == .verifying) = true := by simpa using hbusy
  simp only [Flash.genOk, hvalid, hgen, hrun, Bool.and_eq_true, Bool.not_true, Bool.false_or, Option.any_some, beq_iff_eq] at hok
  obtain ⟨_, _, hbuf⟩ := hok
  exact hbuf

/-! The slots that a power failure leaves (Table 16.8). -/

theorem slot_cut_sel {f : Flash} (whole : Bool) (hvalid : f.selValid = true) : (f.cut whole).slot f.sel = f.slot f.sel := by
  cases hsel : f.sel <;> cases hengine : f.engine <;> cases whole <;> simp [Flash.cut, Flash.slot, hvalid, hsel, hengine]

/-- An idle engine leaves the other slot; an erase leaves it as it is or spoilt. -/
theorem slot_cut_other_of_quiet {f : Flash} (whole : Bool) (hvalid : f.selValid = true)
    (hengine : f.engine = .idle ∨ f.engine = .erasing) :
    (f.cut whole).slot (!f.sel) = f.slot (!f.sel) ∨ (f.cut whole).slot (!f.sel) = .bad := by
  rcases hengine with hidle | herasing
  · left
    rw [Flash.cut, hidle]
  · cases whole with
    | true =>
      left
      rw [Flash.cut, herasing]
      rfl
    | false =>
      right
      cases hsel : f.sel <;> simp [Flash.cut, Flash.slot, hvalid, hsel, herasing]

/-- A commit leaves the buffer in the other slot once the header stands whole, and an invalid slot before. -/
theorem slot_cut_other_of_busy {f : Flash} (whole : Bool) (hvalid : f.selValid = true)
    (hengine : f.engine = .programming ∨ f.engine = .verifying) :
    (f.cut whole).slot (!f.sel) = if whole then .ok f.bufGen f.bufCommits f.buf else .bad := by
  cases hsel : f.sel <;> rcases hengine with he | he <;> simp [Flash.cut, Flash.slot, hvalid, hsel, he]

/-! The power failure itself and RESTORE. -/

/-- The flash that a power failure leaves. -/
def flashOff (f : Flash) (whole : Bool) : Flash :=
  { f.cut whole with sel := false, selValid := false, bufGen := 0, bufCommits := 0, buf := {} }

theorem exec_vddAuxRemoved (whole : Bool) (s : State) :
    ∃ t, exec (.vddAuxRemoved whole) s = .next t ∧ t.flash = flashOff s.flash whole := ⟨_, rfl, rfl⟩

theorem slot_flashOff (f : Flash) (whole b : Bool) : (flashOff f whole).slot b = (f.cut whole).slot b := rfl

/-- Where no commit runs, the other slot gains no state, so the one selected before stays the newest. -/
theorem newest_flashOff_of_quiet {f : Flash} {g c : Nat} {img : Retained} (whole : Bool) (hvalid : f.selValid = true)
    (hn : Newest f f.sel g c img) (hengine : f.engine = .idle ∨ f.engine = .erasing) : Newest (flashOff f whole) f.sel g c img := by
  refine ⟨?_, fun h hother => ?_⟩
  · rw [slot_flashOff, slot_cut_sel whole hvalid, hn.slot]
  · rw [slot_flashOff] at hother
    rcases slot_cut_other_of_quiet whole hvalid hengine with hkept | hbad
    · exact hn.next h (hkept ▸ hother)
    · rw [hbad] at hother
      exact absurd hother nofun

/-- A commit cut before its header stands whole leaves an invalid slot beside the old state. -/
theorem newest_flashOff_of_unwritten {f : Flash} {g c : Nat} {img : Retained} (hvalid : f.selValid = true)
    (hslot : f.slot f.sel = .ok g c img) (hengine : f.engine = .programming ∨ f.engine = .verifying) :
    Newest (flashOff f false) f.sel g c img := by
  refine ⟨?_, fun h hother => ?_⟩
  · rw [slot_flashOff, slot_cut_sel false hvalid, hslot]
  · rw [slot_flashOff, slot_cut_other_of_busy false hvalid hengine] at hother
    exact absurd hother nofun

/-- A commit whose header stands whole leaves the new state, one generation later than the old. -/
theorem newest_flashOff_of_written {f : Flash} {g c : Nat} {img : Retained} (hvalid : f.selValid = true)
    (hslot : f.slot f.sel = .ok g c img) (hbuf : f.bufGen = (g + 1) % 2 ^ 32)
    (hengine : f.engine = .programming ∨ f.engine = .verifying) :
    Newest (flashOff f true) (!f.sel) f.bufGen f.bufCommits f.buf := by
  refine ⟨?_, fun h hother => ?_⟩
  · rw [slot_flashOff, slot_cut_other_of_busy true hvalid hengine]
    rfl
  · rw [slot_flashOff, Bool.not_not, slot_cut_sel true hvalid, hslot] at hother
    have hg : g = h := Option.some.inj hother
    rw [hbuf, hg]

/-- RESTORE begins the erase, and the replay of the profile leaves the flash as it is. -/
theorem flash_restore {ack : Bool} {s : State} (hfw : s.dev.fwState = FW_RESTORE) (hreset : s.dev.pwr.inReset = false)
    (hstuck : s.dev.fwStuck = false) : (restore ack s).flash = s.flash.erase := by
  have hrun : ¬ (s.dev.fwState ≠ FW_RESTORE ∨ s.dev.pwr.inReset = true ∨ s.dev.fwStuck = true) := by
    simp [hfw, hreset, hstuck]
  unfold restore
  dsimp only
  rw [if_neg hrun]
  split
  · rfl
  · exact (frame_foldl replayOne frame_replayOne _ _).flash

/-- What the next boot selects where the engine was idle or erasing: the state selected before. -/
theorem select_flashOff_of_quiet {f : Flash} {g c : Nat} {img : Retained} (whole : Bool) (hvalid : f.selValid = true)
    (hn : Newest f f.sel g c img) (hengine : f.engine = .idle ∨ f.engine = .erasing) :
    (flashOff f whole).select.selValid = true ∧ (flashOff f whole).select.image = img :=
  (newest_flashOff_of_quiet whole hvalid hn hengine).select

/-- What it selects where a commit ran: the buffer once the header stood whole, the state selected before until then. -/
theorem select_flashOff_of_busy {f : Flash} {g c : Nat} {img : Retained} (whole : Bool) (hvalid : f.selValid = true)
    (hslot : f.slot f.sel = .ok g c img) (hbuf : f.bufGen = (g + 1) % 2 ^ 32)
    (hengine : f.engine = .programming ∨ f.engine = .verifying) :
    (flashOff f whole).select.selValid = true ∧ (flashOff f whole).select.image = if whole then f.buf else img := by
  cases whole with
  | false => exact (newest_flashOff_of_unwritten hvalid hslot hengine).select
  | true => exact (newest_flashOff_of_written hvalid hslot hbuf hengine).select

/-- Settles O37: the slot that is the newest after the power failure is the one that the next boot selects, whatever the engine did. -/
theorem powerFailureLeavesOneState : Obligations.PowerFailureLeavesOneState := by
  intro s hok
  refine ⟨fun whole g c r hvalid hslot => ?_, fun ack hfw hreset hstuck => ⟨_, rfl, flash_restore hfw hreset hstuck⟩⟩
  obtain ⟨t, hexec, hflash⟩ := exec_vddAuxRemoved whole s
  have hquiet := select_flashOff_of_quiet whole hvalid (newest_of_genOk hok hvalid hslot)
  have hbusy := fun h => select_flashOff_of_busy whole hvalid hslot (bufGen_of_genOk hok hvalid hslot h) h
  have hengine : (s.flash.engine = .idle ∨ s.flash.engine = .erasing) ∨ s.flash.engine = .programming ∨ s.flash.engine = .verifying := by
    cases s.flash.engine <;> simp
  rw [← hflash] at hquiet hbusy
  exact ⟨t, hexec, hengine.elim (fun h => (hquiet h).1) fun h => (hbusy h).1, fun h => (hquiet h).2, fun h => (hbusy h).2⟩

end Sys2Proof.Proofs
end

section
/-!
SUPPORT. The pins that follow DEVSTAT (R489): their levels as the firmware state and the bits of ERR_SUM, and what an endpoint reset
leaves of DEVSTAT.
-/
namespace Sys2Proof.Proofs
open Sys2Proof.Machine Sys2Proof.Laws

/-! The levels. -/

theorem devReady_iff (d : Dev) : d.devReady = true ↔ d.fwState = FW_READY ∨ d.fwState = FW_RUN ∨ d.fwState = FW_DEGRADED := by
  rw [Dev.devReady, Dev.serving, Bool.or_eq_true, Bool.or_eq_true, beq_iff_eq, beq_iff_eq, beq_iff_eq, or_assoc]

/-- ERR_N reads the three bits of ERR_SUM above bit 0 as one number, which is not 0 where one of them is set. -/
theorem errN_eq_false_iff (d : Dev) :
    d.errN = false ↔ bit (d.f DEVSTAT DEVSTAT_ERR_SUM) 1 = true ∨ bit (d.f DEVSTAT DEVSTAT_ERR_SUM) 2 = true ∨
      bit (d.f DEVSTAT DEVSTAT_ERR_SUM) 3 = true := by
  simp only [Dev.errN, bit, Nat.testBit_eq_decide_div_mod_eq, decide_eq_true_eq, beq_eq_false_iff_ne]
  omega

/-- ERR_ACK keeps a bit that it names only where an entry waits or LOST is set, and neither is so of a bit between 0 and 4. -/
theorem bit_errAck_of_named (d : Dev) {mask i : Nat} (hnamed : bit mask i = true) (hpos : 0 < i) (hlt : i < 4) :
    bit ((d.errAck mask).f DEVSTAT DEVSTAT_ERR_SUM) i = false := by
  rw [bit_errAck d mask (by omega), hnamed, beq_false_of_ne (by omega : i ≠ 0), beq_false_of_ne (by omega : i ≠ 4)]
  simp

theorem errN_errAck (d : Dev) : (d.errAck 0x0E).errN = true := by
  rw [← Bool.not_eq_false, errN_eq_false_iff, bit_errAck_of_named d (i := 1) rfl (by decide) (by decide),
    bit_errAck_of_named d (i := 2) rfl (by decide) (by decide), bit_errAck_of_named d (i := 3) rfl (by decide) (by decide)]
  decide

/-! The endpoint reset. -/

/-- Both pins are levels of DEVSTAT alone. -/
theorem pins_of_rd_devstat {d e : Dev} (h : e.rd DEVSTAT = d.rd DEVSTAT) : e.devReady = d.devReady ∧ e.errN = d.errN := by
  have hf : ∀ g, e.f DEVSTAT g = d.f DEVSTAT g := fun g => congrArg (getF g) h
  constructor
  · simp only [Dev.devReady, Dev.serving, Dev.fwState, hf]
  · simp only [Dev.errN, hf]

theorem aper_ne_devstat (n : Nat) : APER n ≠ DEVSTAT := by
  unfold APER DEVSTAT
  omega

/-- The registers that an endpoint reset writes are those of the interrupts and of the apertures. -/
theorem exec_endpointReset_devstat (kind : Nat) (s : State) :
    ∃ t, exec (.endpointReset kind) s = .next t ∧ t.dev.rd DEVSTAT = s.dev.rd DEVSTAT := by
  have hirq : (((s.dev.wr INT_EN (regReset INT_EN)).wr INT_MOD (regReset INT_MOD)).wr INT_CAUSE (regReset INT_CAUSE)).rd DEVSTAT =
      s.dev.rd DEVSTAT := by
    rw [rd_wr_ne _ _ (by decide), rd_wr_ne _ _ (by decide), rd_wr_ne _ _ (by decide)]
  have haper : ∀ (e : Dev) a, e.rd DEVSTAT = s.dev.rd DEVSTAT → (e.wrN (APER a) 0).rd DEVSTAT = s.dev.rd DEVSTAT :=
    fun e a he => (rd_wr_ne e _ (aper_ne_devstat a)).trans he
  exact ⟨_, rfl, foldl_keeps (fun e : Dev => e.rd DEVSTAT = s.dev.rd DEVSTAT) _ haper [0, 1, 2, 3] _ hirq⟩

/-- Settles O51: the pins are levels of DEVSTAT, of which ERR_ACK clears the three bits named and an endpoint reset writes nothing. -/
theorem readyAndErrorPins : Obligations.ReadyAndErrorPins := by
  intro s kind d
  obtain ⟨t, hexec, hkept⟩ := exec_endpointReset_devstat kind s
  exact ⟨devReady_iff d, errN_eq_false_iff d, errN_errAck d, t, hexec, pins_of_rd_devstat hkept⟩

end Sys2Proof.Proofs
end

section
/-!
SUPPORT. What events report, and what the reporting and the answer of a command leave alone: the cores, the debug port, and the registers
of SYSCTL, of the core pages and of the debug port.
-/
namespace Sys2Proof.Proofs
open Sys2Proof.Machine Sys2Proof.Laws

/-- Between SYSCTL and the core pages stand the blocks in which events are reported: the host interface, timing, ERRC and the lease. -/
abbrev IsReportReg (a : Nat) : Prop := DEVSTAT ≤ a ∧ a < CR_CTRL 0

/-- `e` holds the cores, the debug port, the run and the registers outside the reporting blocks of `d`. -/
structure ReportOnly (d e : Dev) : Prop where
  cores : e.cores = d.cores
  tap : e.tap = d.tap
  run : e.run = d.run
  rd : ∀ a, ¬ IsReportReg a → e.rd a = d.rd a

theorem ReportOnly.refl (d : Dev) : ReportOnly d d := ⟨rfl, rfl, rfl, fun _ _ => rfl⟩

theorem ReportOnly.trans {d e g : Dev} (h : ReportOnly d e) (h' : ReportOnly e g) : ReportOnly d g :=
  ⟨h'.cores.trans h.cores, h'.tap.trans h.tap, h'.run.trans h.run, fun a ha => (h'.rd a ha).trans (h.rd a ha)⟩

theorem reportOnly_wr (d : Dev) {a : Nat} (v : Word64) (ha : IsReportReg a) : ReportOnly d (d.wr a v) :=
  ⟨rfl, rfl, rfl, fun _ hb => rd_wr_ne d v fun h => hb (h ▸ ha)⟩

theorem reportOnly_setF (d : Dev) {a : Nat} (f : Fld) (v : Nat) (ha : IsReportReg a) : ReportOnly d (d.setF a f v) :=
  reportOnly_wr d _ ha

theorem reportOnly_cause (d : Dev) (v : Nat) : ReportOnly d (d.cause v) := by
  obtain ⟨h, o, heq⟩ := cause_eq d v
  rw [heq]
  exact ⟨rfl, rfl, rfl, fun _ _ => rfl⟩

theorem reportOnly_setStat (d : Dev) (f : Fld) (v : Nat) : ReportOnly d (d.setStat f v) := by
  obtain heq | ⟨h, o, heq⟩ := setStat_eq d f v
  · rw [heq]
    exact .refl d
  · rw [heq]
    have hset := (reportOnly_setF d f v (a := DEVSTAT) (by decide)).trans
      (reportOnly_setF _ INT_CAUSE_STATE 1 (a := INT_CAUSE) (by decide))
    exact ⟨hset.cores, hset.tap, hset.run, hset.rd⟩

theorem reportOnly_syncLease (d : Dev) : ReportOnly d d.syncLease := by
  obtain ⟨tw, v, heq⟩ := syncLease_eq d
  rw [heq]
  have htwin : ReportOnly d { d with twin := tw } := ⟨rfl, rfl, rfl, fun _ _ => rfl⟩
  exact (htwin.trans (reportOnly_setF _ _ _ (by decide))).trans (reportOnly_setStat _ _ _)

theorem reportOnly_errSum (d : Dev) (b : Nat) : ReportOnly d (d.errSum b) := by
  have hset := ((reportOnly_setF d DEVSTAT_ERR_SUM (d.f DEVSTAT DEVSTAT_ERR_SUM ||| 2 ^ b) (a := DEVSTAT) (by decide)).trans
    (reportOnly_setF _ INT_CAUSE_ERR 1 (a := INT_CAUSE) (by decide))).trans (reportOnly_cause _ 3)
  unfold Dev.errSum
  dsimp only
  split
  · exact .refl d
  · split
    · exact hset.trans (reportOnly_syncLease _)
    · exact hset

/-! An entry in ERRC. -/

theorem isReportReg_stat : IsReportReg ER_STAT := by decide

theorem reportOnly_wrEntry (d : Dev) {r : Nat → Nat} (ws : List Nat) (hr : ∀ k < 4, IsReportReg (r k)) :
    ReportOnly d (wrEntry d r ws) :=
  (((reportOnly_wr d _ (hr 0 (by decide))).trans (reportOnly_wr _ _ (hr 1 (by decide)))).trans
    (reportOnly_wr _ _ (hr 2 (by decide)))).trans (reportOnly_wr _ _ (hr 3 (by decide)))

theorem reportOnly_noted (d : Dev) (e : ErrEntry) : ReportOnly d (noted d e) := by
  have hseq : ReportOnly d { d with errSeq := d.errSeq + 1 } := ⟨rfl, rfl, rfl, fun _ _ => rfl⟩
  refine hseq.trans ?_
  cases h : ({ d with errSeq := d.errSeq + 1 } : Dev).on ER_STAT ER_STAT_FIRST_VALID with
  | true =>
    rw [noted, noteFirst_of_later e h]
    exact reportOnly_setF _ _ _ isReportReg_stat
  | false =>
    rw [noted, noteFirst_of_first e h]
    exact (reportOnly_wrEntry _ _ (by decide)).trans (reportOnly_setF _ _ _ isReportReg_stat)

theorem reportOnly_placed (d : Dev) (e : ErrEntry) : ReportOnly d (placed d e) := by
  unfold placed
  split
  · rw [syncHead_eq]
    have hqueue : ReportOnly d { d with errq := d.errq ++ [e] } := ⟨rfl, rfl, rfl, fun _ _ => rfl⟩
    exact (hqueue.trans (reportOnly_wrEntry _ _ (by decide))).trans (reportOnly_setF _ _ _ isReportReg_stat)
  · exact (reportOnly_setF d _ _ isReportReg_stat).trans (reportOnly_setF _ _ _ isReportReg_stat)

theorem reportOnly_recorded (d : Dev) (e : ErrEntry) : ReportOnly d (recorded d e) :=
  (reportOnly_noted d e).trans (reportOnly_placed _ e)

theorem reportOnly_raise (d : Dev) (code inst addr info : Nat) : ReportOnly d (d.raise code inst addr info) := by
  rw [raise_eq]
  have hplace := (reportOnly_recorded d (d.errEntry code inst addr info)).trans (reportOnly_errSum _ (placeBit d))
  cases listedBit code with
  | none => exact hplace
  | some b => exact hplace.trans (reportOnly_errSum _ b)

/-! The failure of the oscillator. -/

theorem reportOnly_setTim (d : Dev) (st : Nat) : ReportOnly d (d.setTim st) := by
  have hset := (reportOnly_setF d TIM_STAT_STATE st (a := TIM_STAT) (by decide)).trans (reportOnly_setStat _ DEVSTAT_TIMING st)
  unfold Dev.setTim
  dsimp only
  split
  · exact ⟨hset.cores, hset.tap, hset.run, hset.rd⟩
  · exact hset

theorem reportOnly_degrade (d : Dev) : ReportOnly d d.degrade := by
  have hpwr : ReportOnly d { d with pwr := { d.pwr with degraded := true } } := ⟨rfl, rfl, rfl, fun _ _ => rfl⟩
  unfold Dev.degrade
  dsimp only
  split
  · exact (hpwr.trans (reportOnly_setStat _ _ _)).trans (reportOnly_syncLease _)
  · exact hpwr

theorem endRunSoon_of_idle {d : Dev} (h : d.run.active = false) : d.endRunSoon = d := by
  simp [Dev.endRunSoon, h]

/-- Without a run the failure of the oscillator is only reported. -/
theorem reportOnly_xoFail {d : Dev} (h : d.run.active = false) : ReportOnly d d.xoFail := by
  unfold Dev.xoFail
  split
  · exact .refl d
  · have hraised := (reportOnly_setTim d TS_XO_FAULT).trans (reportOnly_raise _ 0x0101 0xFF 0 0)
    rw [endRunSoon_of_idle (by rw [hraised.run, h])]
    exact hraised.trans (reportOnly_degrade _)

/-! The answer of a command. -/

/-- What the answer of a command changes: no entry enters ERRC either. -/
structure AnswerOnly (d e : Dev) : Prop extends ReportOnly d e where
  errq : e.errq = d.errq
  errSeq : e.errSeq = d.errSeq

theorem AnswerOnly.trans {d e g : Dev} (h : AnswerOnly d e) (h' : AnswerOnly e g) : AnswerOnly d g :=
  ⟨h.toReportOnly.trans h'.toReportOnly, h'.errq.trans h.errq, h'.errSeq.trans h.errSeq⟩

theorem answerOnly_wrN (d : Dev) {a : Nat} (v : Nat) (ha : IsReportReg a) : AnswerOnly d (d.wrN a v) :=
  ⟨reportOnly_wr d _ ha, rfl, rfl⟩

theorem answerOnly_cause (d : Dev) (v : Nat) : AnswerOnly d (d.cause v) :=
  ⟨reportOnly_cause d v, (errcKept_cause d v).errq, (errcKept_cause d v).errSeq⟩

theorem answerOnly_wrWords (d : Dev) (a : Nat) (ws : List Nat) (hlo : DEVSTAT ≤ a) (hhi : a + 4 * ws.length ≤ CR_CTRL 0) :
    AnswerOnly d (d.wrWords a ws) := by
  induction ws generalizing d a with
  | nil => exact ⟨.refl d, rfl, rfl⟩
  | cons w ws ih =>
    rw [List.length_cons] at hhi
    exact (answerOnly_wrN d _ ⟨hlo, by omega⟩).trans (ih _ _ (by omega) (by omega))

theorem answerOnly_with_host {d e : Dev} (h : AnswerOnly d e) (x : HostIf) : AnswerOnly d { e with host := x } :=
  ⟨⟨h.cores, h.tap, h.run, h.rd⟩, h.errq, h.errSeq⟩

theorem answerOnly_completion (d : Dev) {n : Nat} (hn : n < 32) (w0 w1 : Nat) (res : List Nat) :
    AnswerOnly d ((d.wrWords (CPL_WORD (16 * n)) (w0 :: w1 :: res.take 14)).wrWords (EXT_WORD (256 * n)) ((res.drop 14).take 256)) := by
  refine (answerOnly_wrWords d _ _ ?_ ?_).trans (answerOnly_wrWords _ _ _ ?_ ?_) <;>
    simp only [CPL_WORD, EXT_WORD, DEVSTAT, CR_CTRL, List.length_cons, List.length_take] <;> omega

/-- The completion of a mailbox slot lies in the host interface, whatever is answered. -/
theorem answerOnly_finish {c : Cmd} (r : Reply) (s : State) (hslot : c.slot < 32) : AnswerOnly s.dev (finish c r s).dev := by
  unfold finish
  extract_lets bytes w code rlen trunc w0 w1 d words back smb _ done _ taken _ noted
  have hback : AnswerOnly d back := ((answerOnly_completion d hslot w0 w1 r.res).trans
    (answerOnly_wrN words _ (by decide))).trans (answerOnly_wrN _ _ (by decide))
  have hdone : AnswerOnly d done := by
    unfold done
    rw [if_pos hslot]
    split
    · exact hback
    · exact hback.trans (answerOnly_cause back 0)
  have htaken : AnswerOnly d taken := answerOnly_with_host hdone _
  change AnswerOnly d noted
  unfold noted
  split
  · exact answerOnly_with_host htaken _
  · exact htaken

end Sys2Proof.Proofs
end

section
/-!
SUPPORT. The debug level (R516): what a device reset leaves of it, and the debug features as a raised level takes them away.
-/
namespace Sys2Proof.Proofs
open Sys2Proof.Machine Sys2Proof.Laws

/-! Resets. -/

/-- A filter that looks at keys alone keeps every entry of a key that it passes. -/
theorem tget_filter_key {α : Type} (d : Nat → α) {p : Nat → Bool} {k : Nat} (hk : p k = true) (t : Tbl α) :
    tget d (t.filter fun x => p x.1) k = tget d t k := by
  induction t with
  | nil => rfl
  | cons x r ih =>
    obtain ⟨a, v⟩ := x
    by_cases ha : a = k
    · simp [tget, ha, hk]
    · cases hp : p a <;> simp [tget, ha, hp, ih]

/-- Every register of the VDD_AUX domain but DEVSTAT, which a latched shutdown still reaches (R408), holds what it held (R455). -/
theorem rd_afterReset_of_aux (d : Dev) {a : Nat} (haux : auxReg a = true) (hstat : DEVSTAT ≠ a) : d.afterReset.rd a = d.rd a := by
  have hkept := tget_filter_key regReset haux d.regs
  unfold Dev.afterReset
  dsimp only
  split
  · rw [rd_setF_ne _ _ _ hstat, rd_setF_ne _ _ _ hstat]
    exact hkept
  · exact hkept

theorem run_afterReset (d : Dev) : d.afterReset.run = {} := by
  unfold Dev.afterReset
  dsimp only
  split <;> rfl

theorem rd_afterReset_dbg (d : Dev) : d.afterReset.rd SC_DBG = d.rd SC_DBG := rd_afterReset_of_aux d (by decide) (by decide)

theorem rd_beginReset_dbg (cause : Nat) (s : State) : (beginReset cause s).dev.rd SC_DBG = s.dev.rd SC_DBG := by
  unfold beginReset
  dsimp only
  split
  · rfl
  · exact rd_afterReset_dbg s.dev

theorem rd_resetEnd_dbg (recovery testEn xoOk : Bool) (s : State) :
    (resetEnd recovery testEn xoOk s).dev.rd SC_DBG = s.dev.rd SC_DBG := by
  unfold resetEnd
  dsimp only
  split
  · rfl
  · have hnoted : ∀ v g w, (((s.dev.afterReset.wrN SC_RSTCAUSE v).setF SC_ID g w).rd SC_DBG) = s.dev.rd SC_DBG := fun v g w => by
      rw [rd_setF_ne _ _ _ (by decide), Dev.wrN, rd_wr_ne _ _ (by decide), rd_afterReset_dbg]
    split
    · exact (rd_setF_ne _ _ _ (by decide)).trans (hnoted _ _ _)
    · have hidle : s.dev.afterReset.run.active = false := by rw [run_afterReset]
      refine ((reportOnly_xoFail ?_).rd _ (by decide)).trans ((rd_setF_ne _ _ _ (by decide)).trans (hnoted _ _ _))
      exact hidle

theorem exec_resetN_dbg (n : Nat) (s : State) : ∃ t, exec (.resetN n) s = .next t ∧ t.dev.rd SC_DBG = s.dev.rd SC_DBG := by
  refine ⟨_, rfl, ?_⟩
  split
  · rfl
  · exact rd_beginReset_dbg CAUSE_PIN s

/-! The two fields of SC_DBG. -/

theorem level_setF (d : Dev) {l : Nat} (hl : l < 4) : (d.setF SC_DBG SC_DBG_LEVEL l).f SC_DBG SC_DBG_LEVEL = l :=
  (f_setF d SC_DBG SC_DBG_LEVEL ⟨by decide, by decide⟩ l).trans (Nat.mod_eq_of_lt hl)

theorem least_setF (d : Dev) {l : Nat} (hl : l < 4) : (d.setF SC_DBG SC_DBG_DBG_MIN l).f SC_DBG SC_DBG_DBG_MIN = l :=
  (f_setF d SC_DBG SC_DBG_DBG_MIN ⟨by decide, by decide⟩ l).trans (Nat.mod_eq_of_lt hl)

theorem level_setF_least (d : Dev) (l : Nat) : (d.setF SC_DBG SC_DBG_DBG_MIN l).f SC_DBG SC_DBG_LEVEL = d.f SC_DBG SC_DBG_LEVEL :=
  f_setF_ne d SC_DBG SC_DBG_DBG_MIN SC_DBG_LEVEL ⟨by decide, by decide⟩ (by decide) l

theorem least_setF_level (d : Dev) (l : Nat) : (d.setF SC_DBG SC_DBG_LEVEL l).f SC_DBG SC_DBG_DBG_MIN = d.f SC_DBG SC_DBG_DBG_MIN :=
  f_setF_ne d SC_DBG SC_DBG_LEVEL SC_DBG_DBG_MIN ⟨by decide, by decide⟩ (by decide) l

/-- Of the debug lock only the fuses outlive the power (R516). -/
theorem exec_powerOnReset_dbg (straps : Nat) (s : State) :
    ∃ t, exec (.powerOnReset straps) s = .next t ∧ t.dev.f SC_DBG SC_DBG_LEVEL = s.dev.f SC_DBG SC_DBG_DBG_MIN ∧
      t.dev.f SC_DBG SC_DBG_DBG_MIN = s.dev.f SC_DBG SC_DBG_DBG_MIN := by
  have hlt : s.dev.f SC_DBG SC_DBG_DBG_MIN < 4 := getF_lt SC_DBG_DBG_MIN _
  exact ⟨_, rfl, level_setF _ hlt, (least_setF_level _ _).trans (least_setF _ hlt)⟩

/-! The level raised: breakpoints and watchpoints. -/

/-- The registers that enable the breakpoints and watchpoints of a core. -/
def armRegs (c : Nat) : List Nat := [QD_BP c 0, QD_BP c 1, QD_BP c 2, QD_BP c 3, QD_WP c 0 3, QD_WP c 1 3]

/-- The device with the enable of a breakpoint or watchpoint cleared. -/
def disarm (d : Dev) (a : Nat) : Dev := d.wrN a (d.rdN a % 2 ^ 31)

/-- The device with no breakpoint and watchpoint of a core enabled, and the core resumed where QDP halted it. -/
def released (d : Dev) (c : Nat) : Dev := ((armRegs c).foldl disarm d).qdpResume c

/-- Where `P` holds, `x` of the list makes `Q` hold, and no step undoes either, `Q` holds after the fold. -/
theorem foldl_reaches {α β : Type} {P Q : β → Prop} {f : β → α → β} {l : List α} {x : α} (hx : x ∈ l)
    (hP : ∀ b a, P b → P (f b a)) (hQ : ∀ b a, Q b → Q (f b a)) (hreach : ∀ b, P b → Q (f b x)) (b : β) (hb : P b) :
    Q (l.foldl f b) := by
  obtain ⟨l₁, l₂, rfl⟩ := List.append_of_mem hx
  rw [List.foldl_append, List.foldl_cons]
  exact foldl_keeps Q f hQ l₂ _ (hreach _ (foldl_keeps P f hP l₁ b hb))

theorem rd_disarm_ne (d : Dev) {a b : Nat} (h : a ≠ b) : (disarm d a).rd b = d.rd b := rd_wr_ne d _ h

theorem bit_disarm_self (d : Dev) (a : Nat) : bit ((disarm d a).rdN a) 31 = false := by
  have hlt : d.rdN a % 2 ^ 31 < 2 ^ 31 := Nat.mod_lt _ (Nat.two_pow_pos 31)
  rw [disarm, rdN_wrN_self, Nat.mod_eq_of_lt (Nat.lt_trans hlt (by decide))]
  exact Nat.testBit_lt_two_pow hlt

theorem bit_disarm_of_clear (d : Dev) (a : Nat) {b : Nat} (h : bit (d.rdN b) 31 = false) : bit ((disarm d a).rdN b) 31 = false := by
  by_cases hab : a = b
  · rw [hab]
    exact bit_disarm_self d b
  · rw [Dev.rdN, rd_disarm_ne d hab]
    exact h

/-- The registers that enable breakpoints and watchpoints stand above all others that a raised level writes. -/
theorem le_of_mem_armRegs {c a : Nat} (h : a ∈ armRegs c) : QD_BP 0 0 ≤ a := by
  simp only [armRegs, List.mem_cons, List.not_mem_nil, or_false] at h
  unfold QD_BP QD_WP at h
  unfold QD_BP
  omega

theorem lt_armRegs_stat {c : Nat} (h : c < 4) : CR_STAT c < QD_BP 0 0 := by
  unfold CR_STAT QD_BP
  omega

theorem stat_ne_armRegs {k a : Nat} (h : a ∈ armRegs k) (c : Nat) : CR_STAT c ≠ a := by
  simp only [armRegs, List.mem_cons, List.not_mem_nil, or_false] at h
  unfold QD_BP QD_WP at h
  unfold CR_STAT
  omega

theorem rd_foldl_disarm (d : Dev) (c : Nat) {b : Nat} (hb : b < QD_BP 0 0) : ((armRegs c).foldl disarm d).rd b = d.rd b := by
  have hne : ∀ a ∈ armRegs c, a ≠ b := fun a ha => Nat.ne_of_gt (Nat.lt_of_lt_of_le hb (le_of_mem_armRegs ha))
  generalize armRegs c = as at hne
  induction as generalizing d with
  | nil => rfl
  | cons a as ih =>
    rw [List.foldl_cons, ih _ fun x hx => hne x (List.mem_cons_of_mem a hx), rd_disarm_ne d (hne a List.mem_cons_self)]

theorem foldl_disarm_eq (as : List Nat) (d : Dev) : ∃ g, as.foldl disarm d = { d with regs := g } :=
  foldl_keeps (fun e : Dev => ∃ g, e = { d with regs := g }) disarm
    (fun _ _ ⟨_, he⟩ => he ▸ ⟨_, rfl⟩) as d ⟨d.regs, rfl⟩

/-! The level raised: cores that QDP halted. -/

theorem qdpResume_of_not_halted {d : Dev} {c : Nat} (h : (d.core c).qhalt = 0 ∨ d.coreState c ≠ CORE_HALTED) : d.qdpResume c = d :=
  if_pos h

theorem qdpResume_of_halted {d : Dev} {c : Nat} (hq : (d.core c).qhalt ≠ 0) (hst : d.coreState c = CORE_HALTED) :
    ∃ x : RCore, d.qdpResume c = (d.setCore c x).setCoreState c CORE_RUN ∧ x.qhalt = 0 ∧ x.ctx.pc = (d.core c).ctx.pc :=
  ⟨_, if_neg (not_or.mpr ⟨hq, not_not_intro hst⟩), rfl, rfl⟩

/-- A core goes on by its state and its own record. -/
theorem qdpResume_eq (d : Dev) (c : Nat) : d.qdpResume c = d ∨ ∃ x, d.qdpResume c = (d.setCore c x).setCoreState c CORE_RUN := by
  by_cases h : (d.core c).qhalt = 0 ∨ d.coreState c ≠ CORE_HALTED
  · exact .inl (qdpResume_of_not_halted h)
  · obtain ⟨hq, hst⟩ := not_or.mp h
    obtain ⟨x, heq, _⟩ := qdpResume_of_halted hq (Decidable.of_not_not hst)
    exact .inr ⟨x, heq⟩

theorem rd_qdpResume_ne (d : Dev) {c a : Nat} (h : CR_STAT c ≠ a) : (d.qdpResume c).rd a = d.rd a := by
  obtain heq | ⟨x, heq⟩ := qdpResume_eq d c
  · rw [heq]
  · rw [heq, Dev.setCoreState, rd_setF_ne _ _ _ h]
    rfl

/-- What QDP sees of a core: its state and its record. -/
def coreView (d : Dev) (k : Nat) : Nat × RCore := (d.coreState k, d.core k)

theorem coreView_congr {d e : Dev} {k : Nat} (hrd : e.rd (CR_STAT k) = d.rd (CR_STAT k)) (hcores : e.cores = d.cores) :
    coreView e k = coreView d k := by
  rw [coreView, Dev.coreState, Dev.f, hrd, Dev.core, hcores]
  rfl

theorem core_setCore (d : Dev) (c k : Nat) (x : RCore) : (d.setCore c x).core k = if c = k then x else d.core k :=
  tget_tset _ _ _ _ _

theorem stat_injective : CR_STAT.Injective := fun i j h => by
  unfold CR_STAT at h
  omega

theorem coreView_resumed (d : Dev) (c : Nat) (x : RCore) :
    coreView ((d.setCore c x).setCoreState c CORE_RUN) c = (CORE_RUN, x) := by
  refine Prod.ext ?_ ((core_setCore d c c x).trans (if_pos rfl))
  exact f_setF _ (CR_STAT c) CR_STAT_STATE ⟨by decide, by decide⟩ CORE_RUN

theorem coreView_resumed_ne (d : Dev) {c k : Nat} (h : c ≠ k) (x : RCore) :
    coreView ((d.setCore c x).setCoreState c CORE_RUN) k = coreView d k := by
  refine Prod.ext ?_ ((core_setCore d c k x).trans (if_neg h))
  exact f_setF_reg _ CR_STAT_STATE CR_STAT_STATE CORE_RUN fun heq => h (stat_injective heq)

/-- A core that QDP halted at a PC. -/
def HaltedAt (pc : Nat) (v : Nat × RCore) : Prop := v.1 = CORE_HALTED ∧ v.2.qhalt ≠ 0 ∧ v.2.ctx.pc = pc

/-- A core that runs on from a PC, free of QDP. -/
def ResumedAt (pc : Nat) (v : Nat × RCore) : Prop := v.1 = CORE_RUN ∧ v.2.qhalt = 0 ∧ v.2.ctx.pc = pc

theorem coreView_qdpResume_ne (d : Dev) {c k : Nat} (h : c ≠ k) : coreView (d.qdpResume c) k = coreView d k := by
  obtain heq | ⟨x, heq⟩ := qdpResume_eq d c
  · rw [heq]
  · rw [heq, coreView_resumed_ne d h]

theorem resumedAt_qdpResume_of_haltedAt {d : Dev} {k pc : Nat} (h : HaltedAt pc (coreView d k)) :
    ResumedAt pc (coreView (d.qdpResume k) k) := by
  obtain ⟨hst, hq, hpc⟩ := h
  obtain ⟨x, heq, hfree, hkept⟩ := qdpResume_of_halted hq hst
  rw [heq, coreView_resumed]
  exact ⟨rfl, hfree, hkept.trans hpc⟩

theorem resumedAt_qdpResume {d : Dev} {c k pc : Nat} (h : ResumedAt pc (coreView d k)) : ResumedAt pc (coreView (d.qdpResume c) k) := by
  by_cases hck : c = k
  · subst hck
    obtain ⟨_, hfree, _⟩ := id h
    rwa [qdpResume_of_not_halted (.inl hfree)]
  · rwa [coreView_qdpResume_ne d hck]

/-! The level raised: all of it. -/

/-- Both steps change registers and cores alone. -/
theorem released_eq (d : Dev) (c : Nat) : ∃ g x, released d c = { d with regs := g, cores := x } := by
  obtain ⟨g, hfold⟩ := foldl_disarm_eq (armRegs c) d
  rw [released, hfold]
  obtain heq | ⟨x, heq⟩ := qdpResume_eq { d with regs := g } c
  · exact ⟨g, d.cores, heq⟩
  · exact ⟨_, _, heq⟩

theorem rd_released (d : Dev) {c a : Nat} (ha : a < CR_CTRL 0) : (released d c).rd a = d.rd a := by
  have hstat : CR_STAT c ≠ a := by
    unfold CR_CTRL at ha
    unfold CR_STAT
    omega
  rw [released, rd_qdpResume_ne _ hstat, rd_foldl_disarm d c (Nat.lt_trans ha (by decide))]

theorem coreView_foldl_disarm (d : Dev) (c : Nat) {k : Nat} (hk : k < 4) : coreView ((armRegs c).foldl disarm d) k = coreView d k := by
  refine coreView_congr (rd_foldl_disarm d c (lt_armRegs_stat hk)) ?_
  obtain ⟨g, hfold⟩ := foldl_disarm_eq (armRegs c) d
  rw [hfold]

theorem resumedAt_released {d : Dev} {k pc : Nat} (hk : k < 4) (h : HaltedAt pc (coreView d k)) :
    ResumedAt pc (coreView (released d k) k) :=
  resumedAt_qdpResume_of_haltedAt ((coreView_foldl_disarm d k hk).symm ▸ h)

theorem resumedAt_released_of_resumedAt {d : Dev} {c k pc : Nat} (hk : k < 4) (h : ResumedAt pc (coreView d k)) :
    ResumedAt pc (coreView (released d c) k) :=
  resumedAt_qdpResume ((coreView_foldl_disarm d c hk).symm ▸ h)

/-- Until its own turn comes a halted core stays as it is. -/
theorem haltedAt_or_resumedAt_released {d : Dev} {c k pc : Nat} (hk : k < 4)
    (h : HaltedAt pc (coreView d k) ∨ ResumedAt pc (coreView d k)) :
    HaltedAt pc (coreView (released d c) k) ∨ ResumedAt pc (coreView (released d c) k) := by
  obtain hhalted | hresumed := h
  · by_cases hck : c = k
    · subst hck
      exact .inr (resumedAt_released hk hhalted)
    · left
      rwa [released, coreView_qdpResume_ne _ hck, coreView_foldl_disarm d c hk]
  · exact .inr (resumedAt_released_of_resumedAt hk hresumed)

theorem bit_released_of_clear {d : Dev} {b k : Nat} (hb : b ∈ armRegs k) (c : Nat) (h : bit (d.rdN b) 31 = false) :
    bit ((released d c).rdN b) 31 = false := by
  rw [released, Dev.rdN, rd_qdpResume_ne _ (stat_ne_armRegs hb c)]
  exact foldl_keeps (fun e : Dev => bit (e.rdN b) 31 = false) disarm (fun e a he => bit_disarm_of_clear e a he) (armRegs c) d h

theorem bit_released {b k : Nat} (hb : b ∈ armRegs k) (d : Dev) : bit ((released d k).rdN b) 31 = false := by
  rw [released, Dev.rdN, rd_qdpResume_ne _ (stat_ne_armRegs hb k)]
  exact foldl_reaches (P := fun _ => True) (Q := fun e : Dev => bit (e.rdN b) 31 = false) hb (fun _ _ _ => trivial)
    (fun e a he => bit_disarm_of_clear e a he) (fun e _ => bit_disarm_self e b) d trivial

/-- The four cores released one after the other. -/
def releasedAll (d : Dev) : Dev := [0, 1, 2, 3].foldl released d

theorem mem_cores {k : Nat} (hk : k < 4) : k ∈ [0, 1, 2, 3] := by
  simp only [List.mem_cons, List.not_mem_nil, or_false]
  omega

theorem releasedAll_eq (d : Dev) : ∃ g x, releasedAll d = { d with regs := g, cores := x } := by
  refine foldl_keeps (fun e : Dev => ∃ g x, e = { d with regs := g, cores := x }) released ?_ [0, 1, 2, 3] d ⟨d.regs, d.cores, rfl⟩
  rintro _ c ⟨g, x, rfl⟩
  exact released_eq { d with regs := g, cores := x } c

theorem rd_releasedAll (d : Dev) {a : Nat} (ha : a < CR_CTRL 0) : (releasedAll d).rd a = d.rd a :=
  foldl_keeps (fun e : Dev => e.rd a = d.rd a) released (fun e _ he => (rd_released e ha).trans he) _ d rfl

theorem bit_releasedAll {b k : Nat} (hb : b ∈ armRegs k) (hk : k < 4) (d : Dev) : bit ((releasedAll d).rdN b) 31 = false :=
  foldl_reaches (P := fun _ => True) (Q := fun e : Dev => bit (e.rdN b) 31 = false) (mem_cores hk) (fun _ _ _ => trivial)
    (fun _ c he => bit_released_of_clear hb c he) (fun e _ => bit_released hb e) d trivial

theorem resumedAt_releasedAll {d : Dev} {k pc : Nat} (hk : k < 4) (h : HaltedAt pc (coreView d k)) :
    ResumedAt pc (coreView (releasedAll d) k) := by
  refine foldl_reaches (P := fun e : Dev => HaltedAt pc (coreView e k) ∨ ResumedAt pc (coreView e k))
    (Q := fun e : Dev => ResumedAt pc (coreView e k)) (mem_cores hk) (fun _ _ he => haltedAt_or_resumedAt_released hk he)
    (fun _ _ he => resumedAt_released_of_resumedAt hk he) (fun _ he => ?_) d (.inl h)
  exact he.elim (resumedAt_released hk) (resumedAt_released_of_resumedAt hk)

/-- The device with an access whose answer waits denied: status 2. -/
def lateDenied (d : Dev) : Dev := { d with tap := { d.tap with late := d.tap.late.map fun _ => (0, 2) } }

theorem late_lateDenied (d : Dev) : (lateDenied d).tap.late = d.tap.late.map fun _ => (0, 2) := rfl
theorem errq_lateDenied (d : Dev) : (lateDenied d).errq = d.errq := rfl
theorem errSeq_lateDenied (d : Dev) : (lateDenied d).errSeq = d.errSeq := rfl
theorem cores_lateDenied (d : Dev) : (lateDenied d).cores = d.cores := rfl
theorem rd_lateDenied (d : Dev) (a : Nat) : (lateDenied d).rd a = d.rd a := rfl

/-- The cores are released, an access whose answer waits is denied, and HOLD is cleared. -/
theorem lockRaised_eq (d : Dev) : d.lockRaised = (lateDenied (releasedAll d)).setF SC_WDOG SC_WDOG_HOLD 0 := by
  unfold Dev.lockRaised
  extract_lets d1 late
  have hall : d1 = releasedAll d := rfl
  have hlate : late = d1.tap.late.map fun _ => (0, 2) := by
    unfold late
    cases d1.tap.late <;> rfl
  rw [hlate, ← hall]
  rfl

theorem hold_lockRaised (d : Dev) : d.lockRaised.on SC_WDOG SC_WDOG_HOLD = false := by
  rw [lockRaised_eq, Dev.on, f_setF _ _ _ ⟨by decide, by decide⟩]
  rfl

theorem late_lockRaised (d : Dev) : d.lockRaised.tap.late = d.tap.late.map fun _ => (0, 2) := by
  have htap : (releasedAll d).tap = d.tap := by
    obtain ⟨g, x, heq⟩ := releasedAll_eq d
    rw [heq]
  rw [lockRaised_eq, tap_setF, late_lateDenied, htap]

theorem rd_lockRaised (d : Dev) {a : Nat} (hwdog : SC_WDOG ≠ a) : d.lockRaised.rd a = (releasedAll d).rd a := by
  rw [lockRaised_eq, rd_setF_ne _ _ _ hwdog, rd_lateDenied]

theorem errq_errSeq_lockRaised (d : Dev) : d.lockRaised.errq = d.errq ∧ d.lockRaised.errSeq = d.errSeq := by
  have hall : (releasedAll d).errq = d.errq ∧ (releasedAll d).errSeq = d.errSeq := by
    obtain ⟨g, x, heq⟩ := releasedAll_eq d
    rw [heq]
    exact ⟨rfl, rfl⟩
  rwa [lockRaised_eq, errq_setF, errSeq_setF, errq_lateDenied, errSeq_lateDenied]

theorem coreView_lockRaised (d : Dev) (k : Nat) : coreView d.lockRaised k = coreView (releasedAll d) k := by
  refine coreView_congr (rd_lockRaised d ?_) ?_
  · unfold SC_WDOG CR_STAT
    omega
  · rw [lockRaised_eq, cores_setF, cores_lateDenied]

theorem bit_lockRaised {b k : Nat} (hb : b ∈ armRegs k) (hk : k < 4) (d : Dev) : bit (d.lockRaised.rdN b) 31 = false := by
  have hne : SC_WDOG ≠ b := Nat.ne_of_lt (Nat.lt_of_lt_of_le (by decide) (le_of_mem_armRegs hb))
  rw [Dev.rdN, rd_lockRaised d hne]
  exact bit_releasedAll hb hk d

theorem resumedAt_lockRaised {d : Dev} {k pc : Nat} (hk : k < 4) (h : HaltedAt pc (coreView d k)) :
    ResumedAt pc (coreView d.lockRaised k) := by
  rw [coreView_lockRaised]
  exact resumedAt_releasedAll hk h

end Sys2Proof.Proofs
end

section
/-!
SUPPORT. DEBUG_LOCK (R516): its range check, and the device that it leaves.
-/
namespace Sys2Proof.Proofs
open Sys2Proof.Machine Sys2Proof.Laws

/-! The range check. -/

theorem bad_debugLock_iff (c : Cmd) (s : State) :
    debugLockDef.bad c s = true ↔ c.b 0 1 0 < s.dev.f SC_DBG SC_DBG_DBG_MIN ∨
      ((c.b 0 1 0 < s.dev.f SC_DBG SC_DBG_LEVEL ∨ bit (c.p 0) 2 = true) ∧ c.b 0 31 16 ≠ 0xA5C3) := by
  simp only [debugLockDef, Bool.or_eq_true, Bool.and_eq_true, decide_eq_true_eq, bne_iff_ne]

/-- A bad parameter comes before the firmware state in the order of R365; a command of any device mode has no check before it. -/
theorem carryOut_of_bad {df : CmdDef} {c : Cmd} {s : State} (hport : c.slot < 32) (hmode : df.mode = 0) (hbad : df.bad c s = true) :
    carryOut df c s = ({ code := .badParam }, s) := by
  have hslot : (c.slot == SMB_SLOT) = false := beq_false_of_ne (Nat.ne_of_lt hport)
  simp [carryOut, noR, hslot, hmode, hbad]

/-- The SMBus port does not take DEBUG_LOCK (R378), so its slot is one of the mailbox. -/
theorem slot_lt_of_ready_debugLock {n : Nat} {s : State} (h : ready debugLockDef n 0 0 s = true) : n < 32 := by
  unfold ready at h
  dsimp only at h
  simp only [Bool.and_eq_true, Bool.not_eq_true'] at h
  obtain ⟨⟨⟨⟨⟨⟨⟨⟨_, hle⟩, _⟩, _⟩, hport⟩, _⟩, _⟩, _⟩, _⟩ := h
  have hle' : n ≤ 32 := of_decide_eq_true hle
  have hne : n ≠ 32 := by
    rintro rfl
    change (true && !smbOpcodes.contains 0x0D03) = false at hport
    exact absurd hport (by decide)
  omega

/-! The device that it leaves. -/

/-- The two fields of the lock written. -/
def lockSet (d : Dev) (l : Nat) (burn : Bool) : Dev :=
  let d1 := d.setF SC_DBG SC_DBG_LEVEL l
  if burn then d1.setF SC_DBG SC_DBG_DBG_MIN l else d1

/-- The lock written, with what a raised level takes away. -/
def relocked (d : Dev) (l : Nat) (burn : Bool) : Dev :=
  if d.f SC_DBG SC_DBG_LEVEL < l then (lockSet d l burn).lockRaised else lockSet d l burn

/-- The same with a change of the lock entered in ERRC. -/
def lockReported (d : Dev) (l : Nat) (burn : Bool) : Dev :=
  if (lockSet d l burn).rd SC_DBG = d.rd SC_DBG then relocked d l burn else (relocked d l burn).raise 0x000E 0xFF 0 l

theorem exec_debugLock {n : Nat} {s : State} (h : ready debugLockDef n 0 0 s = true) :
    exec (.debugLock n) s = .next (completed (s.dev.readCmd n 0 0) [] s
      (lockReported s.dev ((s.dev.readCmd n 0 0).b 0 1 0) (bit ((s.dev.readCmd n 0 0).p 0) 2))) :=
  congrArg Host.Outcome.next (serve_dev h rfl rfl)

theorem lockSet_eq (d : Dev) (l : Nat) (burn : Bool) : ∃ g, lockSet d l burn = { d with regs := g } := by
  cases burn <;> exact ⟨_, rfl⟩

theorem rd_lockSet_ne (d : Dev) (l : Nat) (burn : Bool) {a : Nat} (ha : SC_DBG ≠ a) : (lockSet d l burn).rd a = d.rd a := by
  cases burn with
  | false => exact rd_setF_ne d _ _ ha
  | true => exact (rd_setF_ne _ _ _ ha).trans (rd_setF_ne d _ _ ha)

theorem level_lockSet (d : Dev) {l : Nat} (hl : l < 4) (burn : Bool) : (lockSet d l burn).f SC_DBG SC_DBG_LEVEL = l := by
  cases burn with
  | false => exact level_setF d hl
  | true => exact (level_setF_least _ l).trans (level_setF d hl)

theorem least_lockSet (d : Dev) {l : Nat} (hl : l < 4) (burn : Bool) :
    (lockSet d l burn).f SC_DBG SC_DBG_DBG_MIN = if burn then l else d.f SC_DBG SC_DBG_DBG_MIN := by
  cases burn with
  | false => exact least_setF_level d l
  | true => exact least_setF _ hl

theorem coreView_lockSet (d : Dev) (l : Nat) (burn : Bool) (k : Nat) : coreView (lockSet d l burn) k = coreView d k := by
  have hne : SC_DBG ≠ CR_STAT k := by
    unfold SC_DBG CR_STAT
    omega
  obtain ⟨g, heq⟩ := lockSet_eq d l burn
  exact coreView_congr (rd_lockSet_ne d l burn hne) (by rw [heq])

/-- A raised level leaves the lock as it was written. -/
theorem rd_relocked_dbg (d : Dev) (l : Nat) (burn : Bool) : (relocked d l burn).rd SC_DBG = (lockSet d l burn).rd SC_DBG := by
  unfold relocked
  split
  · exact (rd_lockRaised _ (by decide)).trans (rd_releasedAll _ (by decide))
  · rfl

theorem errq_errSeq_relocked (d : Dev) (l : Nat) (burn : Bool) :
    (relocked d l burn).errq = d.errq ∧ (relocked d l burn).errSeq = d.errSeq := by
  obtain ⟨g, heq⟩ := lockSet_eq d l burn
  obtain ⟨hsetq, hsetseq⟩ : (lockSet d l burn).errq = d.errq ∧ (lockSet d l burn).errSeq = d.errSeq := by
    rw [heq]
    exact ⟨rfl, rfl⟩
  unfold relocked
  split
  · obtain ⟨hq, hseq⟩ := errq_errSeq_lockRaised (lockSet d l burn)
    exact ⟨hq.trans hsetq, hseq.trans hsetseq⟩
  · exact ⟨hsetq, hsetseq⟩

theorem reportOnly_lockReported (d : Dev) (l : Nat) (burn : Bool) : ReportOnly (relocked d l burn) (lockReported d l burn) := by
  unfold lockReported
  split
  · exact .refl _
  · exact reportOnly_raise _ _ _ _ _

/-- Where the lock changed, DEBUG_LEVEL takes the next SEQ and is queued where a place is free (R395). -/
theorem errc_lockReported {d : Dev} {l : Nat} {burn : Bool} (h : (lockSet d l burn).rd SC_DBG ≠ d.rd SC_DBG) :
    (lockReported d l burn).errSeq = d.errSeq + 1 ∧
      (d.errq.length < 16 → ∃ e, (lockReported d l burn).errq = d.errq ++ [e] ∧ e.code = 0x000E ∧ e.info = l) := by
  obtain ⟨hq, hseq⟩ := errq_errSeq_relocked d l burn
  obtain ⟨⟨hcode, _, _, _, hinfo, _, _, _, hnext⟩, hroom, _⟩ := errorEntriesQueue (relocked d l burn) 0x000E 0xFF 0 l
  rw [lockReported, if_neg h]
  refine ⟨hnext.trans (congrArg (· + 1) hseq), fun hlen => ⟨_, ?_, hcode, hinfo⟩⟩
  obtain ⟨hqueued, _⟩ := hroom (hq.symm ▸ hlen)
  rw [hqueued, hq]

/-- What a raised level leaves outside the blocks in which events are reported (R516). -/
theorem raised_of_reportOnly {d t : Dev} (h : ReportOnly d.lockRaised t) :
    t.on SC_WDOG SC_WDOG_HOLD = false ∧ t.tap.late = d.tap.late.map (fun _ => (0, 2)) ∧
      ∀ k, k < 4 → (∀ b ∈ armRegs k, bit (t.rdN b) 31 = false) ∧
        ∀ pc, HaltedAt pc (coreView d k) → ResumedAt pc (coreView t k) := by
  have hwdog : t.on SC_WDOG SC_WDOG_HOLD = d.lockRaised.on SC_WDOG SC_WDOG_HOLD :=
    congrArg (getF SC_WDOG_HOLD · == 1) (h.rd SC_WDOG (by decide))
  refine ⟨hwdog.trans (hold_lockRaised d), (congrArg Tap.late h.tap).trans (late_lockRaised d), fun k hk =>
    ⟨fun b hb => ?_, fun pc hpc => ?_⟩⟩
  · have hout : ¬ IsReportReg b := fun hin => Nat.not_lt.mpr (le_of_mem_armRegs hb) (Nat.lt_trans hin.2 (by decide))
    rw [Dev.rdN, h.rd b hout]
    exact bit_lockRaised hb hk d
  · have hout : ¬ IsReportReg (CR_STAT k) := fun hin => by
      obtain ⟨_, hlt⟩ := hin
      unfold CR_STAT CR_CTRL at hlt
      omega
    rw [coreView_congr (h.rd _ hout) h.cores]
    exact resumedAt_lockRaised hk hpc

theorem bp_mem_armRegs {k j : Nat} (hj : j < 4) : QD_BP k j ∈ armRegs k := by
  match j, hj with
  | 0, _ | 1, _ | 2, _ | 3, _ => simp [armRegs]

theorem wp_mem_armRegs {k j : Nat} (hj : j < 2) : QD_WP k j 3 ∈ armRegs k := by
  match j, hj with
  | 0, _ | 1, _ => simp [armRegs]

/-- Settles O59: resets leave SC_DBG, or its DBG_MIN alone where the power was off; DEBUG_LOCK writes the two fields, and neither the entry
in ERRC nor the answer reaches the registers and cores that a raised level sets free. -/
theorem debugLevel : Obligations.DebugLevel := by
  intro s level least
  refine ⟨fun straps => exec_powerOnReset_dbg straps s, fun n => exec_resetN_dbg n s,
    fun recovery testEn xoOk => ⟨_, rfl, rd_resetEnd_dbg recovery testEn xoOk s⟩, fun n => ?_⟩
  intro c l burn
  refine ⟨bad_debugLock_iff c s, ?_, ?_⟩
  · intro hbad hn _
    exact carryOut_of_bad hn rfl hbad
  · intro hready
    have hl : l < 4 := Nat.mod_lt _ (by decide)
    have hanswer : AnswerOnly (lockReported s.dev l burn) (completed c [] s (lockReported s.dev l burn)).dev :=
      answerOnly_finish _ { s with dev := lockReported s.dev l burn } (slot_lt_of_ready_debugLock hready)
    have hkept := (reportOnly_lockReported s.dev l burn).trans hanswer.toReportOnly
    have hdbg : (completed c [] s (lockReported s.dev l burn)).dev.rd SC_DBG = (lockSet s.dev l burn).rd SC_DBG :=
      (hkept.rd SC_DBG (by decide)).trans (rd_relocked_dbg s.dev l burn)
    refine ⟨_, exec_debugLock hready, ?_, ?_, fun hraised => ?_, fun hchanged => ?_⟩
    · exact (congrArg (getF SC_DBG_LEVEL) hdbg).trans (level_lockSet s.dev hl burn)
    · exact (congrArg (getF SC_DBG_DBG_MIN) hdbg).trans (least_lockSet s.dev hl burn)
    · rw [relocked, if_pos hraised] at hkept
      obtain ⟨hhold, hlate, hcores⟩ := raised_of_reportOnly hkept
      have htap : (lockSet s.dev l burn).tap = s.dev.tap := by
        obtain ⟨g, heq⟩ := lockSet_eq s.dev l burn
        rw [heq]
      refine ⟨hhold, hlate.trans (by rw [htap]), fun k hk => ?_⟩
      obtain ⟨harms, hresume⟩ := hcores k hk
      refine ⟨fun j hj => harms _ (bp_mem_armRegs hj), fun j hj => harms _ (wp_mem_armRegs hj), fun hst hq => ?_⟩
      have hhalted : HaltedAt (s.dev.core k).ctx.pc (coreView (lockSet s.dev l burn) k) := by
        rw [coreView_lockSet]
        exact ⟨hst, hq, rfl⟩
      exact hresume _ hhalted
    · obtain ⟨hseq, hroom⟩ := errc_lockReported (hdbg ▸ hchanged)
      refine ⟨hanswer.errSeq.trans hseq, fun hlen => ?_⟩
      obtain ⟨e, hqueue, hentry⟩ := hroom hlen
      exact ⟨e, hanswer.errq.trans hqueue, hentry⟩

end Sys2Proof.Proofs
end

section
/-!
SUPPORT. What one command leaves alone: the queue, the form of the memories and, outside the work of R460 to R470, the flash.
-/
namespace Sys2Proof.Proofs
set_option Elab.async false
open Sys2Proof Sys2Proof.Machine Sys2Proof.Laws

/-- The command goes on, and leaves the queue, the flash and the form of the memories alone. -/
def FrameOut (s : State) : Host.Outcome State Fault Refusal → Prop
  | .next t => Frame s t
  | _ => False

theorem FrameOut.ite {s : State} {o p : Host.Outcome State Fault Refusal} (c : Prop) [Decidable c] (ho : FrameOut s o)
    (hp : FrameOut s p) : FrameOut s (if c then o else p) := by
  split <;> assumption

/-! The commands whose meaning chooses between whole states. -/

theorem frameOut_capDrop (seg off len : Nat) (s : State) : FrameOut s (execCapDrop seg off len s) := by
  unfold execCapDrop
  dsimp only
  split
  · exact FrameOut.ite _ (Frame.refl s) (Frame.dev s _)
  · exact Frame.refl s

theorem frame_matrixAccess (master wait : Nat) (others : List (Nat × Nat)) (write : Bool) (addr len : Nat) (bytes : List Nat)
    (lanes : List Bool) (ecc : List (Nat × Nat)) (s : State) :
    FrameOut s (execMatrixAccess master wait others write addr len bytes lanes ecc s) := by
  have hgrant : Frame s { s with dev := s.dev.xbGrant (s.dev.xbTarget master addr) master wait, mem := s.mem.upset ecc } :=
    Frame.mems s _ _ (memWf_upset ecc)
  have hwrite := (hgrant.trans (frame_busWrite master addr bytes lanes _)).trans (frame_answer _ (wrRsp (busWrite master addr bytes lanes
    { s with dev := s.dev.xbGrant (s.dev.xbTarget master addr) master wait, mem := s.mem.upset ecc }).1))
  unfold execMatrixAccess
  exact Frame.ite _ (Frame.refl s) (Frame.ite _ (frame_answer s _) (Frame.ite _ (Frame.refl s)
    (Frame.ite _ hwrite ((hgrant.trans (frame_busRead _ _ _ _)).trans (frame_answer _ _)))))

theorem frame_targetedScrub (k e err : Nat) (s : State) : FrameOut s (execTargetedScrub k e err s) := by
  unfold execTargetedScrub
  exact FrameOut.ite _ (Frame.refl s) ((frame_scrubOne _ _ _ _).andDev _)

theorem frame_instructionLoad (code : Nat) (supplies : Bool) (s : State) : FrameOut s (execInstructionLoad code supplies s) := by
  unfold execInstructionLoad
  exact Frame.ite _ (Frame.refl s) (Frame.ite _ ((Frame.dev s _).trans (frame_beginReset _ _)) (Frame.dev s _))

theorem frame_powerSeq (step supply ns : Nat) (s : State) : FrameOut s (execPowerSeq step supply ns s) := by
  unfold execPowerSeq
  exact Frame.ite _ (Frame.refl s) (Frame.ite _ ((Frame.ite _ (Frame.dev s _) (Frame.refl s)).trans (frame_beginReset _ _))
    (Frame.ite _ (Frame.dev s _) (Frame.refl s)))

theorem frame_watchdogReset (s : State) : FrameOut s (execWatchdogReset s) := by
  change Frame s (match s.dev.pwr.wdogDue with | none => _ | some t => _)
  split
  · exact Frame.refl s
  · exact Frame.ite _ (Frame.refl s) (frame_beginReset _ _)

theorem frame_breakpoint (core : Nat) (s : State) : FrameOut s (execBreakpoint core s) := by
  refine Frame.ite _ ?_ (Frame.refl s)
  cases h : s.breakCheck core with
  | none => exact Frame.refl s
  | some t => exact frame_breakCheck h

/-! Every command. -/

/-- Every command but those that work on the flash, and a frame of the SPI port, which may be refused. -/
theorem frameOut_exec {c : Instr} (s : State) (hflash : flashWork c = false) (hspi : ∀ bytes len, c ≠ .spiFrame bytes len) :
    FrameOut s (exec c s) := by
  cases c with
  | doorbellWrite | mailboxSlotWrite | msixSpacingEnd | endpointReset | heartbeatTick | smbusWrite | smbusDoorbell | smbusTimeout |
    smbusAlertResponse | spiCsTimeout | dc512Doorbell | dc512Flr | dc512FrameReceived | adaptationSettled | frameLock | identify |
    lpExitLate | bulkAuditPoint | laneTuckpoint | txMonitorFail | laneFailTimeout | sysrefTimeout | checkerLock | periodicInjection |
    refresh | retrainPause | retrainForced | scrubLate | spared | errorHandling | pop | clrFirst | clrLost | cvStart | cvFeedB |
    cvFeedH | cvFeedW | feedAbsorb | cvAliveGo | cvResultRead | remap | watchdogExpiry | timerCompare | windowWriteError |
    level1Interrupt | level2Interrupt | pfcPauseEnd | pfcStorm | stormClear | pfcRenew | linkDown | linkUp | packetTransmit |
    resolutionRetry | entryRefresh | trigTxDrop | ptpMessageTx | announceTimeout | tsuTodSecRead | stepArm | activityFault |
    periodFault | ppsInEdge | frequencyMeasurement | switchComplete | switchTimeout | narrowStep | lossOfLock | xoFail | holdoverUpdate
    | historyRecord | dailyEntry | xoChanged | hoLimit | tempStale | timXoTempWrite | phaseStep | sysrefOutPulse | sensorReading |
    shutdownAssert | sensorTuckpoint | analogueTrip | avsAdjust | leaseSync | leaseGrant | leaseRevoke | healthReport | trainTimeout |
    tapReset | halt | qdpResume | hourlyCommitRetry | returnToD0 | signalDetect | cdrLock | fecLock | laneStateTimeout | lossOfLaneLock
    | lowpowerEnter | lowpowerExit | aslFrameReceived | aslFrameSlot | bulkFrameSend | jesdMultiblockReceived | sysrefEdge |
    jesdLinkFault | eyePointStart | eyeScanWaitTimeout | injGo | cntClr | sampleDeadline | delayKnot | detectorIntervalEnd |
    envelopeEvent | frontStartReached | stagingReadComplete | courseDispatch | itemSlot | pauseCyclesEnd | mortarRelease | dumpStart |
    swap | ready | trigInEdge | commandSlot | parityAlert | ethFrameReceived | offsetMeasurement | pulseEdge | outboundTimeout |
    personalitySwitch | strikeExpiry | leaseTimerExpiry | noArbiter | healthSlot | arbiterSync | arbiterRenew | arbiterGrant |
    twinFailed | arbiterWaitEnd =>
    exact Frame.dev _ _
  | ping | devInfo | jobQuery | jobCancel | jobRelease | aperSet | copy | roleSet | modeSet | hostConfig | sysReset | persStatus |
    persAssign | persReset | persLog | timRefSet | timLoopSet | timForce | timPhaseStep | timOutput | timSng | timXo | timHistory |
    timStatus | timSysrefGo | timClocks | laneSet | laneStatus | lanePower | eyeScan | prbs | errInject | laneGroup | jesdLink |
    jesdAlign | frontConfig | delayModel | modelTable | coefLoad | gainLoad | detectSet | detectRead | routeSet | frontStart |
    frontStatus | xcorPlan | bondRead | bondSet | tuckpoint | auditCtrl | tileStatus | runStop | integSet | dumpRoute | dumpNow | peek
    | accStatus | beamRoute | beamWload | beamWswap | beamStatus | memStatus | memQos | memRetrain | capConfig | capArm | capTrigger |
    capRead | capRelease | capStatus | ethPort | streamSet | acpRx | netStatus | addrTable | ptpConfig | ptpStatus | timeSet | timeGet
    | pulseSet | portDelay | coreLoad | coreStart | coreStatus | coreTuck | errRead | errAck | eccStatus | scrubCtrl | cvuSet |
    thermStatus | thermSet | wearReport | reserveStatus | leaseConfig | leaseStatus | arbiterConfig | healthRead | profileWrite |
    commit | holdupStatus | fwImage | factoryDefaults | selftest | selftestResult | debugLock =>
    exact frame_serve (defFrame_of rfl) _ _ _ _
  | runStart => exact frame_serve defFrame_runStart _ _ _ _
  | beamConfig => exact frame_serve defFrame_beamConfig _ _ _ _
  | eccInject => exact frame_serve defFrame_eccInject _ _ _ _
  | profileRead => exact frame_serve defFrame_profileRead _ _ _ _
  | coreStop => exact frame_serve defFrame_coreStop _ _ _ _
  | rNop => exact frame_runR _ _ (quiet_pickRNop _ s) s
  | rRts => exact frame_runR _ _ (quiet_pickRRts _ s) s
  | rRti1 => exact frame_runR _ _ (quiet_pickRRti1 _ s) s
  | rRti2 => exact frame_runR _ _ (quiet_pickRRti2 _ s) s
  | rRtt => exact frame_runR _ _ (quiet_pickRRtt _ s) s
  | rEnddo => exact frame_runR _ _ (quiet_pickREnddo _ s) s
  | rSync => exact frame_runR _ _ (quiet_pickRSync _ s) s
  | rWait => exact frame_runR _ _ (quiet_pickRWait _ s) s
  | rTrap => exact frame_runR _ _ (quiet_pickRTrap _ s) s
  | rBra => exact frame_runR _ _ (quiet_pickRBra _ s) s
  | rBsr => exact frame_runR _ _ (quiet_pickRBsr _ s) s
  | rBcc => exact frame_runR _ _ (quiet_pickRBcc _ s) s
  | rDo => exact frame_runR _ _ (quiet_pickRDo _ s) s
  | rRep => exact frame_runR _ _ (quiet_pickRRep _ s) s
  | rMovei => exact frame_runR _ _ (quiet_pickRMovei _ s) s
  | rMover => exact frame_runR _ _ (quiet_pickRMover _ s) s
  | rMovem => exact frame_runR _ _ (quiet_pickRMovem _ s) s
  | rAnd => exact frame_runR _ _ (quiet_pickRAnd _ s) s
  | rOr => exact frame_runR _ _ (quiet_pickROr _ s) s
  | rEor => exact frame_runR _ _ (quiet_pickREor _ s) s
  | rBset => exact frame_runR _ _ (quiet_pickRBset _ s) s
  | rBclr => exact frame_runR _ _ (quiet_pickRBclr _ s) s
  | rBtst => exact frame_runR _ _ (quiet_pickRBtst _ s) s
  | rAddi => exact frame_runR _ _ (quiet_pickRAddi _ s) s
  | rMovesOnly => exact frame_runR _ _ (quiet_pickRMovesOnly _ s) s
  | rMpy => exact frame_runR _ _ (quiet_pickRMpy _ s) s
  | rMac => exact frame_runR _ _ (quiet_pickRMac _ s) s
  | rMsu => exact frame_runR _ _ (quiet_pickRMsu _ s) s
  | rMpyr => exact frame_runR _ _ (quiet_pickRMpyr _ s) s
  | rMacr => exact frame_runR _ _ (quiet_pickRMacr _ s) s
  | rMac2 => exact frame_runR _ _ (quiet_pickRMac2 _ s) s
  | rMsu2 => exact frame_runR _ _ (quiet_pickRMsu2 _ s) s
  | rAdd => exact frame_runR _ _ (quiet_pickRAdd _ s) s
  | rSub => exact frame_runR _ _ (quiet_pickRSub _ s) s
  | rAdda => exact frame_runR _ _ (quiet_pickRAdda _ s) s
  | rSuba => exact frame_runR _ _ (quiet_pickRSuba _ s) s
  | rCmp => exact frame_runR _ _ (quiet_pickRCmp _ s) s
  | rTst => exact frame_runR _ _ (quiet_pickRTst _ s) s
  | rClr => exact frame_runR _ _ (quiet_pickRClr _ s) s
  | rNeg => exact frame_runR _ _ (quiet_pickRNeg _ s) s
  | rAbs => exact frame_runR _ _ (quiet_pickRAbs _ s) s
  | rTfr => exact frame_runR _ _ (quiet_pickRTfr _ s) s
  | rRnd => exact frame_runR _ _ (quiet_pickRRnd _ s) s
  | rAsl => exact frame_runR _ _ (quiet_pickRAsl _ s) s
  | rAsr => exact frame_runR _ _ (quiet_pickRAsr _ s) s
  | rNorm => exact frame_runR _ _ (quiet_pickRNorm _ s) s
  | rExp => exact frame_runR _ _ (quiet_pickRExp _ s) s
  | rJmp => exact frame_runR _ _ (quiet_pickRJmp _ s) s
  | rJsr => exact frame_runR _ _ (quiet_pickRJsr _ s) s
  | rBccLong => exact frame_runR _ _ (quiet_pickRBccLong _ s) s
  | rDoLong => exact frame_runR _ _ (quiet_pickRDoLong _ s) s
  | rRepLong => exact frame_runR _ _ (quiet_pickRRepLong _ s) s
  | rMoveiLong => exact frame_runR _ _ (quiet_pickRMoveiLong _ s) s
  | rMovel => exact frame_runR _ _ (quiet_pickRMovel _ s) s
  | rNormf => exact frame_runR _ _ (quiet_pickRNormf _ s) s
  | rMacx => exact frame_runR _ _ (quiet_pickRMacx _ s) s
  | rMovex => exact frame_runR _ _ (quiet_pickRMovex _ s) s
  | illegalInstruction => exact frame_runR _ _ (quiet_pickIllegalInstruction _ s) s
  | bar0RefusedAccess => exact Frame.ite _ (Frame.dev s _) (Frame.ite _ (Frame.refl s) (Frame.ite _ (Frame.dev s _)
      ((Frame.dev s _).trans (frame_answer _ _))))
  | bar2Access => exact frame_bar2 _ _ _ _ _ s
  | commandTakeUp => exact frame_takeUp _ _ s
  | dc512Start => exact frame_serveDc _ _ _ _ (frame_persStart _ _) s
  | loadDsp => exact frame_serveDc _ _ _ _ (frame_persLoadDsp _ _) s
  | dc512Reset | dc512Stop | setDump | setOutput | runDsp | haltDsp | getStatus => exact frame_serveDc _ _ _ _ (frame_onPers _) s
  | eyePointDone => exact frame_eyeDone _ _ _ s
  | frontSpectrum => exact frame_frontSpectrum s
  | kurtosisBlock => exact frame_kurtosisBlock s
  | batchClose => exact frame_batchClose _ s
  | chunkPromote => exact (frame_chunkStep s).andDev _
  | dumpComplete => exact frame_dumpComplete s
  | reserveTileSelftest | trigTimeout => exact FrameOut.ite _ (Frame.refl s) (Frame.dev s _)
  | beamChannelCourse => exact frame_beamStep s
  | capDrop => exact frameOut_capDrop _ _ _ s
  | matrixAccess => exact frame_matrixAccess _ _ _ _ _ _ _ _ _ s
  | targetedScrub => exact frame_targetedScrub _ _ _ s
  | patrolScrub => exact frame_patrolScrub _ _ s
  | dmaStart => exact frame_dmaByOwner _ _ _ (fun s => Frame.dev s _) s
  | resume => exact frame_dmaByOwner _ _ _ (frame_dmaResume _) s
  | abort => exact frame_dmaByOwner _ _ _ (frame_dmaAbort _ _) s
  | descriptorFetch => exact Frame.ite _ (frame_dmaFetch _ s) (Frame.refl s)
  | descriptorComplete => exact Frame.ite _ (frame_dmaComplete _ s) (Frame.refl s)
  | endCheck => exact Frame.ite _ (frame_dmaEndCheck _ s) (Frame.refl s)
  | cmdStart | cmdHalt | cmdReset => exact frame_cmdWrite _ _ _ s
  | kick | swset => exact Frame.ite _ (frame_regWrite _ _ _ _ s) (Frame.refl s)
  | reserveCoreSelftest => exact frame_reserveCoreTest _ s
  | resetN | supplyMonitorLow => exact Frame.ite _ (Frame.refl s) (frame_beginReset _ s)
  | powerSeq => exact frame_powerSeq _ _ _ s
  | deviceResetEnd => exact frame_resetEnd _ _ _ s
  | watchdogReset => exact frame_watchdogReset s
  | devReset | deviceResetAfterRelease => exact Frame.ite _ (frame_beginReset _ s) (Frame.refl s)
  | train => exact frame_train _ _ _ _ _ _ _ _ s
  | instructionLoad => exact frame_instructionLoad _ _ s
  | qdpAccess => exact frame_qdpScan _ _ s
  | step => exact Frame.ite _ (frame_qdpStep _ s) (Frame.refl s)
  | breakpoint => exact frame_breakpoint _ s
  | wordLatchRead => exact (frame_regAccess _ _ s).trans (frame_answer _ _)
  | registerWrite => exact (frame_regWrite _ _ _ _ s).trans (frame_answer _ _)
  | spiFrame bytes len => exact absurd rfl (hspi bytes len)
  | jobDone | bootRomStart | restore | commitStart | commitReadback | eraseComplete | vddAuxRemoved | powerOnReset =>
    exact absurd hflash nofun

end Sys2Proof.Proofs
end

section
/-!
SUPPORT. The generations of the retained slots (R465 to R467, R470): what the work on the flash keeps of the selected slot and of
the order of the generations.
-/
namespace Sys2Proof.Proofs
set_option Elab.async false
open Sys2Proof Sys2Proof.Machine Sys2Proof.Laws

/-! The order of the generations. -/

/-- Where both slots are valid, one has the generation after the other's. -/
def Successive (x y : RSlot) : Prop :=
  ∀ a b, x.gen? = some a → y.gen? = some b → a = (b + 1) % 2 ^ 32 ∨ b = (a + 1) % 2 ^ 32

/-- Slot `x` is valid, and a valid `y` has the generation before. -/
def Follows (x y : RSlot) : Prop := ∃ g, x.gen? = some g ∧ ∀ h, y.gen? = some h → g = (h + 1) % 2 ^ 32

/-- What `Flash.genOk` says. -/
structure Ordered (f : Flash) : Prop where
  slots : Successive (f.slot f.sel) (f.slot !f.sel)
  chosen : f.selValid = true → Follows (f.slot f.sel) (f.slot !f.sel)
  busy : f.engine = .programming ∨ f.engine = .verifying →
    f.clean = true ∧ (f.selValid = true → ∃ g, (f.slot f.sel).gen? = some g ∧ f.bufGen = (g + 1) % 2 ^ 32)

theorem Successive.symm {x y : RSlot} (h : Successive x y) : Successive y x := fun a b ha hb => (h b a hb ha).symm

theorem successive_slots (f : Flash) (b : Bool) : Successive f.slot0 f.slot1 ↔ Successive (f.slot b) (f.slot !b) := by
  cases b with
  | false => exact Iff.rfl
  | true => exact ⟨Successive.symm, Successive.symm⟩

theorem successive_of_invalid {x y : RSlot} (h : y.gen? = none) : Successive x y := fun _ _ _ hb => by simp [h] at hb

theorem Follows.successive {x y : RSlot} (h : Follows x y) : Successive x y := fun a b ha hb => by
  obtain ⟨g, hg, hnext⟩ := h
  left
  rw [← hnext b hb]
  exact Option.some.inj (ha.symm.trans hg)

theorem follows_of_invalid {x y : RSlot} {g : Nat} (hx : x.gen? = some g) (hy : y.gen? = none) : Follows x y :=
  ⟨g, hx, fun _ hh => by simp [hy] at hh⟩

/-- `Successive` as a test. -/
def successiveTest (x y : Option Nat) : Bool :=
  match x, y with
  | some a, some b => decide (a = (b + 1) % 2 ^ 32 ∨ b = (a + 1) % 2 ^ 32)
  | _, _ => true

/-- `Follows` as a test. -/
def followsTest (x y : Option Nat) : Bool :=
  match x, y with
  | some g, some h => g == (h + 1) % 2 ^ 32
  | some _, none => true
  | none, _ => false

theorem successiveTest_iff (x y : RSlot) : successiveTest x.gen? y.gen? = true ↔ Successive x y := by
  unfold Successive
  cases x.gen? <;> cases y.gen? <;> simp [successiveTest]

theorem followsTest_iff (x y : RSlot) : followsTest x.gen? y.gen? = true ↔ Follows x y := by
  unfold Follows
  cases x.gen? <;> cases y.gen? <;> simp [followsTest]

theorem genOk_eq (f : Flash) : f.genOk = (successiveTest f.slot0.gen? f.slot1.gen? &&
    (!f.selValid || followsTest (f.slot f.sel).gen? (f.slot !f.sel).gen?) &&
    (!(f.engine == .programming || f.engine == .verifying) ||
      (f.clean && (!f.selValid || (f.slot f.sel).gen?.any fun g => f.bufGen == (g + 1) % 2 ^ 32)))) := rfl

theorem genOk_iff (f : Flash) : f.genOk = true ↔ Ordered f := by
  have hbuf : ((f.slot f.sel).gen?.any fun g => f.bufGen == (g + 1) % 2 ^ 32) = true ↔
      ∃ g, (f.slot f.sel).gen? = some g ∧ f.bufGen = (g + 1) % 2 ^ 32 := by
    simp [Option.any_eq_true]
  simp only [genOk_eq, Bool.and_eq_true, Bool.or_eq_true, successiveTest_iff, followsTest_iff, successive_slots f f.sel, hbuf]
  constructor
  · rintro ⟨⟨hs, hc⟩, hb⟩
    refine ⟨hs, fun hv => hc.resolve_left (by simp [hv]), fun he => ?_⟩
    have hrun : (f.engine == .programming || f.engine == .verifying) = true := by simpa using he
    obtain ⟨hclean, hsel⟩ := hb.resolve_left (by simp [hrun])
    exact ⟨hclean, fun hv => hsel.resolve_left (by simp [hv])⟩
  · rintro ⟨hs, hc, hb⟩
    refine ⟨⟨hs, ?_⟩, ?_⟩
    · cases hv : f.selValid with
      | false => exact Or.inl rfl
      | true => exact Or.inr (hc hv)
    · by_cases he : f.engine = .programming ∨ f.engine = .verifying
      · obtain ⟨hclean, hsel⟩ := hb he
        refine Or.inr ⟨hclean, ?_⟩
        cases hv : f.selValid with
        | false => exact Or.inl rfl
        | true => exact Or.inr (hsel hv)
      · exact Or.inl (by simpa using he)

/-- With the engine neither programming nor verifying, the buffer is of no account. -/
theorem ordered_of_quiet {f : Flash} (hs : Successive (f.slot f.sel) (f.slot !f.sel))
    (hc : f.selValid = true → Follows (f.slot f.sel) (f.slot !f.sel)) (he : f.engine = .idle ∨ f.engine = .erasing) : Ordered f :=
  ⟨hs, hc, fun hb => by rcases he with he | he <;> simp [he] at hb⟩

/-! The operations on the slots. -/

/-- What a command keeps of the retained slots: the one that is selected, and the order of the generations. -/
structure SlotsKept (f g : Flash) : Prop where
  selected : f.selValid = true → g.slot f.sel = f.slot f.sel
  order : Ordered f → Ordered g

theorem SlotsKept.refl (f : Flash) : SlotsKept f f := ⟨fun _ => rfl, id⟩

theorem slot_putOther_sel {f : Flash} (x : RSlot) (hv : f.selValid = true) : (f.putOther x).slot f.sel = f.slot f.sel := by
  cases hs : f.sel <;> simp [Flash.putOther, Flash.target, Flash.slot, hv, hs]

theorem slot_putOther_other {f : Flash} (x : RSlot) (hv : f.selValid = true) : (f.putOther x).slot (!f.sel) = x := by
  cases hs : f.sel <;> simp [Flash.putOther, Flash.target, Flash.slot, hv, hs]

theorem putOther_of_none {f : Flash} (x : RSlot) (hv : f.selValid = false) : f.putOther x = { f with slot0 := x } := by
  simp [Flash.putOther, Flash.target, hv]

@[simp] theorem sel_putOther (f : Flash) (x : RSlot) : (f.putOther x).sel = f.sel := by unfold Flash.putOther; split <;> rfl
@[simp] theorem selValid_putOther (f : Flash) (x : RSlot) : (f.putOther x).selValid = f.selValid := by unfold Flash.putOther; split <;> rfl

theorem slotsKept_erase (f : Flash) : SlotsKept f f.erase := by
  unfold Flash.erase
  split
  · exact ⟨fun _ => rfl, fun h => ordered_of_quiet h.slots h.chosen (Or.inr rfl)⟩
  · exact SlotsKept.refl f

theorem slot_erase (f : Flash) (b : Bool) : f.erase.slot b = f.slot b := by
  unfold Flash.erase
  split <;> rfl

theorem SlotsKept.andErase {f g : Flash} (h : SlotsKept f g) : SlotsKept f g.erase :=
  ⟨fun hv => (slot_erase g f.sel).trans (h.selected hv), fun ho => (slotsKept_erase g).order (h.order ho)⟩

/-- With no slot selected, one unreadable slot is enough for the order. -/
theorem ordered_of_none {f : Flash} (b : Bool) (hv : f.selValid = false) (hb : (f.slot b).gen? = none)
    (he : f.engine = .idle ∨ f.engine = .erasing) : Ordered f := by
  refine ordered_of_quiet ?_ (fun h => absurd h (by simp [hv])) he
  rw [← successive_slots, successive_slots f b]
  exact (successive_of_invalid hb).symm

/-- What is not selected may become unreadable. -/
theorem slotsKept_spoilt {f g : Flash} (hsel : f.selValid = true → g.slot f.sel = f.slot f.sel ∧ g.sel = f.sel ∧ (g.slot !f.sel).gen? = none)
    (hv : g.selValid = f.selValid) (hnone : f.selValid = false → g.slot0.gen? = none) (he : g.engine = .idle) : SlotsKept f g := by
  refine ⟨fun h => (hsel h).1, fun ho => ?_⟩
  cases h : f.selValid with
  | false => exact ordered_of_none false (hv.trans h) (hnone h) (Or.inl he)
  | true =>
    obtain ⟨hkept, hs, hother⟩ := hsel h
    obtain ⟨g0, hg0, _⟩ := ho.chosen h
    have hfollows : Follows (g.slot g.sel) (g.slot !g.sel) := by
      rw [hs]
      exact follows_of_invalid (hkept ▸ hg0) hother
    exact ordered_of_quiet hfollows.successive (fun _ => hfollows) (Or.inl he)

theorem slotsKept_putOther (f : Flash) {x : RSlot} (hx : x.gen? = none) : SlotsKept f { f.putOther x with engine := .idle } := by
  refine slotsKept_spoilt (fun hv => ⟨slot_putOther_sel x hv, sel_putOther f x, ?_⟩) (selValid_putOther f x) (fun hv => ?_) rfl
  · exact (congrArg RSlot.gen? (slot_putOther_other x hv)).trans hx
  · rw [putOther_of_none x hv]
    exact hx

theorem slotsKept_bothSpoilt {f : Flash} {x : RSlot} (hx : x.gen? = none) (hv : f.selValid = false) :
    SlotsKept f { f with slot0 := x, slot1 := x, engine := .idle } :=
  slotsKept_spoilt (fun h => absurd h (by simp [hv])) rfl (fun _ => hx) rfl

theorem slotsKept_suspend (f : Flash) (still : Bool) : SlotsKept f (f.suspend still) := by
  unfold Flash.suspend
  split
  · exact SlotsKept.refl f
  · split
    · exact ⟨fun _ => rfl, fun h => ordered_of_quiet h.slots h.chosen (Or.inl rfl)⟩
    · split
      · exact slotsKept_putOther f rfl
      · exact slotsKept_bothSpoilt rfl (by simpa using ‹¬f.selValid = true›)

/-- The flash when an erase ends. -/
def erased (f : Flash) : Flash := { (if f.selValid then f.putOther .blank else { f with slot0 := .blank, slot1 := .blank }) with engine := .idle }

theorem slotsKept_erased (f : Flash) : SlotsKept f (erased f) := by
  unfold erased
  split
  · exact slotsKept_putOther f rfl
  · exact slotsKept_bothSpoilt rfl (by simpa using ‹¬f.selValid = true›)

/-- The flash when a commit begins to program. -/
def programmed (f : Flash) (commits : Nat) (img : Retained) : Flash :=
  { f with engine := .programming, bufGen := (f.gen + 1) % 2 ^ 32, bufCommits := commits, buf := img }

theorem gen_of_slot {f : Flash} {g : Nat} (hv : f.selValid = true) (hg : (f.slot f.sel).gen? = some g) : f.gen = g := by
  have hslot : (if f.sel then f.slot1 else f.slot0) = f.slot f.sel := rfl
  unfold Flash.gen
  rw [hslot]
  cases hs : f.slot f.sel with
  | blank | bad => simp [hs, RSlot.gen?] at hg
  | ok a c r =>
    rw [hs] at hg
    simpa [hv] using Option.some.inj hg

theorem slotsKept_programmed {f : Flash} (commits : Nat) (img : Retained) (hclean : f.clean = true) :
    SlotsKept f (programmed f commits img) := by
  refine ⟨fun _ => rfl, fun h => ⟨h.slots, h.chosen, fun _ => ⟨hclean, fun hv => ?_⟩⟩⟩
  obtain ⟨g, hg, _⟩ := h.chosen hv
  exact ⟨g, hg, by rw [← gen_of_slot hv hg]; rfl⟩

/-- The flash when the read-back of a commit has found its buffer. -/
def committed (f : Flash) : Flash :=
  { f.putOther (.ok f.bufGen f.bufCommits f.buf) with engine := .idle, sel := f.target, selValid := true }

theorem slotsKept_committed {f : Flash} (hbusy : f.engine = .programming ∨ f.engine = .verifying) : SlotsKept f (committed f) := by
  refine ⟨fun hv => slot_putOther_sel _ hv, fun h => ?_⟩
  obtain ⟨hclean, hbuf⟩ := h.busy hbusy
  suffices hnew : Follows ((committed f).slot (committed f).sel) ((committed f).slot !(committed f).sel) from
    ordered_of_quiet hnew.successive (fun _ => hnew) (Or.inl rfl)
  cases hv : f.selValid with
  | true =>
    have htarget : (committed f).sel = !f.sel := by simp [committed, Flash.target, hv]
    obtain ⟨g, hg, hnext⟩ := hbuf hv
    rw [htarget, Bool.not_not]
    refine ⟨f.bufGen, congrArg RSlot.gen? (slot_putOther_other _ hv), fun k hk => ?_⟩
    have hkept : (committed f).slot f.sel = f.slot f.sel := slot_putOther_sel _ hv
    rw [hkept, hg] at hk
    rw [hnext, Option.some.inj hk]
  | false =>
    have hblank : f.slot1 = .blank := by
      simp only [Flash.clean, hv, Bool.false_or, Bool.and_eq_true, beq_iff_eq] at hclean
      exact hclean.2
    have htarget : (committed f).sel = false := by simp [committed, Flash.target, hv]
    rw [htarget]
    refine ⟨f.bufGen, ?_, fun k hk => ?_⟩
    · simp [committed, putOther_of_none _ hv, Flash.slot, RSlot.gen?]
    · simp [committed, putOther_of_none _ hv, Flash.slot, hblank, RSlot.gen?] at hk

/-- The selection of R465 takes the later of two slots whose generations follow each other. -/
theorem ordered_select {f : Flash} (h : Ordered f) (he : f.engine = .idle ∨ f.engine = .erasing) : Ordered f.select := by
  have hslots : Successive f.slot0 f.slot1 := (successive_slots f f.sel).mpr h.slots
  have hboth : Successive (f.select.slot f.select.sel) (f.select.slot !f.select.sel) := (successive_slots f.select _).mp hslots
  refine ordered_of_quiet hboth (fun hv => ?_) he
  cases h0 : f.slot0.gen? with
  | none =>
    cases h1 : f.slot1.gen? with
    | none => simp [Flash.select, Flash.pick, h0, h1] at hv
    | some b =>
      have hsel : f.select.sel = true := by simp [Flash.select, Flash.pick, h0, h1]
      rw [hsel]
      exact follows_of_invalid h1 h0
  | some a =>
    cases h1 : f.slot1.gen? with
    | none =>
      have hsel : f.select.sel = false := by simp [Flash.select, Flash.pick, h0, h1]
      rw [hsel]
      exact follows_of_invalid h0 h1
    | some b =>
      have hsel : f.select.sel = later b a 32 := by simp [Flash.select, Flash.pick, h0, h1]
      rcases hslots a b h0 h1 with hab | hba
      · rw [hsel, hab, not_later_next]
        exact ⟨a, h0, fun k hk => by rw [hab, Option.some.inj (h1.symm.trans hk)]⟩
      · rw [hsel, hba, later_next]
        exact ⟨b, h1, fun k hk => by rw [hba, Option.some.inj (h0.symm.trans hk)]⟩

theorem engine_suspend (f : Flash) (still : Bool) (h : f.engine = .erasing) : (f.suspend still).engine = .idle := by
  unfold Flash.suspend
  rw [if_neg (not_not_intro h)]
  split
  · rfl
  · split <;> rfl

/-- The boot ROM suspends an erase and selects; without the flash it selects nothing. -/
theorem slotsKept_bootFlash {f : Flash} (still ok : Bool) (hp : f.engine ≠ .programming) (hv : f.engine ≠ .verifying) :
    SlotsKept f (bootFlash f still ok) := by
  have hsuspended : SlotsKept f (if f.engine = .erasing then f.suspend still else f) ∧
      ((if f.engine = .erasing then f.suspend still else f).engine = .idle ∨
        (if f.engine = .erasing then f.suspend still else f).engine = .erasing) := by
    split
    · exact ⟨slotsKept_suspend f still, Or.inl (engine_suspend f still ‹_›)⟩
    · refine ⟨SlotsKept.refl f, ?_⟩
      cases he : f.engine with
      | idle => exact Or.inl rfl
      | erasing => exact Or.inr rfl
      | programming => exact absurd he hp
      | verifying => exact absurd he hv
  unfold bootFlash
  generalize (if f.engine = .erasing then f.suspend still else f) = g at hsuspended ⊢
  obtain ⟨⟨hkept, horder⟩, he⟩ := hsuspended
  dsimp only
  split
  · exact ⟨hkept, fun h => ordered_select (horder h) he⟩
  · refine ⟨hkept, fun h => ordered_of_quiet (ordered_select (horder h) he).slots (fun hs => absurd hs (by simp)) he⟩

theorem cut_of_busy {f : Flash} (whole : Bool) (he : f.engine = .programming ∨ f.engine = .verifying) :
    f.cut whole = { f.putOther (if whole then .ok f.bufGen f.bufCommits f.buf else .bad) with engine := .idle } := by
  cases hv : f.selValid <;> cases hs : f.sel <;> rcases he with he | he <;> simp [Flash.cut, Flash.putOther, Flash.target, he, hv, hs]

theorem cut_of_erasing {f : Flash} (whole : Bool) (he : f.engine = .erasing) : f.cut whole = f.suspend whole := by
  cases hv : f.selValid <;> cases hs : f.sel <;> cases whole <;>
    simp [Flash.cut, Flash.suspend, Flash.putOther, Flash.target, he, hv, hs]

theorem ordered_slots {f : Flash} (h : Ordered f) : Successive f.slot0 f.slot1 := (successive_slots f f.sel).mpr h.slots

/-- A header that stands whole has the generation after the selected one's; one cut short leaves the slot invalid. -/
theorem successive_cut_of_busy {f : Flash} (whole : Bool) (h : Ordered f) (he : f.engine = .programming ∨ f.engine = .verifying) :
    Successive (f.cut whole).slot0 (f.cut whole).slot1 := by
  rw [cut_of_busy whole he]
  cases whole with
  | true => exact ordered_slots (f := committed f) ((slotsKept_committed he).order h)
  | false => exact ordered_slots ((slotsKept_putOther f (x := .bad) rfl).order h)

theorem successive_cut {f : Flash} (whole : Bool) (h : Ordered f) : Successive (f.cut whole).slot0 (f.cut whole).slot1 := by
  cases he : f.engine with
  | idle =>
    have hcut : f.cut whole = f := by simp [Flash.cut, he]
    rw [hcut]
    exact ordered_slots h
  | programming => exact successive_cut_of_busy whole h (Or.inl he)
  | verifying => exact successive_cut_of_busy whole h (Or.inr he)
  | erasing =>
    rw [cut_of_erasing whole he]
    exact ordered_slots ((slotsKept_suspend f whole).order h)

theorem engine_cut (f : Flash) (whole : Bool) : (f.cut whole).engine = .idle := by
  cases he : f.engine with
  | idle => simp [Flash.cut, he]
  | programming => rw [cut_of_busy whole (Or.inl he)]
  | verifying => rw [cut_of_busy whole (Or.inr he)]
  | erasing => rw [cut_of_erasing whole he, engine_suspend f whole he]

/-- A power failure leaves nothing selected. -/
theorem slotsKept_flashOff (f : Flash) (whole : Bool) : SlotsKept f (flashOff f whole) :=
  ⟨fun hv => slot_cut_sel whole hv, fun h => ordered_of_quiet ((successive_slots _ _).mp (successive_cut whole h)) nofun
    (Or.inl (engine_cut f whole))⟩

/-! The commands that work on the flash. -/

theorem slotsKept_commitStart (s0 s1 : Nat) (s : State) : SlotsKept s.flash (commitStart s0 s1 s).flash := by
  unfold commitStart
  dsimp only
  split
  · exact SlotsKept.refl _
  · split
    · exact slotsKept_erase _
    · split
      · exact SlotsKept.refl _
      · exact slotsKept_programmed _ _ (by simpa using ‹¬(!s.flash.clean) = true›)

theorem slotsKept_commitReadback (same : Bool) (s : State) : SlotsKept s.flash (commitReadback same s).flash := by
  unfold commitReadback
  dsimp only
  split
  · exact SlotsKept.refl _
  · rename_i hbusy
    have he : s.flash.engine = .programming ∨ s.flash.engine = .verifying :=
      Classical.or_iff_not_imp_left.mpr fun hp => Classical.byContradiction fun hv => hbusy ⟨hp, hv⟩
    cases same with
    | true => exact (slotsKept_committed he).andErase
    | false => exact (slotsKept_putOther s.flash (x := .bad) rfl).andErase

theorem slotsKept_bootRom (corePass flashOk : Bool) (chk : List (Nat × Nat)) (s : State) :
    SlotsKept s.flash (bootRom corePass flashOk chk s).flash := by
  rcases frame_bootRom corePass flashOk chk s with hframe | ⟨hp, hv, still, d, hframe⟩
  · rw [hframe.flash]
    exact SlotsKept.refl _
  · rw [hframe.flash]
    exact slotsKept_bootFlash still flashOk hp hv

theorem slotsKept_restore (ack : Bool) (s : State) : SlotsKept s.flash (restore ack s).flash := by
  rcases (calm_restore ack s).2 with h | h <;> rw [h]
  · exact SlotsKept.refl _
  · exact slotsKept_erase _

/-- The end of a job changes the image slots alone. -/
theorem slotsKept_jobDone (i : Nat) (bad : List Nat) (s : State) : SlotsKept s.flash (jobDone i bad s).flash := by
  obtain ⟨a, b, h⟩ := (calm_jobDone i bad s).2
  rw [h]
  exact ⟨fun _ => rfl, fun ⟨hs, hc, hb⟩ => ⟨hs, hc, hb⟩⟩

/-- What a command that works on the flash keeps: the queue, the form of the memories and the retained slots. -/
theorem exec_of_flashWork {c : Instr} (s : State) (h : flashWork c = true) :
    ∃ t, exec c s = .next t ∧ Calm s t ∧ SlotsKept s.flash t.flash := by
  cases c with
  | commitStart s0 s1 => exact ⟨_, rfl, calm_commitStart s0 s1 s, slotsKept_commitStart s0 s1 s⟩
  | commitReadback same => exact ⟨_, rfl, calm_commitReadback same s, slotsKept_commitReadback same s⟩
  | eraseComplete =>
    by_cases he : s.flash.engine = .erasing
    · exact ⟨_, congrArg Host.Outcome.next (if_neg (not_not_intro he)), ⟨rfl, id⟩, slotsKept_erased s.flash⟩
    · exact ⟨s, congrArg Host.Outcome.next (if_pos he), Calm.refl s, SlotsKept.refl _⟩
  | bootRomStart corePass flashOk chk =>
    refine ⟨_, rfl, ?_, slotsKept_bootRom corePass flashOk chk s⟩
    rcases frame_bootRom corePass flashOk chk s with h | ⟨_, _, _, _, h⟩
    · exact h.toCalm
    · exact ⟨h.pending, h.mem⟩
  | restore ack => exact ⟨_, rfl, (calm_restore ack s).1, slotsKept_restore ack s⟩
  | jobDone i bad =>
    cases hserved : s.dev.mailServed with
    | true => exact ⟨_, congrArg Host.Outcome.next (if_pos hserved), (calm_jobDone i bad s).1, slotsKept_jobDone i bad s⟩
    | false => exact ⟨s, congrArg Host.Outcome.next (if_neg (by simp [hserved])), Calm.refl s, SlotsKept.refl _⟩
  | vddAuxRemoved whole => exact ⟨_, rfl, calm_powerOff whole false 0 s, slotsKept_flashOff s.flash whole⟩
  | powerOnReset straps => exact ⟨_, rfl, ⟨rfl, (calm_powerOff false true (straps % 4) s).mem⟩, slotsKept_flashOff s.flash false⟩
  | _ => exact absurd h nofun

/-! Every command. -/

theorem exec_frame {c : Instr} (s : State) (hflash : flashWork c = false) (hspi : ∀ bytes len, c ≠ .spiFrame bytes len) :
    ∃ t, exec c s = .next t ∧ Frame s t := by
  have h := frameOut_exec s hflash hspi
  cases he : exec c s with
  | next t =>
    rw [he] at h
    exact ⟨t, rfl, h⟩
  | fault f =>
    rw [he] at h
    exact h.elim
  | refused r =>
    rw [he] at h
    exact h.elim

/-- A frame of the SPI port is refused in compatibility mode and otherwise changes the device alone (R379). -/
theorem exec_spiFrame (bytes : List Nat) (len : Nat) (s : State) :
    (s.dev.compat = true ∧ exec (.spiFrame bytes len) s = .refused .spiProtocolNotGiven) ∨
      ∃ d, exec (.spiFrame bytes len) s = .next { s with dev := d } := by
  cases h : s.dev.compat with
  | true => exact Or.inl ⟨rfl, if_pos h⟩
  | false => exact Or.inr ⟨_, if_neg (by simp [h])⟩

/-- What one command can do: it goes on, keeping the queue, the form of the memories and the retained slots, and outside the work on the
flash the flash as well; or it is an SPI frame refused in compatibility mode. -/
theorem exec_cases (c : Instr) (s : State) :
    (∃ t, exec c s = .next t ∧ Calm s t ∧ SlotsKept s.flash t.flash ∧ (flashWork c = false → t.flash = s.flash)) ∨
      ((∃ bytes len, c = .spiFrame bytes len) ∧ s.dev.compat = true ∧ exec c s = .refused .spiProtocolNotGiven) := by
  by_cases hspi : ∃ bytes len, c = .spiFrame bytes len
  · obtain ⟨bytes, len, rfl⟩ := hspi
    rcases exec_spiFrame bytes len s with ⟨hcompat, hrefused⟩ | ⟨d, hnext⟩
    · exact Or.inr ⟨⟨bytes, len, rfl⟩, hcompat, hrefused⟩
    · exact Or.inl ⟨_, hnext, ⟨rfl, id⟩, SlotsKept.refl _, fun _ => rfl⟩
  · left
    cases hflash : flashWork c with
    | true =>
      obtain ⟨t, hnext, hcalm, hslots⟩ := exec_of_flashWork s hflash
      exact ⟨t, hnext, hcalm, hslots, nofun⟩
    | false =>
      obtain ⟨t, hnext, hframe⟩ := exec_frame s hflash fun bytes len h => hspi ⟨bytes, len, h⟩
      exact ⟨t, hnext, hframe.toCalm, hframe.flash ▸ SlotsKept.refl _, fun _ => hframe.flash⟩

theorem exec_next {c : Instr} {s t : State} (h : exec c s = .next t) :
    Calm s t ∧ SlotsKept s.flash t.flash ∧ (flashWork c = false → t.flash = s.flash) := by
  rcases exec_cases c s with ⟨u, hnext, hkept⟩ | ⟨_, _, hrefused⟩
  · obtain rfl : t = u := Host.Outcome.next.inj (h.symm.trans hnext)
    exact hkept
  · exact absurd (h.symm.trans hrefused) nofun

/-- A step is a nanosecond of the device alone, or the command at the front on the state without it in the queue. -/
theorem step_cases (s : State) : (s.pending = [] ∧ step s = .next { s with dev := s.dev.tick }) ∨
    ∃ c cs, s.pending = c :: cs ∧ step s = exec c { s with pending := cs } := by
  cases h : s.pending with
  | nil => exact Or.inl ⟨rfl, by rw [step, h]⟩
  | cons c cs => exact Or.inr ⟨c, cs, rfl, by rw [step, h]⟩

theorem step_next {s t : State} (h : step s = .next t) : (s.mem.wf = true → t.mem.wf = true) ∧ SlotsKept s.flash t.flash := by
  rcases step_cases s with ⟨_, hstep⟩ | ⟨c, cs, _, hstep⟩
  · obtain rfl := Host.Outcome.next.inj (hstep.symm.trans h)
    exact ⟨id, SlotsKept.refl _⟩
  · obtain ⟨hcalm, hslots, _⟩ := exec_next (hstep.symm.trans h)
    exact ⟨hcalm.mem, hslots⟩

/-- Settles O35: no command and no nanosecond breaks the form of the memories. -/
theorem stepKeepsMemoryForm : Obligations.StepKeepsMemoryForm := fun _ _ hwf hstep => (step_next hstep).1 hwf

/-- Settles O36: what the commands that work on the flash keep of the slots, and no other command touches it. -/
theorem stepKeepsSelectedSlot : Obligations.StepKeepsSelectedSlot := by
  intro s t hstep
  obtain ⟨_, hslots⟩ := step_next hstep
  exact ⟨hslots.selected, fun h => (genOk_iff _).mpr (hslots.order ((genOk_iff _).mp h))⟩

/-- Settles O38: every command keeps the queue. -/
theorem commandsKeepQueue : Obligations.CommandsKeepQueue := fun _ _ _ h => (exec_next h).1.pending

/-- Settles O39: a command goes on or is that SPI frame. -/
theorem onlySpiFrameStops : Obligations.OnlySpiFrameStops := by
  intro c s
  rcases exec_cases c s with ⟨t, hnext, _⟩ | ⟨hspi, hcompat, hrefused⟩
  · rw [hnext]
    exact ⟨nofun, nofun⟩
  · rw [hrefused]
    exact ⟨nofun, fun r hr => ⟨(Host.Outcome.refused.inj hr).symm, hcompat, hspi⟩⟩

/-- Settles O40: outside the work on the flash it stays, and the end of a job changes the image slots alone. -/
theorem flashFrame : Obligations.FlashFrame := by
  intro c s t h
  refine ⟨(exec_next h).2.2, ?_⟩
  rintro i bad rfl
  cases hserved : s.dev.mailServed with
  | true =>
    obtain ⟨a, b, hflash⟩ := (calm_jobDone i bad s).2
    obtain rfl : jobDone i bad s = t := Host.Outcome.next.inj ((congrArg Host.Outcome.next (if_pos hserved)).symm.trans h)
    rw [hflash]
  | false =>
    obtain rfl : s = t := Host.Outcome.next.inj ((congrArg Host.Outcome.next (if_neg (by simp [hserved]))).symm.trans h)
    rfl

/-- Settles O32: a step takes the front of the queue. -/
theorem stepTakesFront : Obligations.StepTakesFront := by
  intro c cs s h
  rw [step, h]

/-- Settles O12: the SPI port's own check of the mode (R379). -/
theorem spiFrameRefusedInCompat : Obligations.SpiFrameRefusedInCompat := fun _ _ _ h => if_pos h

/-! The events and accesses that reach no memory. -/

theorem exec_of_deviceOnly {c : Instr} (s : State) (h : deviceOnly c = true) : ∃ d, exec c s = .next { s with dev := d } := by
  cases c with
  | doorbellWrite | mailboxSlotWrite | msixSpacingEnd | endpointReset | heartbeatTick | smbusWrite | smbusDoorbell | smbusTimeout |
    smbusAlertResponse | spiCsTimeout | dc512Doorbell | dc512Flr | dc512FrameReceived | adaptationSettled | frameLock | identify |
    lpExitLate | bulkAuditPoint | laneTuckpoint | txMonitorFail | laneFailTimeout | sysrefTimeout | checkerLock | periodicInjection |
    refresh | retrainPause | retrainForced | scrubLate | spared | errorHandling | pop | clrFirst | clrLost | cvStart | cvFeedB |
    cvFeedH | cvFeedW | feedAbsorb | cvAliveGo | cvResultRead | remap | watchdogExpiry | timerCompare | windowWriteError |
    level1Interrupt | level2Interrupt | pfcPauseEnd | pfcStorm | stormClear | pfcRenew | linkDown | linkUp | packetTransmit |
    resolutionRetry | entryRefresh | trigTxDrop | ptpMessageTx | announceTimeout | tsuTodSecRead | stepArm | activityFault |
    periodFault | ppsInEdge | frequencyMeasurement | switchComplete | switchTimeout | narrowStep | lossOfLock | xoFail | holdoverUpdate
    | historyRecord | dailyEntry | xoChanged | hoLimit | tempStale | timXoTempWrite | phaseStep | sysrefOutPulse | sensorReading |
    shutdownAssert | sensorTuckpoint | analogueTrip | avsAdjust | leaseSync | leaseGrant | leaseRevoke | healthReport | trainTimeout |
    tapReset | halt | qdpResume | hourlyCommitRetry | returnToD0 =>
    exact ⟨_, rfl⟩
  | _ => exact absurd h nofun

/-- Settles O41: each of these commands changes the device. -/
theorem deviceOnlyFrame : Obligations.DeviceOnlyFrame := by
  intro c s t hdev h
  obtain ⟨d, hnext⟩ := exec_of_deviceOnly s hdev
  obtain rfl := Host.Outcome.next.inj (hnext.symm.trans h)
  rfl

end Sys2Proof.Proofs
end

section
/-!
SUPPORT. Convergent rounding (R15), and what a write through the matrix does to the bytes and the poison of a memory (R338, R346, R383,
R384).
-/
namespace Sys2Proof.Proofs
set_option Elab.async false
open Sys2Proof.Machine Sys2Proof.Laws

/-! Convergent rounding. -/

/-- The error of the rounded quotient is the remainder or what the remainder lacks of the divisor; half the divisor falls to the even side. -/
theorem roundDiv_spec (x : Int) {n : Nat} (hn : 0 < n) :
    2 * (x - n * roundDiv x n).natAbs ≤ n ∧ (2 * (x - n * roundDiv x n).natAbs = n → roundDiv x n % 2 = 0) := by
  have hsplit : n * (x / n) + x % n = x := Int.mul_ediv_add_emod x n
  have hge : 0 ≤ x % n := Int.emod_nonneg x (by omega)
  have hlt : x % n < n := Int.emod_lt_of_pos x (by omega)
  have hdown : x - n * (x / n) = x % n := by omega
  have hup : x - n * (x / n + 1) = x % n - n := by rw [Int.mul_add]; omega
  unfold roundDiv
  dsimp only
  split
  · rw [hdown]
    omega
  · split
    · rw [hup]
      omega
    · split
      · rw [hdown]
        omega
      · rw [hup]
        omega

/-- Two multiples of the divisor that are both nearer than half of it are one. -/
theorem nearest_unique {x q r : Int} {n : Nat} (hq : 2 * (x - n * q).natAbs < n) (hr : 2 * (x - n * r).natAbs ≤ n) : r = q := by
  have hdiff : (n * (q - r)).natAbs < n := by
    rw [Int.mul_sub]
    omega
  rw [Int.natAbs_mul, Int.natAbs_natCast] at hdiff
  have hzero : (q - r).natAbs = 0 := Nat.eq_zero_of_not_pos fun hpos =>
    absurd (Nat.le_mul_of_pos_right n hpos) (Nat.not_le.mpr hdiff)
  omega

/-- Settles O47: the rounded quotient is within half the divisor, even at half, and nothing else is nearer. -/
theorem roundingIsConvergent : Obligations.RoundingIsConvergent := by
  intro x q n hn
  obtain ⟨hnear, heven⟩ := roundDiv_spec x hn
  exact ⟨hnear, heven, fun hq => nearest_unique hq hnear⟩

/-! The bytes of a memory. -/

theorem host_store (m : Mem) (a : Nat) (bs : List Nat) (p : Bool) : (m.store a bs p).host = m.host := by
  unfold Mem.store
  refine foldl_keeps (fun q : Mem => q.host = m.host) _ (fun q g h => ?_) _ _ rfl
  exact h

theorem rd8_store_of_outside {m : Mem} {a k : Nat} {bs : List Nat} (p : Bool) (h : k < a ∨ a + bs.length ≤ k) :
    (m.store a bs p).rd8 k = m.rd8 k := by
  rw [rd8_store, if_neg (by omega)]

/-- The pieces of a write in live grains lie in its range. -/
theorem livePieces_range {d : Dev} {a : Nat} {bs : List Nat} {x : Nat × List Nat} (h : x ∈ livePieces d a bs) :
    a ≤ x.1 ∧ (x.2 = [] ∨ x.1 + x.2.length ≤ a + bs.length) := by
  simp only [livePieces, List.mem_filterMap] at h
  obtain ⟨g, _, hx⟩ := h
  split at hx
  · exact absurd hx nofun
  · obtain rfl := Option.some.inj hx
    refine ⟨Nat.le_max_left _ _, ?_⟩
    rw [Classical.or_iff_not_imp_left, ← ne_eq, ← List.length_pos_iff]
    simp only [List.length_take, List.length_drop]
    omega

theorem rd8_storePieces {l : List (Nat × List Nat)} {a n k : Nat} (psn : Bool) (hk : k < a ∨ a + n ≤ k)
    (hl : ∀ x ∈ l, a ≤ x.1 ∧ (x.2 = [] ∨ x.1 + x.2.length ≤ a + n)) (m : Mem) :
    (l.foldl (fun q x => q.store x.1 x.2 psn) m).rd8 k = m.rd8 k := by
  induction l generalizing m with
  | nil => rfl
  | cons x l ih =>
    obtain ⟨hlo, hhi⟩ := hl x List.mem_cons_self
    rw [List.foldl_cons, ih fun y hy => hl y (List.mem_cons_of_mem x hy)]
    refine rd8_store_of_outside psn ?_
    rcases hhi with hnil | hhi
    · rw [hnil, List.length_nil]
      omega
    · omega

theorem host_storePieces (l : List (Nat × List Nat)) (psn : Bool) (m : Mem) :
    (l.foldl (fun q x => q.store x.1 x.2 psn) m).host = m.host :=
  foldl_keeps (fun q : Mem => q.host = m.host) _ (fun q x h => (host_store q x.1 x.2 psn).trans h) _ _ rfl

/-- A byte outside the range of a write keeps its value. -/
theorem rd8_memWrite {d : Dev} {m : Mem} {a k : Nat} {bs : List Nat} (psn : Bool)
    (hk : k < (d.route a).2 ∨ (d.route a).2 + bs.length ≤ k) : (memWrite d m a bs psn).2.rd8 k = m.rd8 k := by
  have hdram : ∀ p : Nat, k < p ∨ p + bs.length ≤ k → (if (granulesOf p bs.length).any d.dead then
      (true, (livePieces d p bs).foldl (fun q x => q.store x.1 x.2 psn) m) else (true, m.store p bs psn)).2.rd8 k = m.rd8 k := by
    intro p hp
    split
    · exact rd8_storePieces psn hp (fun x hx => livePieces_range hx) m
    · exact rd8_store_of_outside psn hp
  unfold memWrite
  generalize d.route a = r at hk ⊢
  obtain ⟨t, p⟩ := r
  cases t with
  | sram => exact rd8_store_of_outside psn hk
  | core => exact rd8_store_of_outside psn (by simpa using hk)
  | hbm | ddr => exact hdram p hk
  | out =>
    dsimp only
    split
    · cases psn <;> rfl
    · rfl
  | rom | blocks | hostmem | none => rfl

theorem host_memWrite {d : Dev} {m : Mem} {a : Nat} (bs : List Nat) (psn : Bool) (hout : (d.route a).1 ≠ .out) :
    (memWrite d m a bs psn).2.host = m.host := by
  have hdram : ∀ p : Nat, (if (granulesOf p bs.length).any d.dead then
      (true, (livePieces d p bs).foldl (fun q x => q.store x.1 x.2 psn) m) else (true, m.store p bs psn)).2.host = m.host := by
    intro p
    split
    · exact host_storePieces _ psn m
    · exact host_store m p bs psn
  unfold memWrite
  generalize d.route a = r at hout ⊢
  obtain ⟨t, p⟩ := r
  cases t with
  | sram | core => exact host_store _ _ _ _
  | hbm | ddr => exact hdram p
  | out => exact absurd rfl hout
  | rom | blocks | hostmem | none => rfl

/-- Only a target that holds no memory, or an outbound window that is closed, refuses a write. -/
theorem memWrite_of_refused {d : Dev} {m : Mem} {a : Nat} {bs : List Nat} {psn : Bool} (h : (memWrite d m a bs psn).1 = false) :
    (memWrite d m a bs psn).2 = m := by
  unfold memWrite at h ⊢
  generalize d.route a = r at h ⊢
  obtain ⟨t, p⟩ := r
  cases t with
  | sram | core => exact absurd h nofun
  | hbm | ddr =>
    dsimp only at h
    split at h <;> exact absurd h nofun
  | out =>
    dsimp only at h ⊢
    split at h
    · exact absurd h nofun
    · rename_i hclosed
      rw [if_neg hclosed]
  | rom | blocks | hostmem | none => rfl

theorem memWrite_of_sram {d : Dev} {m : Mem} {a : Nat} (bs : List Nat) (psn : Bool) (h : (d.route a).1 = .sram) :
    memWrite d m a bs psn = (true, m.store (d.route a).2 bs psn) := by
  have hroute : d.route a = (.sram, (d.route a).2) := Prod.ext h rfl
  unfold memWrite
  rw [hroute]

/-- Settles O43: the bytes, host memory and the refusal, each by the target that the address is routed to. -/
theorem memoryWriteFrame : Obligations.MemoryWriteFrame := by
  intro d m a k bs psn
  refine ⟨rd8_memWrite psn, fun h => ?_, host_memWrite bs psn, memWrite_of_refused⟩
  rw [memWrite_of_sram bs psn h]
  refine ⟨rfl, fun i hi => ?_⟩
  rw [rd8_store, if_pos ⟨Nat.le_add_right _ _, Nat.add_lt_add_left hi _⟩, Nat.add_sub_cancel_left]

/-! The poison of a memory. -/

theorem poisonAt_of_aligned (m : Mem) {g : Nat} (hg : g % granule g = 0) :
    m.poisonAt g = (tget (fun _ => false) m.poison g || m.softAt (memClass g) g == 2) := by
  have hbase : g / granule g * granule g = g := Nat.div_mul_cancel (Nat.dvd_of_mod_eq_zero hg)
  simp only [Mem.poisonAt, hbase]

theorem softKey_injective {k k' g h : Nat} (hg : g < 2 ^ 48) (hh : h < 2 ^ 48) (he : softKey k h = softKey k' g) : h = g := by
  unfold softKey at he
  omega

/-- A granule written anew reads as marked, and every other as before. -/
theorem poisonAt_mark (m : Mem) {g h : Nat} (p : Bool) (hg : g % granule g = 0) (hlt : g < 2 ^ 48) (hh : h < 2 ^ 48) :
    (m.mark h p).poisonAt g = if h = g then p else m.poisonAt g := by
  rw [poisonAt_of_aligned _ hg, poisonAt_of_aligned _ hg]
  simp only [Mem.mark, Mem.setSoft, Mem.softAt, tget_tset]
  by_cases he : h = g
  · simp [he]
  · have hkey : ¬ softKey (memClass h) h = softKey (memClass g) g := fun hk => he (softKey_injective hlt hh hk)
    simp [he, hkey]

theorem poisonAt_marks {l : List Nat} {g : Nat} (f : Nat → Bool) (hg : g % granule g = 0) (hlt : g < 2 ^ 48) (hl : ∀ h ∈ l, h < 2 ^ 48)
    (m : Mem) : (l.foldl (fun q h => q.mark h (f h)) m).poisonAt g = if g ∈ l then f g else m.poisonAt g := by
  induction l generalizing m with
  | nil => rfl
  | cons x l ih =>
    rw [List.foldl_cons, ih fun h hh => hl h (List.mem_cons_of_mem x hh), poisonAt_mark m _ hg hlt (hl x List.mem_cons_self)]
    by_cases hmem : g ∈ l
    · simp [hmem]
    · by_cases hx : x = g
      · simp [hx]
      · simp [hmem, hx, Ne.symm hx]

theorem granule_pos (a : Nat) : 0 < granule a := by
  unfold granule
  split
  · decide
  · split <;> decide

theorem le_of_mem_granulesOf {a n h : Nat} (hh : h ∈ granulesOf a n) : h ≤ a + n - 1 := by
  unfold granulesOf at hh
  split at hh
  · exact absurd hh List.not_mem_nil
  · obtain ⟨i, hi, rfl⟩ := List.mem_map.mp hh
    rw [List.mem_range] at hi
    calc (a / granule a + i) * granule a ≤ (a + n - 1) / granule a * granule a := Nat.mul_le_mul_right _ (by omega)
      _ ≤ a + n - 1 := Nat.div_mul_le_self _ _

/-- A granule that lies whole in the range is one of those that it touches. -/
theorem mem_granulesOf {a n g : Nat} (hg : g % granule a = 0) (hlo : a ≤ g) (hhi : g + granule a ≤ a + n) : g ∈ granulesOf a n := by
  have hpos := granule_pos a
  have hdiv : g / granule a * granule a = g := Nat.div_mul_cancel (Nat.dvd_of_mod_eq_zero hg)
  have hfrom : a / granule a ≤ g / granule a := Nat.div_le_div_right hlo
  have hto : g / granule a ≤ (a + n - 1) / granule a := Nat.div_le_div_right (by omega)
  unfold granulesOf
  rw [if_neg (by omega)]
  refine List.mem_map.mpr ⟨g / granule a - a / granule a, List.mem_range.mpr (by omega), ?_⟩
  rw [Nat.add_sub_cancel' hfrom, hdiv]

/-- The poison of a granule after a store. -/
theorem poisonAt_store (m : Mem) {a g : Nat} (bs : List Nat) (p : Bool) (hg : g % granule g = 0) (hlt : g < 2 ^ 48)
    (hend : a + bs.length ≤ 2 ^ 48) : (m.store a bs p).poisonAt g =
      if g ∈ granulesOf a bs.length then p || (!decide (a ≤ g ∧ g + granule a ≤ a + bs.length) && m.poisonAt g) else m.poisonAt g := by
  refine poisonAt_marks (fun h => p || (!decide (a ≤ h ∧ h + granule a ≤ a + bs.length) && m.poisonAt h)) hg hlt (fun h hh => ?_) (m.wr a bs)
  have := le_of_mem_granulesOf hh
  omega

/-- Settles O44: the store marks each granule that it reaches, and no other. -/
theorem poisonFollowsWrites : Obligations.PoisonFollowsWrites := by
  intro m a g bs hsize hg hlt hend _
  have hstore := fun p => poisonAt_store m (a := a) bs p hg hlt hend
  refine ⟨fun hlo hhi => ?_, fun hmem hpart hpsn => ?_, fun hmem => ?_, fun hmem p => ?_⟩
  · rw [hstore, if_pos (mem_granulesOf (hsize ▸ hg) hlo (hsize ▸ hhi))]
    simp [hlo, hsize ▸ hhi]
  · rw [hstore, if_pos hmem, ← hsize]
    simp [hpart, hpsn]
  · rw [hstore, if_pos hmem, Bool.true_or]
  · rw [hstore, if_neg hmem]

end Sys2Proof.Proofs
end

section
/-!
SUPPORT. Jobs (R369 to R371): the index that the next job takes, and the registers and the record that its acceptance writes.
-/
namespace Sys2Proof.Proofs
set_option Elab.async false
open Sys2Proof.Machine Sys2Proof.Laws

/-! The index that the next job takes. -/

/-- The earlier of a job found so far and one more, by the order in which they ended. -/
def earlierEnd (d : Dev) (acc : Option Nat) (i : Nat) : Option Nat :=
  match acc with
  | none => some i
  | some b => if (d.job i).endOrder < (d.job b).endOrder then some i else some b

/-- Job `i` ended no later than any of a list, and is one of them. -/
def EndedFirst (d : Dev) (l : List Nat) (i : Nat) : Prop := i ∈ l ∧ ∀ k ∈ l, (d.job i).endOrder ≤ (d.job k).endOrder

theorem endedFirst_foldl (d : Dev) (l m : List Nat) (b : Nat) (hb : EndedFirst d m b) :
    ∃ i, l.foldl (earlierEnd d) (some b) = some i ∧ EndedFirst d (m ++ l) i := by
  induction l generalizing b m with
  | nil => exact ⟨b, rfl, by simpa using hb⟩
  | cons x l ih =>
    obtain ⟨hmem, hmin⟩ := hb
    rw [List.foldl_cons, earlierEnd, List.append_cons]
    split
    · refine ih (m ++ [x]) x ⟨by simp, fun k hk => ?_⟩
      rcases List.mem_append.mp hk with hk | hk
      · exact Nat.le_of_lt (Nat.lt_of_lt_of_le ‹_› (hmin k hk))
      · exact Nat.le_of_eq (by rw [List.mem_singleton.mp hk])
    · refine ih (m ++ [x]) b ⟨by simp [hmem], fun k hk => ?_⟩
      rcases List.mem_append.mp hk with hk | hk
      · exact hmin k hk
      · rw [List.mem_singleton.mp hk]
        exact Nat.not_lt.mp ‹_›

theorem endedFirst_of_foldl {d : Dev} {l : List Nat} {i : Nat} (h : l.foldl (earlierEnd d) none = some i) : EndedFirst d l i := by
  cases l with
  | nil => exact absurd h nofun
  | cons x l =>
    obtain ⟨j, hj, hfirst⟩ := endedFirst_foldl d l [x] x ⟨List.mem_singleton_self x, fun k hk =>
      Nat.le_of_eq (by rw [List.mem_singleton.mp hk])⟩
    obtain rfl := Option.some.inj (h.symm.trans hj)
    exact hfirst

theorem nextIndex_eq (d : Dev) : d.nextIndex = ((List.range 1024).find? fun i => d.jobState i == 0).or
    (((List.range 1024).filter fun i => d.jobState i == 3).foldl (earlierEnd d) none) := by
  unfold Dev.nextIndex
  generalize List.range 1024 = l
  cases l.find? fun i => d.jobState i == 0 <;> rfl

/-- The lowest free index, or where none is free that of the DONE job which ended first (R369). -/
theorem nextIndex_some {d : Dev} {i : Nat} (h : d.nextIndex = some i) : i < 1024 ∧
    ((d.jobState i = 0 ∧ ∀ k, k < i → d.jobState k ≠ 0) ∨
      (d.jobState i = 3 ∧ ∀ k, k < 1024 → d.jobState k ≠ 0 ∧ (d.jobState k = 3 → (d.job i).endOrder ≤ (d.job k).endOrder))) := by
  rw [nextIndex_eq, Option.or_eq_some_iff] at h
  rcases h with hfree | ⟨hnone, hdone⟩
  · obtain ⟨hzero, hmem, hbelow⟩ := List.find?_range_eq_some.mp hfree
    exact ⟨List.mem_range.mp hmem, Or.inl ⟨by simpa using hzero, fun k hk => by simpa using hbelow k hk⟩⟩
  · obtain ⟨hmem, hfirst⟩ := endedFirst_of_foldl hdone
    obtain ⟨hlt, hstate⟩ := List.mem_filter.mp hmem
    refine ⟨List.mem_range.mp hlt, Or.inr ⟨by simpa using hstate, fun k hk => ⟨?_, fun h3 => ?_⟩⟩⟩
    · simpa using List.find?_eq_none.mp hnone k (List.mem_range.mpr hk)
    · exact hfirst k (List.mem_filter.mpr ⟨List.mem_range.mpr hk, by simpa using h3⟩)

/-! The status words. -/

theorem jobWord_ne_doneBits (w : Nat) {k : Nat} (hk : k < 32) : JOB_DONE_BITS k ≠ JOB_WORD w := by
  unfold JOB_DONE_BITS JOB_WORD
  omega

theorem devstat_ne_jobWord (w : Nat) : DEVSTAT ≠ JOB_WORD w := by
  unfold DEVSTAT JOB_WORD
  omega

theorem devstat_ne_doneBits (k : Nat) : DEVSTAT ≠ JOB_DONE_BITS k := by
  unfold DEVSTAT JOB_DONE_BITS
  omega

theorem jobWord_inj {v w : Nat} : JOB_WORD v = JOB_WORD w ↔ v = w := by
  unfold JOB_WORD
  omega

/-- The four words of a status word written, and every other register kept. -/
theorem rdN_setJobWord (d : Dev) (i ticket st code op progress count w : Nat) :
    (d.setJobWord i ticket st code op progress count).rdN (JOB_WORD w) =
      if 4 * i + 3 = w then (d.rdN (JOB_WORD (4 * i + 3)) + 2) % 2 ^ 32 % 2 ^ 64
      else if 4 * i + 2 = w then count % 2 ^ 32 % 2 ^ 64
      else if 4 * i + 1 = w then (op % 2 ^ 16 + progress * 2 ^ 16) % 2 ^ 64
      else if 4 * i = w then (ticket % 2 ^ 16 + st * 2 ^ 16 + code * 2 ^ 24) % 2 ^ 64
      else d.rdN (JOB_WORD w) := by
  simp only [Dev.setJobWord, rdN_wrN, jobWord_inj]

@[simp] theorem job_setJob (d : Dev) (i k : Nat) (j : Job) : (d.setJob i j).job k = if i = k then j else d.job k := by
  simp only [Dev.setJob, Dev.job, tget_tset]

/-- A bit that is set is cleared by taking its weight away. -/
theorem bit_sub_two_pow {v k : Nat} (h : bit v k = true) : bit (v - 2 ^ k) k = false := by
  have hone : v / 2 ^ k % 2 = 1 := by simpa [bit, Nat.testBit_eq_decide_div_mod_eq] using h
  have hdiv : (v - 2 ^ k) / 2 ^ k = v / 2 ^ k - 1 := by
    have := Nat.sub_mul_div v (2 ^ k) 1
    rwa [Nat.mul_one] at this
  rw [bit, Nat.testBit_eq_decide_div_mod_eq, hdiv]
  exact decide_eq_false (by omega)

/-! The acceptance. -/

/-- The record of a job just accepted. -/
def acceptedJob (d : Dev) (ps : List Nat) (unit i : Nat) (area : Option Nat) (clear force : Bool) : Job :=
  { gen := ((d.job i).gen + 1) % 64, params := ps, area := area, unit := unit, acceptOrder := d.jobSeq, clear := clear, force := force }

/-- The device with that record. -/
def recordedJob (d : Dev) (i : Nat) (j : Job) : Dev := ({ d with jobSeq := d.jobSeq + 1 } : Dev).setJob i j

/-- The device with the status words of that job written too. -/
def acceptedDev (d : Dev) (op i st : Nat) (j : Job) : Dev :=
  (((recordedJob d i j).setJobWord i ((recordedJob d i j).ticket i) st 0x01 op 0xFFFF 0).setDoneBit i false).syncJobs

/-- The state in which a job of a unit starts: QUEUED behind a live one, otherwise RUNNING. -/
def firstState (d : Dev) (unit : Nat) : Nat := if d.jobs.any fun p => d.jobLive p.1 && p.2.unit == unit then 1 else 2

theorem acceptJob_some {d e : Dev} {op unit i : Nat} {ps : List Nat} {area clear force : Bool}
    (h : d.acceptJob op ps unit area clear force = some (i, e)) :
    d.nextIndex = some i ∧ ∃ a, a = (if area then d.freeArea i else none) ∧ (area = true → a.isSome = true) ∧
      e = acceptedDev d op i (firstState d unit) (acceptedJob d ps unit i a clear force) := by
  unfold Dev.acceptJob at h
  cases hi : d.nextIndex with
  | none => simp [hi] at h
  | some k =>
    rw [hi] at h
    dsimp only at h
    generalize ha : (if area = true then d.freeArea k else none) = a at h
    by_cases hnone : (area && a.isNone) = true
    · rw [if_pos hnone] at h
      exact absurd h nofun
    · rw [if_neg hnone] at h
      obtain ⟨rfl, rfl⟩ := Prod.mk.inj (Option.some.inj h)
      refine ⟨rfl, a, ha.symm, fun harea => ?_, rfl⟩
      simpa [harea, Option.isSome_iff_ne_none] using hnone

/-- What the acceptance leaves of the status words. -/
theorem rdN_acceptedDev (d : Dev) (op st : Nat) (j : Job) {i : Nat} (hi : i < 1024) (w : Nat) : (acceptedDev d op i st j).rdN (JOB_WORD w) =
    ((recordedJob d i j).setJobWord i ((recordedJob d i j).ticket i) st 0x01 op 0xFFFF 0).rdN (JOB_WORD w) := by
  have hne := jobWord_ne_doneBits w (k := i / 32) (by omega)
  rw [Dev.rdN, acceptedDev, Dev.syncJobs, rd_setF_ne _ _ _ (devstat_ne_jobWord w), Dev.setDoneBit, Dev.wrN, rd_wr_ne _ _ hne, Dev.rdN]

/-- The JOB_DONE bit of the index is cleared. -/
theorem doneBit_acceptedDev (d : Dev) (op st i : Nat) (j : Job) :
    bit ((acceptedDev d op i st j).rdN (JOB_DONE_BITS (i / 32))) (i % 32) = false := by
  have hread : ∀ e : Dev, (e.syncJobs).rdN (JOB_DONE_BITS (i / 32)) = e.rdN (JOB_DONE_BITS (i / 32)) := fun e =>
    congrArg BitVec.toNat (rd_setF_ne e _ _ (devstat_ne_doneBits _))
  have hlt : ∀ e : Dev, e.rdN (JOB_DONE_BITS (i / 32)) < 2 ^ 64 := fun e => (e.rd _).isLt
  rw [acceptedDev, hread, Dev.setDoneBit, rdN_wrN_self]
  generalize (recordedJob d i j).setJobWord i _ st 0x01 op 0xFFFF 0 = e
  have he := hlt e
  rw [if_neg Bool.false_ne_true]
  split
  · rw [Nat.mod_eq_of_lt (Nat.lt_of_le_of_lt (Nat.sub_le _ _) he)]
    exact bit_sub_two_pow ‹_›
  · rw [Nat.mod_eq_of_lt he]
    simpa using ‹¬bit _ _ = true›

theorem job_acceptedDev (d : Dev) (op st i k : Nat) (j : Job) : (acceptedDev d op i st j).job k = if i = k then j else d.job k := by
  have hjobs : (acceptedDev d op i st j).jobs = (recordedJob d i j).jobs := by
    simp [acceptedDev, Dev.syncJobs, Dev.setDoneBit, Dev.setJobWord]
  rw [Dev.job, hjobs]
  exact job_setJob _ i k j

theorem firstState_lt (d : Dev) (unit : Nat) : firstState d unit < 3 := by
  unfold firstState
  split <;> decide

/-- A free area is none of those that other jobs hold (R371). -/
theorem freeArea_spec {d : Dev} {i n : Nat} (h : d.freeArea i = some n) : n < 16 ∧ ∀ p ∈ d.jobs, p.1 ≠ i → p.2.area ≠ some n := by
  obtain ⟨hfree, hmem, _⟩ := List.find?_range_eq_some.mp h
  refine ⟨List.mem_range.mp hmem, fun p hp hne harea => ?_⟩
  simpa [hne, harea] using List.all_eq_true.mp hfree p hp

/-- Settles O56: the index, the record and the status words that the acceptance writes. -/
theorem jobsAreAccepted : Obligations.JobsAreAccepted := by
  intro d e op unit i ps area clear force h
  obtain ⟨hindex, a, ha, hsome, rfl⟩ := acceptJob_some h
  obtain ⟨hi, hlowest⟩ := nextIndex_some hindex
  have hword := rdN_acceptedDev d op (firstState d unit) (acceptedJob d ps unit i a clear force) hi
  have hjob := fun k => job_acceptedDev d op (firstState d unit) i k (acceptedJob d ps unit i a clear force)
  have hself := (hjob i).trans (if_pos rfl)
  have hst := firstState_lt d unit
  refine ⟨hi, hlowest, ?_, ?_, ?_, ?_, ?_, ?_, doneBit_acceptedDev d op _ i _, fun k w hk hw hne => ⟨?_, ?_⟩, fun harea => ?_,
    fun harea => ?_⟩
  · rw [hself, acceptedJob]
  · rw [Dev.ticket, hself, Nat.mod_eq_of_lt hi]
    change i + ((d.job i).gen + 1) % 64 % 64 * 1024 = i + ((d.job i).gen + 1) % 64 * 1024
    rw [Nat.mod_mod]
  · rw [Dev.jobOp, hword, rdN_setJobWord, if_neg (by omega), if_neg (by omega), if_pos rfl]
    unfold bits
    omega
  · rw [Dev.jobCount, hword, rdN_setJobWord, if_neg (by omega)]
    exact if_pos rfl
  · rw [Dev.jobState, hword, rdN_setJobWord, if_neg (by omega), if_neg (by omega), if_neg (by omega), if_pos rfl]
    change bits _ 23 16 = firstState d unit
    unfold bits
    omega
  · rw [hword, rdN_setJobWord, if_pos rfl]
    exact Nat.mod_eq_of_lt (Nat.lt_trans (Nat.mod_lt _ (by decide)) (by decide))
  · rw [hword, rdN_setJobWord, if_neg (by omega), if_neg (by omega), if_neg (by omega), if_neg (by omega)]
    rfl
  · rw [hjob, if_neg (Ne.symm hne)]
  · rw [hself, acceptedJob, ha, harea]
    rfl
  · obtain ⟨n, hn⟩ := Option.isSome_iff_exists.mp (hsome harea)
    rw [harea, if_pos rfl, hn] at ha
    obtain ⟨hlt, hother⟩ := freeArea_spec ha.symm
    exact ⟨n, hlt, by rw [hself, acceptedJob, hn], hother⟩

end Sys2Proof.Proofs
end

section
/-!
SUPPORT. Resets (R455, R408), the checks of a command (R365), interrupt causes (R359, R376) and the check-value units (R398).
-/
namespace Sys2Proof.Proofs
set_option Elab.async false
open Sys2Proof.Machine Sys2Proof.Laws

/-! Resets. -/

/-- Settles O34: nothing is written at reset, so every table reads its reset value. -/
theorem resetState : Obligations.ResetState :=
  ⟨fun _ => rfl, rfl, rfl, memWf_empty, rfl, rfl, rfl, rfl, rfl, rfl, rfl, rfl⟩

/-- A filter that looks at keys alone leaves nothing of a key that it drops. -/
theorem tget_filter_key_of_dropped {α : Type} (d : Nat → α) {p : Nat → Bool} {k : Nat} (hk : p k = false) (t : Tbl α) :
    tget d (t.filter fun x => p x.1) k = d k := by
  induction t with
  | nil => rfl
  | cons x r ih =>
    obtain ⟨a, v⟩ := x
    cases hp : p a with
    | false => simp [hp, ih]
    | true =>
      have hne : a ≠ k := fun he => by simp [← he, hp] at hk
      simp [tget, hp, hne, ih]

theorem tget_auxRegs (d : Dev) (a : Nat) :
    tget regReset (d.regs.filter fun r => auxReg r.1) a = if auxReg a then d.rd a else regReset a := by
  cases ha : auxReg a with
  | true => exact tget_filter_key regReset ha d.regs
  | false => exact tget_filter_key_of_dropped regReset ha d.regs

/-- What every register reads once a device reset has begun; a latched shutdown shows in DEVSTAT (R408). -/
theorem rd_afterReset (d : Dev) {a : Nat} (h : d.latched = false ∨ a ≠ DEVSTAT) :
    d.afterReset.rd a = if auxReg a then d.rd a else regReset a := by
  unfold Dev.afterReset
  dsimp only
  cases hl : d.latched with
  | false => exact tget_auxRegs d a
  | true =>
    have ha : DEVSTAT ≠ a := fun he => by simp [hl, he] at h
    rw [if_pos rfl, rd_setF_ne _ _ _ ha, rd_setF_ne _ _ _ ha]
    exact tget_auxRegs d a

theorem fwState_afterReset_of_latched {d : Dev} (h : d.latched = true) : d.afterReset.fwState = FW_SHUTDOWN := by
  unfold Dev.afterReset
  dsimp only
  rw [if_pos h, Dev.fwState, f_setF_ne _ _ _ _ ⟨by decide, by decide⟩ (by decide), f_setF _ _ _ ⟨by decide, by decide⟩]
  rfl

theorem latched_afterReset (d : Dev) : d.afterReset.latched = d.latched := by
  have hkept : d.afterReset.rd TH_LATCH = d.rd TH_LATCH := rd_afterReset_of_aux d (by decide) (by decide)
  simp only [Dev.latched, Dev.on, Dev.f, hkept]

theorem jobs_host_afterReset (d : Dev) : d.afterReset.jobs = [] ∧ d.afterReset.host.fwq = [] := by
  unfold Dev.afterReset
  dsimp only
  split <;> exact ⟨rfl, rfl⟩

/-- A reset that the pin begins, with VDD_AUX on. -/
theorem beginReset_of_aux (cause : Nat) {s : State} (h : s.dev.pwr.auxOn = true) :
    beginReset cause s = { s with
      mem := { host := s.mem.host },
      dev := { s.dev.afterReset with
        pwr := { s.dev.afterReset.pwr with
          inReset := true, causes := (if s.dev.pwr.inReset then s.dev.pwr.causes else 0) ||| 2 ^ cause } } } := by
  unfold beginReset
  dsimp only
  rw [if_neg (by simp [h])]

/-- Settles O57: the pin begins a reset after 10 µs, and a reset leaves what `rd_afterReset` says. -/
theorem resetPin : Obligations.ResetPin := by
  intro n s
  refine ⟨fun hn => congrArg Host.Outcome.next (if_pos hn), fun hn haux => ?_⟩
  have hexec : exec (.resetN n) s = .next (beginReset CAUSE_PIN s) := congrArg Host.Outcome.next (if_neg (Nat.not_lt.mpr hn))
  obtain ⟨hjobs, hfwq⟩ := jobs_host_afterReset s.dev
  refine ⟨_, hexec, ?_⟩
  rw [beginReset_of_aux _ haux]
  have hdoorbell : s.dev.afterReset.rdN DOORBELL = 0 := by
    rw [Dev.rdN, rd_afterReset s.dev (Or.inr (by decide)), if_neg (by decide)]
    decide
  refine ⟨rfl, rfl, rfl, rfl, ?_, hfwq, hdoorbell, hjobs, fun hl a => rd_afterReset s.dev (Or.inl hl), fun hl => ⟨?_, ?_, fun a ha => ?_⟩⟩
  · exact (Nat.testBit_or _ _ _).trans (Bool.or_eq_true_iff.mpr (Or.inr rfl))
  · exact fwState_afterReset_of_latched hl
  · exact (latched_afterReset s.dev).trans hl
  · exact rd_afterReset s.dev (Or.inr ha)

/-! The checks of a command. -/

/-- Settles O53: `carryOut` is the checks of R365 in their order. -/
theorem checksInOrder : Obligations.ChecksInOrder := by
  intro df c s slot s0 s1 port native compat word
  have hcarry : carryOut df c s = if port then noR .badOpcode s else if native then noR .nativeOnly s else if compat then noR .compatOnly s
      else if word then noR .badParam s else if served s.dev.fwState df.op != some true then noR .badState s else df.run c s := rfl
  rw [hcarry]
  refine ⟨fun hp => ?_, fun hp hn => ?_, fun hp hc => ?_, fun hp hn hc hw => ?_, fun hp hn hc hw hs => ?_, fun hp hn hc hw hs => ?_,
    fun hm => ?_⟩
  · rw [hp]
    rfl
  · rw [hp, hn]
    rfl
  · have hn : native = false := by
      simp only [compat, Bool.and_eq_true, Bool.not_eq_true'] at hc
      simp [native, hc]
    rw [hp, hn, hc]
    rfl
  · rw [hp, hn, hc, hw]
    rfl
  · have hserved : (served s.dev.fwState df.op != some true) = true := by simpa using hs
    rw [hp, hn, hc, hw, hserved]
    rfl
  · have hserved : (served s.dev.fwState df.op != some true) = false := by simpa using hs
    rw [hp, hn, hc, hw, hserved]
    rfl
  · unfold serve
    simp [hm]

/-! Interrupt causes. -/

/-- Settles O52: the conditions of R359 and R376 in their order. -/
theorem interruptCauses : Obligations.InterruptCauses := by
  intro d v h wait
  have hcause : d.cause v = if !bit (d.rdN INT_EN) v || !h.msixEn then d
      else if wait then { d with host := { h with waiting := h.waiting ||| 2 ^ v } }
      else if bit h.msixMask v then { d with host := { h with msixPend := h.msixPend ||| 2 ^ v } }
      else if d.f INT_MOD INT_MOD_MOD_US = 0 then d.emit .msix v []
      else { d.emit .msix v [] with host := { h with spacing := h.spacing ||| 2 ^ v } } := rfl
  rw [hcause]
  refine ⟨fun hoff => if_pos ?_, fun hen hx => ?_⟩
  · rcases hoff with hen | hx
    · rw [hen]
      rfl
    · rw [hx, Bool.not_false, Bool.or_true]
  · rw [hen, hx]
    refine ⟨fun hw => ?_, fun hw hm => ?_, fun hw hm => ?_⟩
    · rw [hw]
      rfl
    · rw [hw, hm]
      rfl
    · rw [hw, hm]
      by_cases hmod : d.f INT_MOD INT_MOD_MOD_US = 0
      · rw [if_pos hmod, if_pos hmod]
        exact ⟨rfl, rfl, rfl⟩
      · rw [if_neg hmod, if_neg hmod]
        exact ⟨rfl, rfl, rfl⟩

/-! Check-value units. -/

/-- A unit is set as the manual's example has it (R398). -/
structure CrcUnit (d : Dev) (u : Nat) : Prop where
  width : d.f (CV_CFG u) CV_CFG_WIDTH = 32
  refin : d.on (CV_CFG u) CV_CFG_REFIN = true
  refout : d.on (CV_CFG u) CV_CFG_REFOUT = true
  poly : d.rdN (CV_POLY u) = 0x1EDC6F41
  init : d.rdN (CV_INIT u) = 0xFFFFFFFF
  xorout : d.rdN (CV_XOROUT u) = 0xFFFFFFFF

/-- The register of such a unit after some feeds. -/
def crcFed (reg : Nat) (qs : List Feed) : Nat :=
  qs.foldl (fun r q => q.bytes.foldl (crcByte 32 (0x1EDC6F41 % 2 ^ 32) true) (r % 2 ^ 32)) reg

@[simp] theorem cv_setCv (d : Dev) (u : Nat) (x : Cvu) : (d.setCv u x).cv u = x := by
  simp only [Dev.setCv, Dev.cv, cvu_setF, tget_tset_self]

theorem cvCfg_ne (u : Nat) : CV_CFG u ≠ CV_POLY u ∧ CV_CFG u ≠ CV_INIT u ∧ CV_CFG u ≠ CV_XOROUT u := by
  unfold CV_CFG CV_POLY CV_INIT CV_XOROUT
  omega

/-- BUSY is the one field that a unit's own work writes. -/
theorem CrcUnit.setCv {d : Dev} {u : Nat} (h : CrcUnit d u) (x : Cvu) : CrcUnit (d.setCv u x) u := by
  obtain ⟨hpoly, hinit, hxor⟩ := cvCfg_ne u
  have hfld : ∀ g : Fld, g.hi < CV_CFG_BUSY.lo ∨ CV_CFG_BUSY.hi < g.lo → (d.setCv u x).f (CV_CFG u) g = d.f (CV_CFG u) g :=
    fun g hg => f_setF_ne _ _ _ _ ⟨by decide, by decide⟩ hg _
  have hreg : ∀ a, CV_CFG u ≠ a → (d.setCv u x).rdN a = d.rdN a := fun a ha => congrArg BitVec.toNat (rd_setF_ne _ _ _ ha)
  refine ⟨(hfld _ (by decide)).trans h.width, ?_, ?_, (hreg _ hpoly).trans h.poly, (hreg _ hinit).trans h.init, (hreg _ hxor).trans h.xorout⟩
  · exact (congrArg (· == 1) (hfld _ (by decide))).trans h.refin
  · exact (congrArg (· == 1) (hfld _ (by decide))).trans h.refout

theorem CrcUnit.cvWidth {d : Dev} {u : Nat} (h : CrcUnit d u) : d.cvWidth u = 32 := by
  simp [Dev.cvWidth, h.width]

/-- One feed absorbed. -/
theorem cvAbsorb_cons {d : Dev} {u : Nat} (h : CrcUnit d u) {q : Feed} {rest : List Feed} (hq : (d.cv u).queue = q :: rest) :
    d.cvAbsorb u = d.setCv u { d.cv u with reg := crcFed (d.cv u).reg [q], queue := rest } := by
  unfold Dev.cvAbsorb
  dsimp only
  rw [hq]
  simp only [h.cvWidth, h.poly, h.refin]
  rfl

/-- All feeds absorbed, in their order. -/
theorem cv_foldl_absorb {u : Nat} (qs : List Feed) {d : Dev} (h : CrcUnit d u) (hq : (d.cv u).queue = qs) :
    CrcUnit (qs.foldl (fun (e : Dev) _ => e.cvAbsorb u) d) u ∧
      ((qs.foldl (fun (e : Dev) _ => e.cvAbsorb u) d).cv u).reg = crcFed (d.cv u).reg qs ∧
      ((qs.foldl (fun (e : Dev) _ => e.cvAbsorb u) d).cv u).queue = [] := by
  induction qs generalizing d with
  | nil => exact ⟨h, rfl, hq⟩
  | cons q qs ih =>
    rw [List.foldl_cons, cvAbsorb_cons h hq]
    obtain ⟨hunit, hreg, hqueue⟩ := ih (h.setCv { d.cv u with reg := crcFed (d.cv u).reg [q], queue := qs }) (by rw [cv_setCv])
    rw [cv_setCv] at hreg
    exact ⟨hunit, hreg, hqueue⟩

theorem cvDrain_spec {d : Dev} {u : Nat} (h : CrcUnit d u) : CrcUnit (d.cvDrain u) u ∧
    ((d.cvDrain u).cv u).reg = crcFed (d.cv u).reg (d.cv u).queue ∧ ((d.cvDrain u).cv u).queue = [] :=
  cv_foldl_absorb _ h rfl

/-- START loads INIT behind the feeds queued before it. -/
theorem cvStart_spec {d : Dev} {u : Nat} (h : CrcUnit d u) :
    CrcUnit (d.cvStart u) u ∧ ((d.cvStart u).cv u).reg = 0xFFFFFFFF ∧ ((d.cvStart u).cv u).queue = [] := by
  obtain ⟨hunit, _, hqueue⟩ := cvDrain_spec h
  refine ⟨hunit.setCv _, ?_, ?_⟩
  · rw [Dev.cvStart, cv_setCv, h.init, h.cvWidth] <;> rfl
  · rw [Dev.cvStart, cv_setCv, hqueue]

/-- A feed of a queue that is not full joins it. -/
theorem cvFeed_spec {d : Dev} {u : Nat} (f : Feed) (h : CrcUnit d u) (hlen : (d.cv u).queue.length < 16) :
    CrcUnit (d.cvFeed u f) u ∧ ((d.cvFeed u f).cv u).reg = (d.cv u).reg ∧ ((d.cvFeed u f).cv u).queue = (d.cv u).queue ++ [f] := by
  have hfeed : d.cvFeed u f = d.setCv u { d.cv u with queue := (d.cv u).queue ++ [f] } := by
    unfold Dev.cvFeed
    rw [if_neg (Nat.not_le.mpr hlen)]
  rw [hfeed, cv_setCv]
  exact ⟨h.setCv _, rfl, rfl⟩

theorem cvResult_spec {d : Dev} {u : Nat} (h : CrcUnit d u) :
    d.cvResult u = (reflectN 32 (crcFed (d.cv u).reg (d.cv u).queue % 2 ^ 32) ^^^ 0xFFFFFFFF) % 2 ^ 32 := by
  obtain ⟨_, hreg, _⟩ := cvDrain_spec h
  simp only [Dev.cvResult, hreg, h.cvWidth, h.refout, h.xorout, if_true]

/-- The three writes of the example (R398). -/
def exampleFeeds : List Feed := [.w (0x34333231 % 2 ^ 32), .w (0x38373635 % 2 ^ 32), .b (0x39 % 2 ^ 8)]

theorem crcFed_nil (r : Nat) : crcFed r [] = r := rfl

theorem crcFed_exampleFeeds :
    (reflectN 32 (crcFed 0xFFFFFFFF exampleFeeds % 2 ^ 32) ^^^ 0xFFFFFFFF) % 2 ^ 32 = 0xE3069283 := by
  decide +kernel

theorem leNat_leBytes (n x : Nat) : leNat (leBytes n x) = x % 256 ^ n := by
  induction n generalizing x with
  | zero => simp [leBytes, leNat, Nat.mod_one]
  | succ n ih => rw [leBytes, leNat, ih, Nat.mod_mod, Nat.pow_succ', Nat.mod_mul]

/-- Firmware writes any unit. -/
theorem cvWrite_firmware (d : Dev) {u : Nat} (a : Nat) (f : Dev → Dev) (hu : u < 8) : d.cvWrite u 0 a f = f d := by
  unfold Dev.cvWrite
  rw [if_neg (Nat.not_le.mpr hu)]
  rfl

/-- Settles O58: START empties the queue, the three feeds join it, and the read drains it. -/
theorem checkValueExample : Obligations.CheckValueExample := by
  intro s u hu hwidth hrefin hrefout hpoly hinit hxorout
  have h0 : CrcUnit s.dev u := ⟨hwidth, hrefin, hrefout, hpoly, hinit, hxorout⟩
  obtain ⟨h1, hreg1, hq1⟩ := cvStart_spec h0
  obtain ⟨h2, hreg2, hq2⟩ := cvFeed_spec (.w (0x34333231 % 2 ^ 32)) h1 (by rw [hq1]; decide)
  rw [hreg1] at hreg2
  rw [hq1] at hq2
  obtain ⟨h3, hreg3, hq3⟩ := cvFeed_spec (.w (0x38373635 % 2 ^ 32)) h2 (by rw [hq2]; exact Nat.lt_of_sub_eq_succ rfl)
  rw [hreg2] at hreg3
  rw [hq2] at hq3
  obtain ⟨h4, hreg4, hq4⟩ := cvFeed_spec (.b (0x39 % 2 ^ 8)) h3 (by rw [hq3]; exact Nat.lt_of_sub_eq_succ rfl)
  rw [hreg3] at hreg4
  rw [hq3] at hq4
  change _ = exampleFeeds at hq4
  have hnext : ∀ (t : State) (a : Nat) (f : Dev → Dev), nextDev t (t.dev.cvWrite u 0 a f) = .next { t with dev := f t.dev } :=
    fun t a f => by rw [cvWrite_firmware t.dev a f hu]; rfl
  refine ⟨_, _, _, _, _, hnext s _ _, hnext _ _ _, hnext _ _ _, hnext _ _ _, rfl, rfl, ?_⟩
  obtain ⟨h5, hreg5, hq5⟩ := cvDrain_spec h4
  rw [hreg4, hq4] at hreg5
  have hresult := cvResult_spec h5
  rw [hreg5, hq5] at hresult
  rw [leNat_leBytes, hresult, crcFed_nil, crcFed_exampleFeeds, Nat.mod_eq_of_lt (by decide)]

end Sys2Proof.Proofs
end

section
/-!
SUPPORT. The commands of the mailbox: each is answered with what its definition gives once the checks of the command itself are passed.
-/
namespace Sys2Proof.Proofs
set_option Elab.async false
open Sys2Proof.Machine Sys2Proof.Laws

/-- A command that changes the device alone is answered with what it gives. -/
theorem answer_dev {df : CmdDef} {slot s0 s1 : Nat} {s : State} (h : ready df slot s0 s1 s = true) {f : Cmd → State → Reply × Dev}
    (hrun : df.run = onDev f) {r : Reply × Dev} (hr : f (s.dev.readCmd slot s0 s1) s = r) :
    (.next (serve df slot s0 s1 s) : Host.Outcome State Fault Refusal) = .next (answered (s.dev.readCmd slot s0 s1) r s) :=
  congrArg Host.Outcome.next (serve_dev h hrun hr)

/-- The branch of a Boolean test that is false. -/
theorem ite_of_false {α : Sort _} {b : Bool} (h : b = false) (x y : α) : (if b = true then x else y) = y :=
  if_neg (Bool.eq_false_iff.mp h)

@[simp] theorem checks_nil {α : Type} (x : α) (go : Reply × α) : checks [] x go = go := rfl

theorem checks_cons_true {α : Type} (k : Code) (cs : List (Bool × Code)) (x : α) (go : Reply × α) :
    checks ((true, k) :: cs) x go = noR k x := rfl

@[simp] theorem checks_cons_false {α : Type} (k : Code) (cs : List (Bool × Code)) (x : α) (go : Reply × α) :
    checks ((false, k) :: cs) x go = checks cs x go := rfl

/-! The system commands. -/

theorem jobCancel_of_queued {d : Dev} {i : Nat} (h : d.jobState i = 1) : d.jobCancel i = okR [] (d.endJob i .partialDone 0) := by
  unfold Dev.jobCancel
  rw [h]
  rfl

theorem jobCancel_of_running {d : Dev} {i : Nat} (h : d.jobState i = 2) (hop : d.jobOp i ∉ noCancel) : d.jobCancel i =
    okR [] (d.setJobWord i (d.ticket i) 4 0x01 (d.jobOp i) 0xFFFF (d.jobCount i)).syncJobs := by
  unfold Dev.jobCancel
  rw [h]
  exact if_neg (by simpa using hop)

/-- A job that is cancelled already or DONE stays as it is. -/
theorem jobCancel_of_ended {d : Dev} {i : Nat} (h : 3 ≤ d.jobState i) : d.jobCancel i = okR [] d := by
  unfold Dev.jobCancel
  split
  · omega
  · omega
  · omega
  · rfl

theorem jobRelease_of_done {d : Dev} {i : Nat} (h : d.jobState i = 3) :
    let e := d.setJobWord i (d.ticket i) 0 (bits (d.rdN (JOB_WORD (4 * i))) 31 24) (d.jobOp i) 1000 (d.jobCount i)
    d.jobRelease i = okR [] (e.setJob i { e.job i with area := none }) :=
  if_neg fun hne => hne h

theorem commitNow_of_passes {d : Dev} (why : CommitWhy) {s0 s1 : Nat} (h : (d.huCheck s0 s1).1 = true) :
    d.commitNow why s0 s1 = (.ok, (d.huCheck s0 s1).2.wantCommit why none true) :=
  if_pos h

theorem op_of_ready {df : CmdDef} {n s0 s1 : Nat} {s : State} (h : ready df n s0 s1 s = true) : (s.dev.readCmd n s0 s1).op = df.op := by
  unfold ready at h
  simp only [Bool.and_eq_true, beq_iff_eq] at h
  obtain ⟨⟨⟨⟨⟨⟨⟨_, hop⟩, _⟩, _⟩, _⟩, _⟩, _⟩, _⟩ := h
  exact hop

/-- The completion of SYS_RESET notes the device reset that follows (R380). -/
theorem sysReset_finish {c : Cmd} {r : Reply} (hop : c.op = 0x010B) (hcode : r.code = .ok) (s : State) :
    (finish c r s).dev.host.sysReset = true := by
  simp [finish, hop, hcode]

/-- Settles O1: each row is its definition's effect, on the branch that the clause's hypotheses select. -/
theorem systemCommandsAnswer : Obligations.SystemCommandsAnswer := by
  intro n s0 s1 s c k d
  refine ⟨fun h => answer_dev h rfl rfl, fun h => answer_dev h rfl rfl, fun h k harea => answer_dev h rfl ?_,
    fun h harea => answer_dev h rfl ?_, fun h hst => answer_dev h rfl (jobCancel_of_queued hst),
    fun h hst hop => answer_dev h rfl (jobCancel_of_running hst hop), fun h hst => answer_dev h rfl (jobCancel_of_ended hst),
    fun h hst => answer_dev h rfl (jobRelease_of_done hst), fun h => answer_dev h rfl rfl,
    fun h i e hjob => answer_dev h rfl (asJob_some hjob _), fun h hbatch => answer_dev h rfl (if_neg (Bool.eq_false_iff.mp hbatch)),
    fun h hhu => answer_dev h rfl ?_, fun h => answer_dev h rfl rfl,
    fun h => ⟨answer_dev h rfl rfl, sysReset_finish (op_of_ready h) rfl _⟩⟩
  · simp only [okR, d, c, harea, Option.isSome_some, if_true]
  · have hzero : lohi 0 = [0, 0] := rfl
    simp only [okR, d, c, harea, List.append_assoc, Option.isSome_none, Bool.false_eq_true, if_false, hzero]
    rfl
  · exact congrArg (fun r : Code × Dev => (({ code := r.1 } : Reply), r.2)) (commitNow_of_passes .mode hhu)

/-! The commands of the timing core. -/

/-- Settles O2: each row is its definition's effect, on the branch that the clause's hypotheses select. -/
theorem timingCommandsAnswer : Obligations.TimingCommandsAnswer := by
  intro n s c d
  have hqual {r : Nat} (h : r = 15 ∨ d.qualified r = true) : ¬ (r ≠ 15 ∧ (!d.qualified r) = true) := by
    rintro ⟨hne, hnot⟩
    simp [h.resolve_left hne] at hnot
  have hquiet (h : bit (c.p 1) 0 = true ∨ (d.run.active = false ∧ d.front.running = false ∧ d.capBusy = false)) :
      (!bit (c.p 1) 0 && (d.run.active || d.front.running || d.capBusy)) = false := by
    rcases h with hforced | ⟨hrun, hfront, hcap⟩
    · simp [hforced]
    · simp [hrun, hfront, hcap]
  refine ⟨fun h => answer_dev h rfl rfl, fun h hzero => answer_dev h rfl (congrArg (okR []) (if_pos hzero)),
    fun h hne => answer_dev h rfl (congrArg (okR []) (if_neg hne)),
    fun h hq hst => answer_dev h rfl ((if_neg (hqual hq)).trans (if_neg hst)),
    fun h hq hst => answer_dev h rfl ((if_neg (hqual hq)).trans (if_pos hst)), fun h hq hrate => answer_dev h rfl ?_,
    fun h hq hrate => answer_dev h rfl ?_, ?_,
    fun h hbusy => answer_dev h rfl (ite_of_false hbusy _ _), fun h => answer_dev h rfl rfl,
    fun h i e hjob => answer_dev h rfl (asJob_some hjob _), fun h => answer_dev h rfl rfl, ?_,
    fun h hrun => answer_dev h rfl (ite_of_false hrun _ _)⟩
  · exact (ite_of_false (hquiet hq) _ _).trans (congrArg (fun e : Dev => okR [] (e.phaseStep _)) (ite_of_false hrate _ _))
  · exact (ite_of_false (hquiet hq) _ _).trans (congrArg (fun e : Dev => okR [] (e.phaseStep _)) (if_pos hrate))
  · intro h p hout hlref
    exact answer_dev h rfl (ite_of_false (Bool.or_eq_false_iff.mpr ⟨hout, hlref⟩) _ _)
  · intro h ns hpast
    exact answer_dev h rfl (ite_of_false hpast _ _)

/-! The lane commands. -/

/-- Settles O3: each row is its definition's effect, on the branch that the clause's hypotheses select. -/
theorem laneCommandsAnswer : Obligations.LaneCommandsAnswer := by
  intro n s c d
  refine ⟨?_, fun h => answer_dev h rfl rfl, fun h hlow => answer_dev h rfl (if_pos hlow),
    fun h hlow i e hjob => answer_dev h rfl ((ite_of_false hlow _ _).trans (asJob_some hjob _)),
    fun h i e hjob => answer_dev h rfl (asJob_some hjob _), ?_,
    fun h hfree hform => answer_dev h rfl ((ite_of_false hfree _ _).trans (if_pos hform)),
    fun h hfree hform => answer_dev h rfl ((ite_of_false hfree _ _).trans (if_neg hform)),
    ?_, fun h hform => answer_dev h rfl ?_, fun h hdelete => answer_dev h rfl (if_pos hdelete),
    fun h hdelete => answer_dev h rfl (ite_of_false hdelete _ _), fun h j i e hlink hjob => answer_dev h rfl ?_⟩
  · intro h ns x hused hclaimed bs hplan
    refine answer_dev h rfl ((ite_of_false hused _ _).trans ((ite_of_false hclaimed _ _).trans ?_))
    split
    · next hnone => exact absurd (hplan.symm.trans hnone) (Option.some_ne_none bs)
    · next bs' hsome =>
      obtain rfl := Option.some.inj (hplan.symm.trans hsome)
      rfl
  · intro h m hfree
    exact answer_dev h rfl (ite_of_false hfree _ _)
  · intro h id tx ns rest mark old d1
    refine ⟨fun hform => answer_dev h rfl ?_, fun hform => answer_dev h rfl ?_⟩
    · simp +zetaDelta only [hform]
      rfl
    · simp +zetaDelta only [hform]
      rfl
  · simp +zetaDelta only [hform]
    rfl
  · refine Eq.trans ?_ (asJob_some hjob fun i e => e.setJlink (c.b 0 7 0) (some { j with
        cont := bit (c.p 0) 8, armed := some e.now, armJob := some i, aligned := false, misalign := false, fault := false }))
    simp +zetaDelta only [hlink]

end Sys2Proof.Proofs
end

section
/-!
SUPPORT. The commands of the mailbox from the front to the personalities, each answered with what its definition gives.
-/
namespace Sys2Proof.Proofs
set_option Elab.async false
open Sys2Proof.Machine Sys2Proof.Laws

/-- The branch of a negated Boolean test whose operand is true. -/
theorem ite_not_of_true {α : Sort _} {b : Bool} (h : b = true) (x y : α) : (if (!b) = true then x else y) = y :=
  if_neg (by simp [h])

/-! The commands of the front. -/

/-- Settles O4: each row is its definition's effect, on the branch that the clause's hypotheses select. -/
theorem frontCommandsAnswer : Obligations.FrontCommandsAnswer := by
  intro n s c d
  have hwaits (hconf : d.front.conf = true) (hstop : d.front.running = false) (hnow : earlier (c.q 1) d.outNow 64 = false) :
      ¬ ((!d.front.conf) = true ∨ d.front.running = true ∨ earlier (c.q 1) d.outNow 64 = true) := by
    simp [hconf, hstop, hnow]
  refine ⟨?_, ?_, fun h hconf i e hjob => answer_dev h rfl ((ite_not_of_true hconf _ _).trans (asJob_some hjob _)),
    fun h hstop i e hjob => answer_dev h rfl ((ite_of_false hstop _ _).trans (asJob_some hjob _)),
    fun h hconf i e hjob => answer_dev h rfl ((ite_not_of_true hconf _ _).trans (asJob_some hjob _)), fun h => answer_dev h rfl rfl,
    fun h hconf i e hjob => answer_dev h rfl ((ite_not_of_true hconf _ _).trans (asJob_some hjob _)), ?_,
    fun h hconf hstop hnow hstart => answer_dev h rfl ((if_neg (hwaits hconf hstop hnow)).trans (ite_of_false hstart _ _)),
    fun h hconf hstop hnow hend => answer_dev h rfl ((if_neg (hwaits hconf hstop hnow)).trans (if_pos hend)),
    fun h => answer_dev h rfl rfl⟩
  · intro h k hshape hstop bs hread es xs mode cplx sk width p hop w chans regs traffic hbad g hlog hfit
    have hrole : ¬ ((d.role ≠ 1 ∧ d.role ≠ 3) ∨ d.front.running = true) := by
      simp only [hstop, Bool.false_eq_true, or_false]
      omega
    have hcount : ¬ ((d.role = 1 ∧ (k < 256 ∨ k > 2048)) ∨ (d.role = 3 ∧ (k < 2 ∨ k > 256))) := by omega
    refine answer_dev h rfl ((if_neg hrole).trans ((if_neg hcount).trans ?_))
    split
    · next hfail => exact absurd (hread.symm.trans hfail) (by simp)
    · next bs' hok =>
      obtain rfl := Except.ok.inj (hread.symm.trans hok)
      refine (ite_of_false hbad _ _).trans ?_
      split
      · next hnone => exact absurd (hlog.symm.trans hnone) (by simp)
      · next g' hsome =>
        obtain rfl := Option.some.inj (hlog.symm.trans hsome)
        exact ite_of_false hfit _ _
  · intro h hconf gs hloads r
    have hdry : ((gs.map fun g => (d.loadSeg g).2).any (· == 2)) = false := by simpa using hloads
    exact answer_dev h rfl ((ite_not_of_true hconf _ _).trans (ite_of_false hdry _ _))
  · intro h hrole hstop hconf bs hread w es rs near hbad hfit
    have hstate : ¬ ((d.role ≠ 1 ∧ d.role ≠ 3) ∨ d.front.running = true ∨ (!d.front.conf) = true) := by
      simp only [hstop, hconf]
      simp
      omega
    refine answer_dev h rfl ((if_neg hstate).trans ?_)
    split
    · next hfail => exact absurd (hread.symm.trans hfail) (by simp)
    · next bs' hok =>
      obtain rfl := Except.ok.inj (hread.symm.trans hok)
      exact (ite_of_false hbad _ _).trans (ite_not_of_true hfit _ _)

/-! The commands of the correlator and its integration. -/

/-- A check that fails nothing is passed over. -/
theorem checks_of_false {α : Type} {b : Bool} (h : b = false) (k : Code) (cs : List (Bool × Code)) (x : α) (go : Reply × α) :
    checks ((b, k) :: cs) x go = checks cs x go := by
  subst h
  rfl

/-- The device after a barrier is accepted as job `i` of `e` (R158, R171). -/
def barrierSet (stop : Bool) (b i : Nat) (e : Dev) : Dev :=
  let r := e.run.cutInteg b
  let e1 : Dev := { e with run := { r with barriers := r.barriers ++ [{ stop := stop, batch := b, job := i }],
                                           stopAt := if stop then some b else r.stopAt } }
  (if stop then e1.missBeyond b else e1).syncPend

theorem barrierCmd_accepted {stop : Bool} {c : Cmd} {d : Dev} (hrun : d.run.active = true)
    (hspn : bit (c.p 0) 0 = true ∨ (d.run.par.s0 ≤ barrierSpn d c ∧ (barrierSpn d c - d.run.par.s0) % d.run.par.t = 0))
    (hfirst : d.run.firstBarrier ≤ (barrierSpn d c - d.run.par.s0) / d.run.par.t)
    (hbefore : (d.run.stopAt.any fun x => decide ((barrierSpn d c - d.run.par.s0) / d.run.par.t > x)) = false)
    (hfree : (stop && d.run.barriers.any (·.stop)) = false) {i : Nat} {e : Dev}
    (hjob : c.job d (0x0508 + 0x10000 * c.seq + 0x1000000 * d.jobSeq) true = some (i, e)) :
    barrierCmd stop c d = ({ code := .accepted, ticket := e.ticket i, res := lohi (barrierSpn d c) },
      barrierSet stop ((barrierSpn d c - d.run.par.s0) / d.run.par.t) i e) := by
  have hrange : (!bit (c.p 0) 0 && (decide (barrierSpn d c < d.run.par.s0) ||
      (barrierSpn d c - d.run.par.s0) % d.run.par.t != 0)) = false := by
    rcases hspn with hearliest | ⟨hle, hmod⟩
    · simp [hearliest]
    · simp [Nat.not_lt.mpr hle, hmod]
  refine (ite_not_of_true hrun _ _).trans ((ite_of_false hrange _ _).trans ?_)
  rw [checks_of_false (decide_eq_false (Nat.not_lt.mpr hfirst)), checks_of_false hbefore, checks_of_false hfree, checks_nil,
    asJob_some hjob]
  rfl

/-- Settles O5: each row is its definition's effect, on the branch that the clause's hypotheses select. -/
theorem runCommandsAnswer : Obligations.RunCommandsAnswer := by
  intro n s c d mhz
  refine ⟨?_, fun h i e hjob => answer_dev h rfl (asJob_some hjob _),
    fun h hn i e hjob => answer_dev h rfl ((if_neg hn).trans (asJob_some hjob _)), fun h e htuck => answer_dev h rfl ?_,
    fun h => answer_dev h rfl rfl, fun h => answer_dev h rfl rfl, ?_,
    ?_, ?_, ?_, ?_, ?_, fun h => answer_dev h rfl rfl⟩
  · intro h f lanes avail pl hk
    exact answer_dev h rfl (congrArg (fun k : Code => (({ code := k, res := pl.words } : Reply), d)) (if_neg hk))
  · split
    · next d' hsome =>
      obtain rfl := Option.some.inj (htuck.symm.trans hsome)
      rfl
    · next hnone => exact absurd (htuck.symm.trans hnone) (Option.some_ne_none e)
  · intro h p0 avail pl p beams bc mib dem w06 res hrole hidle htime hclock hcover hbeams hk hneed hbc hmib hdem s1 s2
    have hstate : ((d.role != 2 && d.role != 3) || d.run.active || !d.on TSU_CTRL TSU_CTRL_VALID ||
        d.f TIM_STAT TIM_STAT_STATE == 0x0F || !d.dumpCover p ||
        (beams && (d.beam.n != p.n || d.beam.t != p.t || d.beam.nch != p.nch || !d.beamCover d.beam.route))) = false := by
      have hrole' : (d.role != 2 && d.role != 3) = false := by
        rcases hrole with hr | hr <;> simp [hr]
      have hclock' : (d.f TIM_STAT TIM_STAT_STATE == 0x0F) = false := beq_false_of_ne hclock
      rw [hrole', hidle, htime, hclock', hcover, hbeams]
      rfl
    have hfits : ¬ ((decide (pl.need > avail) || (beams && decide (bc.1 > bc.2)) ||
        decide (mib + regionMib (d.heldRegions.map (·.2)) > d.hbmMib) || !d.demandOk dem) = true) := by
      have hbc' : (beams && decide (bc.1 > bc.2)) = false := by
        rw [Bool.and_eq_false_iff, decide_eq_false_iff_not, ← Bool.not_eq_true]
        exact Classical.or_iff_not_imp_left.mpr fun hb => Nat.not_lt.mpr (hbc (Classical.not_not.mp hb))
      rw [decide_eq_false (Nat.not_lt.mpr hneed), hbc', decide_eq_false (Nat.not_lt.mpr hmib), hdem]
      decide
    refine congrArg Host.Outcome.next ((serve_ready h).trans ?_)
    have hrun : runStartDef.run c s = (({ code := .ok, res := res } : Reply), { s2 with dev := s2.dev.runBegin c p pl.depth }) :=
      (ite_of_false hstate _ _).trans ((if_neg hk).trans (if_neg hfits))
    rw [hrun]
    rfl
  · intro h hrun p spn b hspn hfirst hbefore hfree i e hjob
    exact answer_dev h rfl (barrierCmd_accepted hrun hspn hfirst hbefore ((Bool.true_and _).trans hfree) hjob)
  · intro h hrun p spn b hspn hfirst hbefore i e hjob
    exact answer_dev h rfl (barrierCmd_accepted hrun hspn hfirst hbefore (Bool.false_and _) hjob)
  · intro h hrun hfit x
    have hroom : ¬ (ndb (c.p 0) ≠ ndb d.run.nint ∧ regionMib (runRegions d.run.par (c.p 0)) + d.front.hbm / 2 ^ 20 > d.hbmMib) :=
      fun ⟨hne, hgt⟩ => hfit.elim hne (Nat.not_le.mpr hgt)
    exact answer_dev h rfl ((ite_not_of_true hrun _ _).trans (if_neg hroom))
  · intro h bs hread es dfmt log hentries hcover
    refine answer_dev h rfl ?_
    dsimp only
    split
    · next hfail => exact absurd (hread.symm.trans hfail) (by simp)
    · next bs' hok =>
      obtain rfl := Except.ok.inj (hread.symm.trans hok)
      exact ite_of_false (Bool.or_eq_false_iff.mpr ⟨(congrArg not hentries).trans rfl, hcover⟩) _ _
  · intro h hrun r p spn chF k b j hle hmod hchan hbound hbatch hbefore hcount hinner hbytes hdem i e hjob
    have hrange : (decide (spn < p.s0) || (spn - p.s0) % 256 != 0 || decide (chF + k > p.nch)) = false := by
      rw [decide_eq_false (Nat.not_lt.mpr hle), hmod, decide_eq_false (Nat.not_lt.mpr hchan)]
      rfl
    have hbound' : (j == 0 && r.isBoundary b) = false := by
      rw [← Bool.not_eq_true, Bool.and_eq_true, beq_iff_eq]
      exact hbound
    have hfree : (decide (r.peeks.length ≥ 4) || (j != 0 && tget (fun _ => 0) r.inner b != 0 && tget (fun _ => 0) r.inner b != j + 1)) =
        false := by
      rw [decide_eq_false (Nat.not_le.mpr hcount), Bool.false_or, ← Bool.not_eq_true]
      simp only [Bool.and_eq_true, bne_iff_ne]
      exact fun ⟨⟨hj, hnone⟩, hother⟩ => hinner.elim hj (fun h' => h'.elim hnone hother)
    have hroom : (decide (c.q 6 < peekBytes p (c.b 0 2 1) k) || !d.demandOk (d.demand p 2)) = false := by
      rw [decide_eq_false (Nat.not_lt.mpr hbytes), hdem]
      rfl
    refine answer_dev h rfl ((ite_not_of_true hrun _ _).trans ?_)
    refine (checks_of_false hrange _ _ _ _).trans ((checks_of_false hbound' _ _ _ _).trans
      ((checks_of_false (decide_eq_false (Nat.not_lt.mpr hbatch)) _ _ _ _).trans ((checks_of_false hbefore _ _ _ _).trans
        ((checks_of_false hfree _ _ _ _).trans ((checks_of_false hroom _ _ _ _).trans ?_)))))
    rw [checks_nil]
    exact asJob_some hjob fun i e => ({ e with run := { e.run with
      inner := if j = 0 then e.run.inner else tset (fun _ => 0) e.run.inner b (j + 1),
      peeks := e.run.peeks ++ [{ spn := spn, chFirst := chF, chCount := k, dest := c.q 4, dfmt := c.b 0 2 1, job := i }] } } : Dev).syncPend

/-! The commands of the beam engine, the memories and the capture ring. -/

/-- A command that also changes the memories or the flash is answered with what it gives. -/
theorem answer_run {df : CmdDef} {slot s0 s1 : Nat} {s t : State} {r : Reply} (h : ready df slot s0 s1 s = true)
    (hr : df.run (s.dev.readCmd slot s0 s1) s = (r, t)) :
    (.next (serve df slot s0 s1 s) : Host.Outcome State Fault Refusal) = .next (finish (s.dev.readCmd slot s0 s1) r t) := by
  rw [serve_ready h, hr]

theorem capTrigger_run {c : Cmd} {s : State} {e : Dev}
    (he : s.dev.trigger 2 (c.b 0 15 8) (if bit (c.p 0) 0 then s.dev.cap.newest - 1 else c.q 1) 0xFFFFFFFF 0xFFFFFFFF (c.p 3) [] =
      (e, some .accepted)) :
    capTriggerDef.run c s =
      onDev (fun _ _ => okR (lohi (if bit (c.p 0) 0 then s.dev.cap.newest - 1 else c.q 1)) e) c s := by
  simp only [capTriggerDef, onDev, he]

/-- Settles O6: each row is its definition's effect, on the branch that the clause's hypotheses select. -/
theorem storeCommandsAnswer : Obligations.StoreCommandsAnswer := by
  intro n s c d
  have hbeams (hidle : d.run.active = false) (hrole : d.role = 2 ∨ d.role = 3) :
      ¬ (d.run.active = true ∨ (d.role ≠ 2 ∧ d.role ≠ 3)) := by
    simp only [hidle, Bool.false_eq_true, false_or]
    omega
  refine ⟨?_, ?_, ?_, fun h hconf hload i e hjob => answer_dev h rfl ?_, ?_, fun h => answer_dev h rfl rfl, fun h => answer_dev h rfl rfl,
    fun h => answer_dev h rfl rfl, fun h => answer_dev h rfl rfl, ?_, fun h hidle hstream hsel => answer_dev h rfl (if_neg ?_),
    ?_, fun h hfull i e hjob => answer_dev h rfl ((if_neg (not_not_intro hfull)).trans (asJob_some hjob _)), ?_,
    fun h => answer_dev h rfl rfl⟩
  · intro h hidle hrole hoff d1
    exact answer_run h ((if_neg (hbeams hidle hrole)).trans (if_pos (congrArg not hoff)))
  · intro h hidle hrole hon k t nch beams bytes mib vs ring hroom b d1 d2 w
    exact answer_run h ((if_neg (hbeams hidle hrole)).trans ((ite_not_of_true hon _ _).trans (if_neg (Nat.not_lt.mpr hroom))))
  · intro h hidle hconf bs hread xs es hwhole hentries hcover
    have hstate : ¬ (d.run.active = true ∨ (!d.beam.configured) = true) := by simp [hidle, hconf]
    refine answer_dev h rfl ((if_neg hstate).trans ?_)
    split
    · next hfail => exact absurd (hread.symm.trans hfail) (by simp)
    · next bs' hok =>
      obtain rfl := Except.ok.inj (hread.symm.trans hok)
      exact ite_of_false (Bool.or_eq_false_iff.mpr ⟨Bool.or_eq_false_iff.mpr ⟨hwhole, congrArg not hentries⟩, congrArg not hcover⟩) _ _
  · have hfree : ¬ d.beam.load.isSome = true := by simp [hload]
    exact (ite_not_of_true hconf _ _).trans ((if_neg hfree).trans (asJob_some hjob _))
  · intro h hconf e r hlate hbusy
    refine answer_dev h rfl ((ite_not_of_true hconf _ _).trans ?_)
    exact congrArg (fun k : Code => (({ code := k, res := [r] } : Reply), e)) ((if_neg hlate).trans (if_neg hbusy))
  · intro h hidle bs hread sel hsel w k crs g bytes live r per rate mts hrate cap
    refine answer_dev h rfl ((if_neg (not_not_intro hidle)).trans ?_)
    split
    · next hfail => exact absurd (hread.symm.trans hfail) (by simp)
    · next bs' hok =>
      obtain rfl := Except.ok.inj (hread.symm.trans hok)
      exact (ite_of_false hsel _ _).trans (if_neg (Nat.not_lt.mpr hrate))
  · rintro (hstate | hstate | hstate)
    · exact hstate hidle
    · exact absurd hstate (by simp [show s.dev.streaming = true from hstream])
    · exact hsel (List.isEmpty_iff.mp hstate)
  · intro h st e he
    exact answer_run h (capTrigger_run he)
  · intro h hgo d1
    have hstate : (bit (c.p 0) 0 && !d.streaming) = false := by
      rcases hgo with hoff | hstream
      · simp [hoff]
      · simp [hstream]
    exact answer_dev h rfl (ite_of_false hstate _ _)

/-! The commands of the network, the cores and time. -/

/-- TIME_SET is not refused for its step: none is asked for, or nothing runs and capture writes nothing (R263). -/
theorem stepFree {d : Dev} {step : Bool}
    (h : step = false ∨ (d.run.active = false ∧ d.front.running = false ∧ d.f CAP_STAT CAP_STAT_STATE ∉ [1, 2, 3])) :
    (step && (d.run.active || d.front.running ||
      ([2, 3].contains (d.f CAP_STAT CAP_STAT_STATE) || d.f CAP_STAT CAP_STAT_STATE == 1))) = false := by
  rcases h with hnone | ⟨hrun, hfront, hcap⟩
  · simp [hnone]
  · simp only [List.mem_cons, List.not_mem_nil, or_false, not_or] at hcap
    obtain ⟨h1, h2, h3⟩ := hcap
    simp [hrun, hfront, h1, h2, h3]

/-- CORE_STOP of a core that comes to rest before the boundary. -/
theorem coreStop_run_of_rest {c : Cmd} {s : State} (hhalt : bit (c.p 0) 2 = false)
    (hst : (toBoundary (s.dev.physOf c.coreNum) 800000 s).dev.coreState (s.dev.physOf c.coreNum) ≠ CORE_RUN) :
    coreStopDef.run c s = okR [] (toBoundary (s.dev.physOf c.coreNum) 800000 s) :=
  (ite_of_false hhalt _ _).trans (if_pos hst)

/-- CORE_STOP of a core that comes to an instruction boundary (R309). -/
theorem coreStop_run_of_boundary {c : Cmd} {s : State} (hhalt : bit (c.p 0) 2 = false)
    (hst : (toBoundary (s.dev.physOf c.coreNum) 800000 s).dev.coreState (s.dev.physOf c.coreNum) = CORE_RUN)
    (hb : ((toBoundary (s.dev.physOf c.coreNum) 800000 s).core (s.dev.physOf c.coreNum)).ctx.boundary = true) :
    coreStopDef.run c s = okR [] { toBoundary (s.dev.physOf c.coreNum) 800000 s with
      dev := (toBoundary (s.dev.physOf c.coreNum) 800000 s).dev.coreHalt (s.dev.physOf c.coreNum) 5 } :=
  (ite_of_false hhalt _ _).trans ((if_neg (not_not_intro hst)).trans (if_pos hb))

/-- Settles O7: each row is its definition's effect, on the branch that the clause's hypotheses select. -/
theorem networkCommandsAnswer : Obligations.NetworkCommandsAnswer := by
  intro n s c d
  refine ⟨?_, ?_, ?_, fun h => answer_dev h rfl rfl, ?_, fun h => answer_dev h rfl rfl, fun h => ⟨_, answer_dev h rfl rfl, rfl⟩,
    fun h hstep => answer_dev h rfl (ite_of_false (stepFree hstep) _ _), fun h => answer_dev h rfl rfl, ?_,
    fun h => answer_dev h rfl rfl, fun h hst i e hjob => answer_dev h rfl ((if_neg hst).trans (asJob_some hjob _)), ?_,
    fun h hreset => answer_run h (if_pos hreset), ?_, fun h => ⟨_, answer_dev h rfl rfl, rfl⟩,
    fun h hcore hreserve hok i e hjob => answer_dev h rfl ?_⟩
  · intro h m mode pll base hpll hused hlanes hrate d1 ctrl p
    have hroom : (((macLanes m mode).any fun k => (d.compat && k < 68) || (!(macLanes m (d.macMode m)).contains k && d.laneFunc k != 0)) ||
        (mode != 0 && !rateFits (modeMbps mode) (d.portStreams m))) = false := by
      rw [hlanes, Bool.false_or]
      rcases hrate with hoff | hfits
      · simp [hoff]
      · rw [hfits]
        exact Bool.and_false _
    refine answer_dev h rfl ?_
    dsimp only
    split
    · next hnone => exact absurd (hpll.symm.trans hnone) (Option.some_ne_none _)
    · next pll' base' hsome =>
      obtain ⟨rfl, rfl⟩ := Prod.mk.inj (Option.some.inj (hpll.symm.trans hsome))
      refine (checks_of_false hused _ _ _ _).trans ((checks_of_false hroom _ _ _ _).trans ?_)
      rw [checks_nil]
      rfl
  · intro h es d1 hnamed hfast
    refine answer_dev h rfl ((checks_of_false hnamed _ _ _ _).trans ((checks_of_false hfast _ _ _ _).trans ?_))
    rw [checks_nil]
    rfl
  · intro h bs hread es hok hapart d1
    refine answer_dev h rfl ?_
    dsimp only
    split
    · next hfail => exact absurd (hread.symm.trans hfail) (by simp)
    · next bs' hbs =>
      obtain rfl := Except.ok.inj (hread.symm.trans hbs)
      exact ite_of_false (Bool.or_eq_false_iff.mpr ⟨congrArg not hok, hapart⟩) _ _
  · intro h m v6 ip
    refine ⟨fun hread => answer_dev h rfl ?_, fun hset => answer_dev h rfl ?_, fun hdelete => answer_dev h rfl ?_⟩
    · simp +zetaDelta only [hread]
      rfl
    · simp +zetaDelta only [hset]
      rfl
    · simp +zetaDelta only [hdelete]
      rfl
  · intro h hvalid p mode d1 k
    refine ⟨fun hoff => answer_dev h rfl ((ite_not_of_true hvalid _ _).trans (if_pos hoff)), fun hne hne3 hlead => ?_⟩
    have hon : ¬ (mode = 0 ∨ mode = 3) := fun hoff => hoff.elim hne hne3
    exact answer_dev h rfl ((ite_not_of_true hvalid _ _).trans ((if_neg hon).trans (if_neg (Nat.not_lt.mpr hlead))))
  · intro h k hstop hcore hretired d1 d2 d3
    refine answer_dev h rfl ((checks_of_false (beq_false_of_ne hstop) _ _ _ _).trans
      ((checks_of_false (by simpa using hcore) _ _ _ _).trans ((checks_of_false (beq_false_of_ne hretired) _ _ _ _).trans ?_)))
    rw [checks_nil]
    rfl
  · intro h hhalt k s1
    exact ⟨fun hst => answer_run h (coreStop_run_of_rest hhalt hst), fun hst hb => answer_run h (coreStop_run_of_boundary hhalt hst hb)⟩
  · have hbusy : ((d.core (d.physOf c.coreNum)).qhalt != 0 || (d.core (d.physOf 3)).qhalt != 0) = false := by
      simp [hcore, hreserve]
    refine (checks_of_false hbusy _ _ _ _).trans ((checks_of_false (congrArg not hok) _ _ _ _).trans ?_)
    rw [checks_nil]
    exact asJob_some hjob _

/-! The commands of error handling, protection, thermal control and the lease. -/

/-- What ECC_STATUS with CLEAR does to the counters of one class. -/
def ecCleared (d : Dev) (k : Nat) : Dev := ((d.wr (EC_CNT k) 0).wr (EC_PRD k) 0).setF (EC_CTRL k) EC_CTRL_TAB_OVF 0

/-- The counters of a class read 0 once it is cleared, and those of another stay. -/
theorem rd_ecCleared (d : Dev) (j k : Nat) :
    (ecCleared d j).rd (EC_CNT k) = (if j = k then 0 else d.rd (EC_CNT k)) ∧
      (ecCleared d j).rd (EC_PRD k) = (if j = k then 0 else d.rd (EC_PRD k)) := by
  have hctrlCnt : EC_CTRL j ≠ EC_CNT k := by unfold EC_CTRL EC_CNT; omega
  have hctrlPrd : EC_CTRL j ≠ EC_PRD k := by unfold EC_CTRL EC_PRD; omega
  have hprdCnt : EC_PRD j ≠ EC_CNT k := by unfold EC_PRD EC_CNT; omega
  have hcntPrd : EC_CNT j ≠ EC_PRD k := by unfold EC_PRD EC_CNT; omega
  have hcnt : EC_CNT j = EC_CNT k ↔ j = k := by unfold EC_CNT; omega
  have hprd : EC_PRD j = EC_PRD k ↔ j = k := by unfold EC_PRD; omega
  unfold ecCleared
  constructor
  · rw [rd_setF_ne _ _ _ hctrlCnt, rd_wr_ne _ _ hprdCnt, rd_wr]
    simp only [hcnt]
  · rw [rd_setF_ne _ _ _ hctrlPrd, rd_wr]
    simp only [hprd]
    rw [rd_wr_ne _ _ hcntPrd]

theorem rd_foldl_ecCleared (d : Dev) (n k : Nat) (hk : k < n) :
    ((List.range n).foldl ecCleared d).rd (EC_CNT k) = 0 ∧ ((List.range n).foldl ecCleared d).rd (EC_PRD k) = 0 := by
  induction n with
  | zero => omega
  | succ n ih =>
    rw [List.range_succ, List.foldl_append, List.foldl_cons, List.foldl_nil]
    obtain ⟨hcnt, hprd⟩ := rd_ecCleared ((List.range n).foldl ecCleared d) n k
    rw [hcnt, hprd]
    by_cases hnk : n = k
    · exact ⟨if_pos hnk, if_pos hnk⟩
    · rw [if_neg hnk, if_neg hnk]
      exact ih (by omega)

/-- Settles O8: each row is its definition's effect, on the branch that the clause's hypotheses select; ECC_STATUS with CLEAR clears
one class after the other. -/
theorem careCommandsAnswer : Obligations.CareCommandsAnswer := by
  intro n s c d
  refine ⟨?_, fun h => answer_dev h rfl rfl, fun h hkeep => ⟨_, answer_dev h rfl (congrArg (okR _) (ite_of_false hkeep _ _))⟩,
    fun h hclear => ⟨_, _, answer_dev h rfl (congrArg (okR _) (if_pos hclear)), fun k hk => rd_foldl_ecCleared _ 7 k hk⟩,
    fun h => answer_dev h rfl rfl, ?_, ?_, fun h => answer_dev h rfl rfl, fun h hlive => answer_dev h rfl (ite_of_false ?_ _ _),
    fun h => ⟨_, answer_dev h rfl rfl, rfl⟩, fun h => ⟨_, answer_dev h rfl rfl, rfl⟩, ?_, fun h => answer_dev h rfl rfl,
    fun h htwin hcompat => answer_dev h rfl (ite_of_false (Bool.or_eq_false_iff.mpr ⟨htwin, hcompat⟩) _ _),
    fun h => answer_dev h rfl rfl⟩
  · intro h cap rest hfits
    exact answer_dev h rfl (congrArg (fun k : Code => (({ code := k, res := _ } : Reply), d)) (if_neg (Nat.not_lt.mpr hfits)))
  · intro h u hone htwo hfeed e
    exact answer_dev h rfl ((if_neg (not_or.mpr ⟨hone, htwo⟩)).trans (ite_of_false hfeed _ _))
  · intro h k a hfree g data o m1
    exact answer_run h (ite_of_false hfree _ _)
  · rw [← Bool.not_eq_true, Bool.and_eq_true, beq_iff_eq]
    exact fun ⟨hex, hoff⟩ => hlive hex hoff
  · intro h hidle hcompat ms bs hread id ctrl d1
    refine answer_dev h rfl ((ite_of_false (Bool.or_eq_false_iff.mpr ⟨hidle, hcompat⟩) _ _).trans ?_)
    split
    · next hfail => exact absurd (hread.symm.trans hfail) (by simp)
    · next bs' hok =>
      obtain rfl := Except.ok.inj (hread.symm.trans hok)
      rfl

/-! The commands of retained state, self-tests, debugging and the DC-512 personalities. -/

/-- A commit that fails the hold-up check sets ERR_SUM bit 5 (R467). -/
theorem commitNow_of_fails {d : Dev} (why : CommitWhy) {s0 s1 : Nat} (h : (d.huCheck s0 s1).1 = false) :
    d.commitNow why s0 s1 = (.holdupLow, (d.huCheck s0 s1).2.errSum 5) :=
  ite_of_false h _ _

/-- The answer to a command that asks for a commit. -/
theorem commitReply {d e : Dev} {why : CommitWhy} {s0 s1 : Nat} {k : Code} (h : d.commitNow why s0 s1 = (k, e)) :
    ((({ code := (d.commitNow why s0 s1).1 } : Reply), (d.commitNow why s0 s1).2) : Reply × Dev) = ({ code := k }, e) := by
  rw [h]

/-- A command that changes memory and answers OK leaves the device as it is. -/
theorem finish_ok_mem (c : Cmd) (ws : List Nat) (s : State) (m : Mem) :
    finish c { code := .ok, res := ws } { s with mem := m } = completed c ws { s with mem := m } s.dev := rfl

/-- PROFILE_READ of a profile that is not empty and fits. -/
theorem profileRead_run {c : Cmd} {s : State} (hfits : s.dev.profileBytes'.length ≤ c.q 2) (hsome : s.dev.profileBytes' ≠ [])
    (hw : (memWrite s.dev s.mem (c.q 0) s.dev.profileBytes' false).1 = true) :
    profileReadDef.run c s = okR [s.dev.profileBytes'.length, s.flash.gen % 2 ^ 32]
      { s with mem := (memWrite s.dev s.mem (c.q 0) s.dev.profileBytes' false).2 } := by
  have hne : s.dev.profileBytes'.isEmpty = false := by simpa using hsome
  have hgood : (!s.dev.profileBytes'.isEmpty && !(memWrite s.dev s.mem (c.q 0) s.dev.profileBytes' false).1) = false := by
    rw [hw]
    exact Bool.and_false _
  exact (if_neg (Nat.not_lt.mpr hfits)).trans ((ite_of_false hgood _ _).trans
    (congrArg (fun m : Mem => okR _ { s with mem := m }) (ite_of_false hne _ _)))

/-- Settles O9: each row is its definition's effect, on the branch that the clause's hypotheses select. -/
theorem keepCommandsAnswer : Obligations.KeepCommandsAnswer := by
  intro n s0 s1 s c k d
  refine ⟨?_, ?_, fun h i e hjob => answer_dev h rfl (asJob_some hjob _), fun h hidle => answer_dev h rfl (ite_of_false ?_ _ _),
    fun h i e hjob => answer_dev h rfl (asJob_some hjob _), ?_,
    fun h htest i e hjob => answer_dev h rfl ((if_pos htest).trans (asJob_some hjob _)), fun h => answer_dev h rfl rfl,
    fun h => answer_dev h rfl rfl, fun h => answer_dev h rfl rfl, ?_, fun h => answer_dev h rfl rfl,
    fun h i e hjob => answer_dev h rfl (asJob_some hjob _)⟩
  · intro h bs hfits hsome hw
    exact (answer_run h (profileRead_run hfits hsome hw)).trans (congrArg Host.Outcome.next (finish_ok_mem c _ s _))
  · intro h hidle l hafter e
    refine ⟨fun hpass => answer_dev h rfl ((ite_of_false hidle _ _).trans ?_),
      fun hfail => answer_dev h rfl ((ite_of_false hidle _ _).trans ?_)⟩
    · split
      · next hfail => exact absurd (hafter.symm.trans hfail) (by simp)
      · next l' hok =>
        obtain rfl := Except.ok.inj (hafter.symm.trans hok)
        exact commitReply (commitNow_of_passes .profile hpass)
    · split
      · next hnone => exact absurd (hafter.symm.trans hnone) (by simp)
      · next l' hok =>
        obtain rfl := Except.ok.inj (hafter.symm.trans hok)
        exact commitReply (commitNow_of_fails .profile hfail)
  · exact Bool.and_eq_false_iff.mpr (hidle.imp_right fun hengine => by simp [hengine])
  · intro h hidle e hpass
    exact answer_dev h rfl ((ite_of_false hidle _ _).trans (commitReply (commitNow_of_passes .factory hpass)))
  · intro h hstop hfits e hpass
    refine answer_dev h rfl ((checks_of_false hstop _ _ _ _).trans ((checks_of_false (congrArg not hfits) _ _ _ _).trans ?_))
    rw [checks_nil]
    exact commitReply (commitNow_of_passes .pers hpass)

end Sys2Proof.Proofs
end

section
/-!
SUPPORT. The rows of the DC-512 personalities, of the host port and of the lanes.
-/
namespace Sys2Proof.Proofs
set_option Elab.async false
open Sys2Proof.Machine Sys2Proof.Laws

/-! The rows of the DC-512 personalities. -/

/-- A slot that firmware takes up is answered with what its command gives, and released. -/
theorem serveDc_ready {op p k : Nat} {s t : State} {run : State → (Nat × List Nat) × State} {st : Nat} {res : List Nat}
    (h : readyDc op p k s = true) (hr : run s = ((st, res), t)) :
    (.next (serveDc op p k run s) : Host.Outcome State Fault Refusal) = .next { t with dev := t.dev.dcRelease p k st res } := by
  unfold readyDc at h
  unfold serveDc
  rw [if_pos h, hr]

/-- The same for a command that changes the device alone. -/
theorem servePers_ready {op p k : Nat} {s : State} {f : Dev → (Nat × List Nat) × Dev} {st : Nat} {res : List Nat} {e : Dev}
    (h : readyDc op p k s = true) (hr : f s.dev = ((st, res), e)) :
    (.next (serveDc op p k (onPers f) s) : Host.Outcome State Fault Refusal) = .next { s with dev := e.dcRelease p k st res } := by
  refine serveDc_ready (t := { s with dev := e }) h ?_
  rw [onPers, hr]

theorem persStart_of_rate {p v : Nat} {s : State} (h : s.dev.persRateBad p = true) : persStart p v s = ((DC_RATE, []), s) :=
  if_pos h

/-- START begins at the first dump boundary at or after the counter named (R440). -/
theorem persStart_of_fits {p v : Nat} {s : State} (h : s.dev.persRateBad p = false) :
    let s1 := persRunStart s
    let y := s1.dev.per p
    let y1 : Pers := { y with running := true, stopping := false, start := none, re := [], im := [], bad := [], acct := [],
                              first := ceilDiv (s1.dev.counter64 p v).toNat (dumpSpan y.k) * dumpSpan y.k }
    persStart p v s = ((DC_OK, []), { s1 with dev := s1.dev.setPer p y1 }) :=
  ite_of_false h _ _

theorem persSetDump_of_le {d : Dev} {p k : Nat} (h : k ≤ 15) : d.persSetDump p k =
    ((DC_OK, []), d.setPer p (if (d.per p).running then { d.per p with nextK := some k } else { d.per p with k := k })) :=
  if_neg (Nat.not_lt.mpr h)

theorem persSetDump_of_lt {d : Dev} {p k : Nat} (h : 15 < k) : d.persSetDump p k = ((DC_BAD_PARAM, []), d) :=
  if_pos h

/-- A personality of the mode is open to a doorbell and to a function reset. -/
theorem persOpen {compat : Bool} {p : Nat} (hcompat : compat = true) (hp : p < 4) : (!compat || decide (p ≥ 4)) = false := by
  rw [hcompat, decide_eq_false (Nat.not_le.mpr hp)]
  rfl

/-- LOAD_DSP of words that fit their space (Table 15.5). -/
theorem persLoadDsp_of_fits {p k : Nat} {s : State} (hspace : s.dev.dcWord p k 1 ≤ 2) (hone : 1 ≤ s.dev.dcWord p k 3)
    (htwelve : s.dev.dcWord p k 3 ≤ 12)
    (hend : s.dev.dcWord p k 2 + s.dev.dcWord p k 3 ≤
      if s.dev.dcWord p k 1 = 0 then 0x4000 else if s.dev.dcWord p k 1 = 1 then 0xFC00 else 0x10000) :
    persLoadDsp p k s = ((DC_OK, []), { s with mem := (memWrite s.dev s.mem
      (s.localBase (s.dev.physOf (1 + p / 2)) (s.dev.dcWord p k 1) +
        4 * ((if s.dev.dcWord p k 1 = 0 then 0x4000 else 0x10000) * (p % 2) + s.dev.dcWord p k 2))
      ((List.range (s.dev.dcWord p k 3)).flatMap fun i => leBytes 3 (s.dev.dcWord p k (4 + i)) ++ [0]) false).2 }) :=
  if_neg (not_or.mpr ⟨Nat.not_lt.mpr hspace, not_or.mpr ⟨Nat.not_lt.mpr hone, not_or.mpr ⟨Nat.not_lt.mpr htwelve, Nat.not_lt.mpr hend⟩⟩⟩)

/-- Settles O10: each row is its definition's effect, on the branch that the clause's hypotheses select. -/
theorem personalityRowsComplete : Obligations.PersonalityRowsComplete := by
  intro p k s d w x
  refine ⟨fun v writes hcompat hp => congrArg (nextDev s) (ite_of_false (persOpen hcompat hp) _ _), fun h => servePers_ready h rfl,
    ?_, fun h hrate => serveDc_ready h (persStart_of_rate hrate),
    fun h hrun => servePers_ready h (congrArg (Prod.mk _) (if_pos hrun)), fun h hle => servePers_ready h (persSetDump_of_le hle),
    fun h hlt => servePers_ready h (persSetDump_of_lt hlt), fun h hstop => servePers_ready h (ite_of_false hstop _ _),
    fun h hrun => servePers_ready h (if_pos hrun), ?_, ?_, fun h => servePers_ready h rfl, fun h => servePers_ready h rfl,
    fun hcompat hp => congrArg (nextDev s) (ite_of_false (persOpen hcompat hp) _ _), ?_, ?_⟩
  · intro h hrate s1 y y1
    have hdone := serveDc_ready h (persStart_of_fits (v := w 1) hrate)
    exact hdone
  · intro h hspace hone htwelve hend base bs
    exact serveDc_ready h (persLoadDsp_of_fits hspace hone htwelve hend)
  · intro h haddr c d1 d2
    exact servePers_ready h (if_neg (Nat.not_le.mpr haddr))
  · intro lane b hlane hp hcompat hen hfunc hlen hcrc hcount hch hsrc l c d1 d2 r d3 top
    subst hlane
    have hopen : ¬ ((!d.compat) = true ∨ lane ≥ 64 ∨ (!x.en) = true ∨ d.laneFunc lane ≠ 4) := by
      rw [hcompat, hen]
      simp only [Bool.not_true, Bool.false_eq_true, false_or, not_or]
      exact ⟨by omega, not_not_intro hfunc⟩
    refine congrArg (nextDev s) ((if_neg hopen).trans ((if_neg (not_or.mpr ⟨not_not_intro hlen, not_not_intro hcrc⟩)).trans
      ((if_neg (not_not_intro hcount)).trans (if_neg (not_or.mpr ⟨Nat.not_le.mpr hch, Nat.not_lt.mpr hsrc⟩)))))
  · intro core hcore hcompat hcs hrun y q hb hen hen'
    refine congrArg (nextDev s) (ite_of_false ?_ _ _)
    rw [decide_eq_false (Nat.not_le.mpr hcore), hcompat, hcs, hrun, hb, hen, hen']
    rfl

/-! The rows of the host port. -/

/-- Where no key stands twice, the search by an element's key finds the element. -/
theorem find?_key_of_mem {α : Type} (f : α → Nat) {l : List α} {x : α} (hn : (l.map f).Nodup) (hx : x ∈ l) :
    (l.find? fun y => f y == f x) = some x := by
  induction l with
  | nil => cases hx
  | cons y ys ih =>
    rw [List.map_cons, List.nodup_cons] at hn
    obtain ⟨hy, hys⟩ := hn
    rcases List.mem_cons.mp hx with rfl | hmem
    · simp
    · have hne : f y ≠ f x := fun he => hy (he ▸ List.mem_map_of_mem hmem)
      rw [List.find?_cons, beq_false_of_ne hne]
      exact ih hys hmem

theorem nodup_ops : (commands.map CmdDef.op).Nodup := by
  decide

/-- Every command is found by its opcode. -/
theorem cmdOf_op {df : CmdDef} (h : df ∈ commands) : cmdOf df.op = some df :=
  find?_key_of_mem CmdDef.op nodup_ops h

theorem front_of_ready {df : CmdDef} {k s0 s1 : Nat} {s : State} (h : ready df k s0 s1 s = true) :
    s.dev.host.fwq.head? = some k ∧ k ≤ SMB_SLOT := by
  unfold ready at h
  simp only [Bool.and_eq_true, beq_iff_eq, decide_eq_true_eq] at h
  obtain ⟨⟨⟨⟨⟨⟨⟨⟨hhead, hslot⟩, _⟩, _⟩, _⟩, _⟩, _⟩, _⟩, _⟩ := h
  exact ⟨hhead, hslot⟩

/-- A command at the front that passes the common checks is taken up and runs (R366). -/
theorem takeUp_ready {df : CmdDef} (hdf : df ∈ commands) {k s0 s1 : Nat} {s : State} (h : ready df k s0 s1 s = true) :
    takeUp s0 s1 s = serve df k s0 s1 s := by
  have hop : cmdOf (s.dev.readCmd k s0 s1).op = some df := (congrArg cmdOf (op_of_ready h)).trans (cmdOf_op hdf)
  obtain ⟨hhead, hslot⟩ := front_of_ready h
  have hmail : ¬ k ≥ 64 := Nat.not_le.mpr (Nat.lt_of_le_of_lt hslot (by decide))
  simp only [takeUp, hhead, if_neg hmail, hop]

/-- A write of a slot by the host is one of 4 or 8 bytes, aligned. -/
theorem slotSize_ok {off size : Nat} (hsize : size = 4 ∨ size = 8) (hal : off % size = 0) :
    (!(size == 4 || size == 8) || off % size != 0) = false := by
  rcases hsize with rfl | rfl <;> simp [hal]

/-- The host writes a slot that it owns, and one that firmware owns is left and counted (R362). -/
theorem mailboxSlotWrite_eq {s : State} {off size v k : Nat} (hsize : size = 4 ∨ size = 8) (hal : off % size = 0)
    (hslot : slotOf off = some k) : execMailboxSlotWrite off size v s = nextDev s (
      if bit (s.dev.rdN DOORBELL) k then (s.dev.cntF HI_CNT HI_CNT_MB_VIOL 1).raise 0x1001 k off 0
      else s.dev.wrWords (DEVSTAT + off) ([v % 2 ^ 32, v / 2 ^ 32 % 2 ^ 32].take (size / 4))) := by
  simp only [execMailboxSlotWrite, slotSize_ok hsize hal, hslot, Bool.false_eq_true, if_false]

/-- An aperture is on. -/
theorem aperOn {s : State} {off : Nat} (ha : off / 0x4000000 < 4) (hon : s.dev.on (APER (off / 0x4000000)) APER_EN = true) :
    (decide (off / 0x4000000 < 4) && s.dev.on (APER (off / 0x4000000)) APER_EN) = true := by
  rw [decide_eq_true ha, hon]
  rfl

/-- The address behind an aperture (R373). -/
def aperAddr (d : Dev) (off : Nat) : Nat := d.f (APER (off / 0x4000000)) APER_BASE * 2 ^ 26 + off % 0x4000000

/-- Through an aperture that is on and writable, BAR2 writes the matrix (R373). -/
theorem bar2_write_of_on {s : State} {off len : Nat} {bytes : List Nat} {ep : Bool} (ha : off / 0x4000000 < 4)
    (hon : s.dev.on (APER (off / 0x4000000)) APER_EN = true) (hw : s.dev.on (APER (off / 0x4000000)) APER_WRITE = true) :
    bar2 true off len bytes ep s = (busWrite 10 (aperAddr s.dev off) bytes (bytes.map fun _ => ep) s).2 := by
  simp only [bar2, aperAddr, aperOn ha hon, hw, Bool.and_self, if_true]

/-- A write through a read-only aperture is dropped, counted and logged (R374). -/
theorem bar2_write_of_readOnly {s : State} {off len : Nat} {bytes : List Nat} {ep : Bool}
    (hw : s.dev.on (APER (off / 0x4000000)) APER_WRITE = false) :
    bar2 true off len bytes ep s = { s with dev := (s.dev.cntF HI_CNT HI_CNT_BAR2_WDROP 1).raise 0x1002 0xFF off 0 } := by
  simp only [bar2, hw, Bool.and_false, Bool.false_eq_true, if_true, if_false]

/-- Through an aperture that is on, BAR2 reads the matrix (R373). -/
theorem bar2_read_of_on {s : State} {off len : Nat} {bytes : List Nat} {ep : Bool} (ha : off / 0x4000000 < 4)
    (hon : s.dev.on (APER (off / 0x4000000)) APER_EN = true) (hok : (busRead 10 (aperAddr s.dev off) len s).1.kind = .ok) :
    bar2 false off len bytes ep s =
      (busRead 10 (aperAddr s.dev off) len s).2.answer (busRead 10 (aperAddr s.dev off) len s).1 := by
  unfold aperAddr at hok ⊢
  simp only [bar2, aperOn ha hon, hok, Bool.not_true, Bool.false_eq_true, if_true, if_false]

theorem jobDone_of_cancelling {i : Nat} {bad : List Nat} {s : State} (h : s.dev.jobState i = 4) :
    jobDone i bad s = { s with dev := (s.dev.dropJob i).endJob i .partialDone (s.dev.jobCount i) } := if_pos h

theorem jobDone_of_work {i : Nat} {bad : List Nat} {s t : State} {code : Code} {k : Nat} (h : s.dev.jobState i = 2)
    (hw : jobWork (s.dev.jobOp i) bad i s = (t, some (code, k))) :
    jobDone i bad s = { t with dev := t.dev.endJob i code k } := by
  unfold jobDone
  rw [if_neg (by rw [h]; decide), if_pos h, hw]

/-- Settles O11: each row is its definition's effect, on the branch that the clause's hypotheses select. -/
theorem hostRowsComplete : Obligations.HostRowsComplete := by
  intro s d h
  refine ⟨fun v => rfl, fun off size v k hsize hal hslot hfree => ?_, fun off size v k hsize hal hslot hheld => ?_,
    fun off size => congrArg Host.Outcome.next (if_pos rfl), fun ep off size hbad => ?_, fun off size hbad => ?_, ?_, ?_,
    fun k s0 s1 hfront hslot hnone hserved => ?_, fun v hspacing => congrArg (nextDev s) (if_neg ?_), fun _ _ _ _ _ => rfl, fun _ => rfl,
    fun _ _ => rfl, ?_, ?_, ?_, ?_, ?_, rfl, fun again halert => congrArg (nextDev s) (ite_not_of_true halert _ _), ?_, rfl⟩
  · exact (mailboxSlotWrite_eq hsize hal hslot).trans (congrArg (nextDev s) (ite_of_false hfree _ _))
  · exact (mailboxSlotWrite_eq hsize hal hslot).trans (congrArg (nextDev s) (if_pos hheld))
  · exact congrArg Host.Outcome.next ((if_neg (by simp)).trans ((ite_of_false hbad _ _).trans (if_neg Bool.false_ne_true)))
  · exact congrArg Host.Outcome.next ((if_neg (by simp)).trans ((ite_of_false hbad _ _).trans (if_pos rfl)))
  · intro off len bytes ep a ha hon addr
    exact ⟨fun hw => congrArg Host.Outcome.next (bar2_write_of_on ha hon hw),
      fun hw => congrArg Host.Outcome.next (bar2_write_of_readOnly hw), fun hok => congrArg Host.Outcome.next (bar2_read_of_on ha hon hok)⟩
  · intro df hdf k s0 s1 hready c
    exact congrArg Host.Outcome.next ((takeUp_ready hdf hready).trans (serve_ready hready))
  · exact congrArg Host.Outcome.next (takeUp_of_cmdOf_none hfront hslot hserved hnone)
  · simp [h, d] at hspacing ⊢
    exact hspacing
  · intro hfw hreset hst
    have hstop : (d.fwStuck || d.pwr.inReset || [FW_BOOT, FW_HALTED, FW_SHUTDOWN].contains d.fwState) = false := by
      rw [hfw, hreset, Bool.false_or, Bool.false_or, ← Bool.not_eq_true, List.contains_iff_mem]
      exact hst
    exact congrArg (nextDev s) (ite_of_false hstop _ _)
  · intro i bad hserved hst
    exact congrArg Host.Outcome.next ((if_pos hserved).trans (jobDone_of_cancelling hst))
  · intro i bad t code k hserved hst hw
    exact congrArg Host.Outcome.next ((if_pos hserved).trans (jobDone_of_work hst hw))
  · intro off data haux hlen
    have hopen : ¬ ((!d.pwr.auxOn) = true ∨ data.length > 64) := by
      rw [haux]
      exact not_or.mpr ⟨by decide, Nat.not_lt.mpr hlen⟩
    exact ⟨congrArg (nextDev s) (if_neg hopen), congrArg (nextDev s) (if_neg hopen)⟩
  · intro hfree
    exact congrArg (nextDev s) (if_neg (by rw [show s.dev.rdN SMB_DB % 2 = 0 from hfree]; decide))
  · intro off data len hcompat
    have hlen : ¬ (data.length + 1 + 1 < 2) := by omega
    exact ⟨(ite_of_false hcompat _ _).trans (congrArg (nextDev s) (if_neg hlen)),
      (ite_of_false hcompat _ _).trans (congrArg (nextDev s) (if_neg hlen))⟩

/-! The rows that train lanes. -/

theorem trainStep_of_at {d : Dev} {n a : Nat} (b : Nat) (h : d.laneSt n = a) : d.trainStep n a b = d.laneMove n b := if_pos h

/-- A change of the device given by its rule. -/
theorem next_dev {s : State} {d e : Dev} (h : d = e) :
    (.next { s with dev := d } : Host.Outcome State Fault Refusal) = .next { s with dev := e } := by rw [h]

theorem laneTimeout_of_training {d : Dev} {n : Nat} (hlo : LST_CDR ≤ d.laneSt n) (hhi : d.laneSt n ≤ LST_IDENT) :
    let rs := (d.now :: (d.lane n).retrains).filter fun t => decide (d.now ≤ t + SIXTY_S)
    let d1 := (d.laneMove n LST_CDR).cnt (LN_RETRAIN n) 1
    let d2 := d1.setLane n { d1.lane n with retrains := rs.take 8 }
    d.laneTimeout n = if decide (rs.length ≥ 8) && d2.laneRxUsed n then d2.rxFail n else d2 :=
  if_neg (not_or.mpr ⟨Nat.not_lt.mpr hlo, Nat.not_lt.mpr hhi⟩)

theorem rxFail_of_good {d : Dev} {n : Nat} (h : (d.lane n).rxFailed = false) :
    d.rxFail n = (d.setLane n { d.lane n with rxFailed := true }).laneFailed n := ite_of_false h _ _

/-- Settles O13: each event's rule, on the branch that the lane's state selects. -/
theorem laneTrainingRowsComplete : Obligations.LaneTrainingRowsComplete := by
  intro n s d l
  refine ⟨fun hst => next_dev (trainStep_of_at _ hst), fun hst => next_dev (if_pos hst), fun hst => next_dev (trainStep_of_at _ hst),
    fun hst => next_dev (trainStep_of_at _ hst), fun hst => next_dev (if_pos hst), fun hst => next_dev (if_pos hst),
    fun src link hst hok => next_dev ((if_pos hst).trans (if_pos hok)), fun src link hst hbad => next_dev ((if_pos (.inl hst)).trans ?_),
    ?_, fun hst => ⟨next_dev (trainStep_of_at _ hst), next_dev (trainStep_of_at _ hst), next_dev (trainStep_of_at _ hst)⟩, ?_, ?_, ?_,
    fun hexit hst => next_dev (if_pos ⟨hexit, hst⟩), ?_⟩
  · have hne : d.laneSt n ≠ LST_MISWIRED := by rw [hst]; decide
    exact (ite_of_false hbad _ _).trans (if_neg hne)
  · intro hlo hhi rs d1 d2
    refine ⟨fun hmany hused => next_dev ((laneTimeout_of_training hlo hhi).trans (if_pos ?_)),
      fun hfew => next_dev ((laneTimeout_of_training hlo hhi).trans (ite_of_false ?_ _ _))⟩
    · exact Bool.and_eq_true_iff.mpr ⟨decide_eq_true hmany, hused⟩
    · exact Bool.and_eq_false_iff.mpr (hfew.imp_left fun hlt => decide_eq_false (Nat.not_le.mpr hlt))
  · intro hused hst hsignal hgood
    have hfails : (d.laneRxUsed n && d.laneSt n != LST_UP && l.signal) = true := by
      rw [hused, hsignal, bne_iff_ne.mpr hst]
      rfl
    exact next_dev ((if_pos hfails).trans (rxFail_of_good hgood))
  · intro hlp hoff hlow d1
    exact next_dev ((if_pos hlp).trans (if_neg (not_or.mpr ⟨hoff, hlow⟩)))
  · intro hlp hlow d1
    exact next_dev ((ite_of_false hlp _ _).trans (if_neg (not_not_intro hlow)))
  · intro d1
    refine ⟨fun g hg => next_dev ?_, fun hnone => next_dev ?_⟩
    · dsimp only
      split
      · next g' hsome =>
        obtain rfl := Option.some.inj (hg.symm.trans hsome)
        rfl
      · next hnone => exact absurd (hg.symm.trans hnone) (Option.some_ne_none g)
    · dsimp only
      split
      · next g' hsome => exact absurd (hnone.symm.trans hsome) (Option.some_ne_none g').symm
      · rfl

/-! The rows of lane traffic. -/

/-- A frame counted and, where it passes checks 1 to 3, taken through the others (R61). -/
def frameChecked (d : Dev) (n corr unc h : Nat) (p : List Nat) : Dev :=
  let d1 := if corr = 0 then d else d.cnt (LN_FEC_CORR n) corr
  let d2 := if unc = 0 then d1 else d1.cnt (LN_FEC_UNCORR n) unc
  if frameCheck unc h p = 0 then d2.frameBody n h p else d2

section
variable {d : Dev} {n slot corr unc h : Nat} {p : List Nat}

/-- An ASL lane in UP takes frames. -/
theorem laneTakes (hup : d.laneSt n = LST_UP) (hfunc : d.laneFunc n = 1) (hgood : (d.lane n).rxFailed = false) :
    ¬ (d.laneSt n ≠ LST_UP ∨ d.laneFunc n ≠ 1 ∨ (d.lane n).rxFailed = true) := by
  simp [hup, hfunc, hgood]

/-- On a lane of no group a frame that fails is dropped. -/
theorem aslReceived_of_ungrouped (htakes : ¬ (d.laneSt n ≠ LST_UP ∨ d.laneFunc n ≠ 1 ∨ (d.lane n).rxFailed = true))
    (hnone : (frameChecked d n corr unc h p).rxGroup n = none) :
    d.aslReceived n slot corr unc h p = (frameChecked d n corr unc h p).dropFrame n (frameCheck unc h p) := by
  unfold frameChecked at hnone
  simp only [Dev.aslReceived, frameChecked, if_neg htakes, hnone]

/-- In a group that keeps step a frame takes its place in its slot (R68). -/
theorem aslReceived_of_grouped (htakes : ¬ (d.laneSt n ≠ LST_UP ∨ d.laneFunc n ≠ 1 ∨ (d.lane n).rxFailed = true)) {g : LGroup}
    (hg : (frameChecked d n corr unc h p).rxGroup n = some g) (hskew : g.skew = false) :
    let g1 := { g with slots := g.slots ++ [{ slot := slot, pos := bits h 155 152, lane := n, check := frameCheck unc h p,
                                              header := h, payload := p }], newest := max g.newest slot }
    (g1.slots.any fun x => decide (x.slot + 3 < g1.newest)) = false →
    d.aslReceived n slot corr unc h p = ((frameChecked d n corr unc h p).setRxGroup g1).settleSlot g1 slot := by
  intro g1 hnear
  unfold frameChecked at hg
  simp only [Dev.aslReceived, frameChecked, if_neg htakes, hg]
  exact (ite_of_false hskew _ _).trans (ite_of_false hnear _ _)

end

theorem dropFrame_zero (d : Dev) (n : Nat) : d.dropFrame n 0 = d := rfl

/-- A frame slot of a lane of no group sends the oldest frame that waits (R57). -/
theorem frameSlot_of_ungrouped {d : Dev} {n : Nat}
    (hnone : (({ d with aslSlots := d.aslSlots + 1 } : Dev).lgroups.find? fun g => g.tx && g.lanes.contains n) = none)
    (hsends : ({ d with aslSlots := d.aslSlots + 1 } : Dev).sends n = true) :
    d.frameSlot n = ((({ d with aslSlots := d.aslSlots + 1 } : Dev).nextFrame n).2.putFrame n 0xF
      (({ d with aslSlots := d.aslSlots + 1 } : Dev).nextFrame n).1).2 := by
  unfold Dev.frameSlot
  simp only [hnone]
  exact ite_not_of_true hsends _ _

/-- With credit the oldest bulk frame leaves (R65). -/
theorem bulkSend_of_credit {d : Dev} {k ch m : Nat} {p : List Nat} {rest : List Nat}
    (hfree : serialDiff (d.bulkOf k).credit (((d.bulkOf k).sent + d.bulkWaiting k) % 2 ^ 32) 32 > 0)
    (hlanes : d.txLanes k = m :: rest) (hqueue : (d.bulkOf k).queue = []) :
    d.bulkSend k ch p = (d.setBulk k { d.bulkOf k with queue := [] }).setLane m { d.lane m with
      txq := (d.lane m).txq ++ [{ type := 3, link := k, bulkCh := ch, payload := padTo 4096 p }] } := by
  unfold Dev.bulkSend
  dsimp only
  rw [decide_eq_true hfree, hlanes, hqueue, List.nil_append]

/-- Without credit it waits. -/
theorem bulkSend_of_no_credit {d : Dev} {k ch : Nat} {p : List Nat}
    (hfree : serialDiff (d.bulkOf k).credit (((d.bulkOf k).sent + d.bulkWaiting k) % 2 ^ 32) 32 ≤ 0) :
    d.bulkSend k ch p = d.setBulk k { d.bulkOf k with queue := (d.bulkOf k).queue ++ [(ch, padTo 4096 p)] } := by
  unfold Dev.bulkSend
  dsimp only
  rw [decide_eq_false (Int.not_lt.mpr hfree)]

/-- Settles O14: each event's rule, on the branch that the lane's group, its credit and the SPN select. -/
theorem laneTrafficRowsComplete : Obligations.LaneTrafficRowsComplete := by
  intro n s d
  refine ⟨?_, rfl, ?_, fun ch p rest hfree m hlanes hqueue => next_dev (bulkSend_of_credit hfree hlanes hqueue),
    fun ch p hfree => next_dev (bulkSend_of_no_credit hfree), fun num g pos spn hg htuck hdue => next_dev ?_⟩
  · intro slot corr unc h p hup hfunc hgood d1 d2
    have htakes := laneTakes hup hfunc hgood
    refine ⟨fun hpass hnone => next_dev ?_, fun hfail hnone => next_dev ?_, fun hfail g hg hskew => ?_⟩
    · have hchecked : frameChecked d n corr unc h p = d2.frameBody n h p := if_pos hpass
      rw [aslReceived_of_ungrouped htakes (by rw [hchecked]; exact hnone), hchecked, hpass, dropFrame_zero]
    · have hchecked : frameChecked d n corr unc h p = d2 := if_neg hfail
      rw [aslReceived_of_ungrouped htakes (by rw [hchecked]; exact hnone), hchecked]
    · have hchecked : frameChecked d n corr unc h p = d2 := if_neg hfail
      intro g1 hnear
      refine next_dev ?_
      rw [aslReceived_of_grouped htakes (by rw [hchecked]; exact hg) hskew hnear, hchecked]
  · refine ⟨fun g hg => next_dev ?_, fun hnone hsends => next_dev (frameSlot_of_ungrouped hnone hsends)⟩
    unfold Dev.frameSlot
    dsimp only
    split
    · next g' hg' =>
      obtain rfl := Option.some.inj (hg.symm.trans hg')
      rfl
    · next hnone => exact absurd (hg.symm.trans hnone) (Option.some_ne_none g)
  · split
    · next g' hg' =>
      obtain rfl := Option.some.inj (hg.symm.trans hg')
      simp only [htuck]
      exact ite_of_false hdue _ _
    · next hnone => exact absurd (hg.symm.trans hnone) (Option.some_ne_none g)

/-! The rows of JESD204C links, eye scans and patterns. -/

section
variable {d : Dev} {k n : Nat} {j : Jesd} (hlink : d.jlink k = some j)
include hlink

theorem multiblock_of_failed {xs : List (Nat × Nat × Nat × Nat)} (hlane : j.lanes.contains n = true) (hup : d.laneSt n = LST_UP)
    (hal : j.aligned = false) : d.multiblock k n false xs = (d.cnt (LN_JESD_CRC n) 1).setJlink k (some j) := by
  simp only [Dev.multiblock, hlink, hlane, hup, hal, Bool.not_true, bne_self_eq_false, Bool.or_self, Bool.false_eq_true, and_false,
    Bool.not_false, if_false, if_true]

theorem multiblock_of_good {xs : List (Nat × Nat × Nat × Nat)} (hlane : j.lanes.contains n = true) (hup : d.laneSt n = LST_UP)
    (hsub : j.subclass = 0) :
    d.multiblock k n true xs = xs.foldl (fun (e : Dev) x => e.jesdPlace k { j with aligned := true } true (d.on FR_CTRL FR_CTRL_CPLX) xs x)
      (d.setJlink k (some { j with aligned := true })) := by
  simp only [Dev.multiblock, hlink, hlane, hup, hsub, Bool.not_true, bne_self_eq_false, Bool.or_self, Bool.false_eq_true, and_self,
    if_false, if_true]

/-- An edge that is too short or too soon is counted on every lane of the link (R73). -/
theorem sysrefEdge_of_ignored {cycles since : Nat} (hsub : j.subclass ≠ 0)
    (hbad : cycles < 2 ∨ (j.lastEdge.isSome = true ∧ since < j.period)) :
    d.sysrefEdge k cycles since = j.lanes.foldl (fun (e : Dev) m => e.cnt (LN_SYSREF_IGN m) 1) d := by
  simp only [Dev.sysrefEdge, hlink]
  exact (if_neg hsub).trans (if_pos hbad)

/-- The first edge after arming aligns the link, and ends the job that waits for it. -/
theorem sysrefEdge_of_armed {cycles since : Nat} (hsub : j.subclass ≠ 0)
    (hgood : ¬ (cycles < 2 ∨ (j.lastEdge.isSome = true ∧ since < j.period))) (harmed : j.armed.isSome = true) :
    let d1 := d.setJlink k (some { j with armed := none, armJob := none, lastEdge := some d.now, aligned := true, phase := 0,
                                          misalign := false, fault := false })
    (j.armJob = none → d.sysrefEdge k cycles since = d1) ∧ (∀ i, j.armJob = some i → d.sysrefEdge k cycles since = d1.endJob i .ok 0) := by
  intro d1
  refine ⟨fun hjob => ?_, fun i hjob => ?_⟩
  · simp only [Dev.sysrefEdge, hlink, hjob]
    exact (if_neg hsub).trans ((if_neg hgood).trans (if_pos harmed))
  · simp only [Dev.sysrefEdge, hlink, hjob]
    exact (if_neg hsub).trans ((if_neg hgood).trans (if_pos harmed))

/-- A later edge is compared with the link's phase. -/
theorem sysrefEdge_of_aligned {cycles since : Nat} (hsub : j.subclass ≠ 0)
    (hgood : ¬ (cycles < 2 ∨ (j.lastEdge.isSome = true ∧ since < j.period))) (harmed : j.armed = none) (hal : j.aligned = true)
    (hfault : j.fault = false) :
    d.sysrefEdge k cycles since = if (j.phase + since) % j.period = 0 ∨ j.cont = true then
      d.setJlink k (some { j with lastEdge := some d.now, phase := 0 })
      else d.setJlink k (some { j with lastEdge := some d.now, phase := (j.phase + since) % j.period, misalign := true }) := by
  simp only [Dev.sysrefEdge, hlink]
  exact (if_neg hsub).trans ((if_neg hgood).trans ((if_neg (by simp [harmed])).trans
    ((ite_not_of_true hal _ _).trans (ite_of_false hfault _ _))))

theorem jesdFault_of_aligned (hal : j.aligned = true) : d.jesdFault k = d.setJlink k (some { j with fault := true }) := by
  simp only [Dev.jesdFault, hlink]
  exact if_pos hal

end

/-- A point of a lane starts: its counts are cleared (R75). -/
def pointRun (d : Dev) (n : Nat) : Dev := ((d.setF (LN_EYE n) LN_EYE_DONE 0).wrN (LN_EYE_ERR n) 0).wrN (LN_EYE_UI n) 0

theorem eyeStart_of_no_scan {d : Dev} {n : Nat} (hup : d.laneSt n = LST_UP) (hscan : d.scanOf n = none)
    (hen : d.on (LN_EYE n) LN_EYE_EN = true) : d.eyeStart n = pointRun d n := by
  simp only [Dev.eyeStart, hscan]
  exact (if_neg (not_not_intro hup)).trans (if_pos hen)

theorem eyeStart_of_scan {d : Dev} {n i : Nat} {h v : Int} (hup : d.laneSt n = LST_UP) (hscan : d.scanOf n = some i)
    (hpoint : (scanPoints (d.job i).params)[(d.job i).tally]? = some (h, v)) :
    d.eyeStart n = pointRun (((((d.setF (LN_EYE n) LN_EYE_EN 1).setF (LN_EYE n) LN_EYE_EYE
      (bits ((d.job i).params.getD 0 0) 9 8)).setF (LN_EYE n) LN_EYE_H_OFF (wrapN 7 h)).setF (LN_EYE n) LN_EYE_V_OFF (wrapN 8 v)).setF
        (LN_EYE n) LN_EYE_DWELL (bits ((d.job i).params.getD 0 0) 19 16)) n := by
  simp only [Dev.eyeStart, hscan, hpoint]
  exact if_neg (not_not_intro hup)

theorem scanPartial_of_scan {d : Dev} {n i : Nat} (hscan : d.scanOf n = some i) :
    d.scanPartial n = (d.setF (LN_EYE n) LN_EYE_EN 0).endJob i .partialDone (d.job i).tally := by
  simp only [Dev.scanPartial, hscan]

/-- A point of no scan is done: its counts are written. -/
theorem eyeDone_of_no_scan {s : State} {n errs ui : Nat} (hen : s.dev.on (LN_EYE n) LN_EYE_EN = true) (hup : s.dev.laneSt n = LST_UP)
    (hscan : ((((s.dev.wrN (LN_EYE_ERR n) errs).wrN (LN_EYE_UI n) ui).setF (LN_EYE n) LN_EYE_DONE 1).setF (LN_EYE n)
      LN_EYE_EN 0).scanOf n = none) :
    eyeDone n errs ui s = { s with
      dev := (((s.dev.wrN (LN_EYE_ERR n) errs).wrN (LN_EYE_UI n) ui).setF (LN_EYE n) LN_EYE_DONE 1).setF (LN_EYE n) LN_EYE_EN 0 } := by
  simp only [eyeDone, hen, hup, hscan, Bool.not_true, bne_self_eq_false, Bool.or_self, Bool.false_eq_true, if_false]

/-- Injection once sends one wrong bit while the generator runs (R79). -/
theorem injGo_once {d : Dev} {n : Nat} (hmode : d.f (LN_PRBS n) LN_PRBS_INJ_MODE = 1) (hgen : d.on (LN_PRBS n) LN_PRBS_GEN_EN = true) :
    d.injGo n = (d.setF (LN_PRBS n) LN_PRBS_INJ_GO 0).emit .frame n [] := by
  simp only [Dev.injGo, hmode]
  exact if_pos hgen

theorem injGo_periodic {d : Dev} {n : Nat} (hmode : d.f (LN_PRBS n) LN_PRBS_INJ_MODE = 2) :
    d.injGo n = (d.setF (LN_PRBS n) LN_PRBS_INJ_GO 0).setLane n { (d.setF (LN_PRBS n) LN_PRBS_INJ_GO 0).lane n with inj := 1 } := by
  simp only [Dev.injGo, hmode]

/-- Settles O15: each event's rule, on the branch that the link, the scan and the checker select. -/
theorem laneTestRowsComplete : Obligations.LaneTestRowsComplete := by
  intro n s d
  refine ⟨fun k j xs hlink hlane hup hal => next_dev (multiblock_of_failed hlink hlane hup hal), ?_, ?_, ?_,
    fun j hlink hal => next_dev (jesdFault_of_aligned hlink hal), fun hup hscan hen => next_dev (eyeStart_of_no_scan hup hscan hen), ?_, ?_,
    fun i hdown hscan => next_dev ((if_neg hdown).trans (scanPartial_of_scan hscan)), ?_, ?_,
    fun hinj hmode hgen => next_dev (if_pos ⟨hinj, hmode, hgen⟩), rfl⟩
  · intro k j xs hlink hlane hup hsub j1
    exact next_dev (multiblock_of_good hlink hlane hup hsub)
  · intro j hlink hsub
    refine ⟨fun cycles since hbad => next_dev (sysrefEdge_of_ignored hlink hsub hbad), fun cycles since hlong hlate => ?_⟩
    have hgood : ¬ (cycles < 2 ∨ (j.lastEdge.isSome = true ∧ since < j.period)) := by
      rintro (hshort | ⟨hedge, hsoon⟩)
      · omega
      · rcases hlate with hnone | hle
        · simp [hnone] at hedge
        · exact absurd hsoon (Nat.not_lt.mpr hle)
    refine ⟨fun harmed => ?_, fun harmed hal hfault => ?_⟩
    · intro d1
      obtain ⟨hnone, hsome⟩ := sysrefEdge_of_armed hlink hsub hgood harmed
      exact ⟨fun hjob => next_dev (hnone hjob), fun i hjob => next_dev (hsome i hjob)⟩
    · have hedge := sysrefEdge_of_aligned hlink hsub hgood harmed hal hfault
      exact ⟨fun hphase => next_dev (hedge.trans (if_pos hphase)),
        fun hphase hcont => next_dev (hedge.trans (if_neg (not_or.mpr ⟨hphase, Bool.eq_false_iff.mp hcont⟩)))⟩
  · intro j hlink harmed d1
    have hnot : ¬ j.armed.isNone = true := by
      rw [Option.isNone_iff_eq_none]
      exact fun hnone => by simp [hnone] at harmed
    refine ⟨fun hjob => next_dev ?_, fun i hjob => next_dev ?_⟩
    · rw [show s.dev.jlink n = some j from hlink]
      simp only [hjob]
      exact if_neg hnot
    · rw [show s.dev.jlink n = some j from hlink]
      simp only [hjob]
      exact if_neg hnot
  · intro i h v hup hscan hpoint w d1
    exact next_dev (eyeStart_of_scan hup hscan hpoint)
  · intro errs ui hen hup d1 hscan
    exact congrArg Host.Outcome.next (eyeDone_of_no_scan hen hup hscan)
  · intro hen
    refine ⟨fun hopen b e => next_dev ((ite_not_of_true hen _ _).trans (if_pos (congrArg not hopen))), fun hlock b e => ?_⟩
    intro d1
    exact ⟨fun hmany hwithin => next_dev ((ite_not_of_true hen _ _).trans ((ite_not_of_true hlock _ _).trans (if_pos ⟨hmany, hwithin⟩))),
      fun hfew => next_dev ((ite_not_of_true hen _ _).trans ((ite_not_of_true hlock _ _).trans (if_neg (by omega))))⟩
  · exact ⟨fun hmode hgen => next_dev (injGo_once hmode hgen), fun hmode => next_dev (injGo_periodic hmode)⟩

end Sys2Proof.Proofs
end

section
/-!
SUPPORT. The rows of the front, of beams, memories and capture, and of the matrix and the DMA engine.
-/
namespace Sys2Proof.Proofs
set_option Elab.async false
open Sys2Proof.Machine Sys2Proof.Laws

/-! The rows of the front. -/

/-- A group of samples reaches its deadline (R91). -/
theorem sampleDeadline_due {d : Dev} {i g : Nat} {x : FInput} (hin : d.frInput i = some x) (hconf : d.front.conf = true)
    (hdue : d.pastDeadline x (16 * g + 15) = true) (hnext : tget (fun _ => 0) d.front.detAt i ≤ 16 * g) :
    d.sampleDeadline i g = (d.front.groupsDue g i).foldl
      (fun (e : Dev) h =>
        let q := if e.front.groupMissing h i then e.front.markGroup h i 1 else e.front
        (List.range 16).foldl (fun (e : Dev) k => e.detectSample i (16 * h + k)) { e with front := q.markGroup h i 0 }) d := by
  simp only [Dev.sampleDeadline, hin]
  refine ite_of_false ?_ _ _
  rw [hconf, hdue, decide_eq_false (Nat.not_lt.mpr hnext)]
  rfl

/-- An interval of an input is taken whole (R112). -/
theorem intervalOpen {a b : Nat} {o : Option FInput} (hle : a ≤ b) (hin : o.isSome = true) : (decide (b < a) || o.isNone) = false := by
  rw [decide_eq_false (Nat.not_lt.mpr hle), Bool.false_or, ← Bool.not_eq_true, Option.isNone_iff_eq_none]
  exact fun hnone => by simp [hnone] at hin

/-- An event whose hold-off is over is logged (R110, R111). -/
theorem envelopeEvent_of_over {d : Dev} {i a b : Nat} {x : FInput} (hin : d.frInput i = some x)
    (hevt : tget (fun _ => none) d.front.evt i = some (a, b)) (hover : b + 1 + d.front.evtHold ≤ tget (fun _ => 0) d.front.detAt i)
    (hblank : d.on FR_DET FR_DET_BLANK_EN = false) (hroom : d.front.events.length ≤ Config.eventRing)
    (htrig : d.on FR_DET FR_DET_EVT_TRIG = false) :
    d.envelopeEvent i = { d with
      front := { d.front with evt := tset (fun _ => none) d.front.evt i none, events := (i, a, b) :: d.front.events } } := by
  have hfull : decide (d.front.events.length > Config.eventRing) = false := decide_eq_false (Nat.not_lt.mpr hroom)
  simp only [Dev.envelopeEvent, hin, hevt, hblank, Bool.false_eq_true, if_false, hfull]
  exact (if_neg (Nat.not_lt.mpr hover)).trans (ite_of_false htrig _ _)

/-- A knot that every input can read, before the stop (R94). -/
theorem knotOpen {running ready stop : Bool} (hrun : running = true) (hready : ready = true) (hstop : stop = false) :
    (!running || !ready || stop) = false := by
  rw [hrun, hready, hstop]
  rfl

/-- Every knot below the named stop is taken (R120). -/
theorem frontReached_of_stop {d : Dev} {n : Nat} (hrun : d.front.running = true) (hstop : d.front.stopAt = some n)
    (hle : n ≤ d.front.knotAt) :
    let e := ({ d with front := { d.front with running := false, stopAt := none } } : Dev).setF FR_CTRL FR_CTRL_EN 0
    d.frontReached = if e.capFront then e.capStop else e := by
  simp only [Dev.frontReached, hstop]
  exact (if_pos hrun).trans (if_neg (Nat.not_lt.mpr hle))

/-- The named start is reached (R120). -/
theorem frontReached_of_start {d : Dev} {n : Nat} (hstill : d.front.running = false) (hstart : d.front.startAt = some n)
    (hle : n ≤ d.outNow) :
    let m := ceilDiv (n + d.frP * d.frTaps / 2) (max d.frHop 1)
    d.frontReached = ({ d with
      front := { d.front with running := true, startAt := none, knotAt := n, spn := m, released := m, y := [], held := [] } } : Dev).setF
        FR_CTRL FR_CTRL_EN 1 := by
  simp only [Dev.frontReached, hstart]
  exact (ite_of_false hstill _ _).trans (if_neg (Nat.not_lt.mpr hle))

/-- Settles O16: each event's rule, on the branch that its conditions select. -/
theorem frontRowsComplete : Obligations.FrontRowsComplete := by
  intro s d f
  refine ⟨fun i g x hin hconf hdue hnext => next_dev (sampleDeadline_due hin hconf hdue hnext),
    fun i ch n hwhole hin => next_dev (ite_of_false (intervalOpen hwhole hin) _ _),
    fun i ch n hwhole hin => next_dev (ite_of_false (intervalOpen hwhole hin) _ _),
    fun i x a b hin hevt hover hblank hroom htrig => next_dev (envelopeEvent_of_over hin hevt hover hblank hroom htrig),
    fun hrun hready hstop => next_dev (ite_of_false (knotOpen hrun hready hstop) _ _), ?_, ?_, ?_,
    fun n hstill hstart hle => next_dev (frontReached_of_start hstill hstart hle)⟩
  · intro hrun hle d1 d2 lo d3
    have hopen : (!f.running || decide (f.knotAt < f.spn * d.frHop + d.frP * d.frTaps / 2)) = false := by
      rw [hrun, decide_eq_false (Nat.not_lt.mpr hle)]
      rfl
    exact ⟨fun hsk => congrArg Host.Outcome.next ((ite_of_false hopen _ _).trans (if_pos hsk)),
      fun hsk => congrArg Host.Outcome.next ((ite_of_false hopen _ _).trans (ite_of_false hsk _ _))⟩
  · intro hrun hsk hmk b hle d1
    have hopen : ¬ ((!f.running || !d.on FR_CTRL FR_CTRL_SK_EN || decide (f.mK = 0) || decide (f.spn < (b + 1) * f.mK)) = true) := by
      rw [hrun, hsk, decide_eq_false hmk, decide_eq_false (Nat.not_lt.mpr hle)]
      decide
    exact congrArg Host.Outcome.next (if_neg hopen)
  · intro n hrun hstop hle e
    exact ⟨fun hcap => next_dev ((frontReached_of_stop hrun hstop hle).trans (if_pos hcap)),
      fun hcap => next_dev ((frontReached_of_stop hrun hstop hle).trans (ite_of_false hcap _ _))⟩

/-! The rows of beams, memories and capture. -/

/-- A swap asked for outside a run, at a whole course and with no old table in use (R190). -/
theorem swapRequest_of_idle {d : Dev} (hwhole : d.rdN BM_WSPN % 256 = 0) (hidle : d.run.active = false)
    (hold : d.on BM_WCTRL BM_WCTRL_OLD_BUSY = false) :
    let sw := d.rdN BM_WSPN
    let d1 := ((({ d with beam := { d.beam with swapAt := some sw } } : Dev).setF BM_WCTRL BM_WCTRL_PEND 1).setF BM_WCTRL
      BM_WCTRL_SWAP 1).swapResult 1
    d.swapRequest = if d.on BM_WCTRL BM_WCTRL_READY then d1.swapDone sw else d1 := by
  have hmissed (b : Bool) : (d.run.active && b) = false := by rw [hidle]; rfl
  have hready : (!d.run.active && d.on BM_WCTRL BM_WCTRL_READY) = d.on BM_WCTRL BM_WCTRL_READY := by rw [hidle]; rfl
  simp only [Dev.swapRequest, hready]
  exact (if_neg (not_not_intro hwhole)).trans ((ite_of_false (hmissed _) _ _).trans (ite_of_false hold _ _))

/-- The channel-course at the head of the beam queue is processed (R185). -/
theorem beamStep_of_head {s : State} {x : BCourse} {rest : List BCourse} (hq : s.dev.beam.queue = x :: rest)
    (hopen : (!x.cut && s.dev.run.inSlot == some x.q && x.batch + 1 == s.dev.run.closed) = false) :
    let d1 := ({ s.dev with beam := { s.dev.beam with queue := rest } } : Dev).swapDecide (s.dev.courseSpn x)
    beamStep s = { s with dev := (if x.cut then d1.beamCut x else d1.beamCourse s.mem x).oldDone x } := by
  simp only [beamStep, hq]
  exact ite_of_false hopen _ _

/-- An overdue capture request is dropped from its segment (R229). -/
theorem execCapDrop_of_open {s : State} {seg off len : Nat} {x : CapSeg} (hwr : s.dev.capWriting = true)
    (hseg : tget (fun _ => none) s.dev.cap.segs seg = some x) (hopen : x.complete = false) :
    let x1 := { x with flags := x.flags ||| 16, drops := (off, len) :: x.drops }
    let d1 : Dev := { s.dev with cap := { s.dev.cap with segs := tset (fun _ => none) s.dev.cap.segs seg (some x1) } }
    execCapDrop seg off len s = .next { s with dev := d1.cnt CAP_DROP 1 } := by
  simp only [execCapDrop, hwr, hseg]
  exact ite_of_false hopen _ _

/-- The queue of a unit once dt nanoseconds have passed and requests have come in (R211). -/
def slotQueue (x : MUnit) (dt : Nat) (arr : List (Nat × Nat × Nat × Bool)) : List MReq :=
  x.queue.map (fun q => { q with age := q.age + dt }) ++
    (arr.filter fun a => 1 ≤ a.1 && a.1 ≤ 9).map fun (p, b, r, w) => { port := p, bank := b, row := r, write := w, age := 0 }

/-- The requests of a unit that may be served (R207, R215). -/
def slotCands (u : Nat) (q : List MReq) : List MReq := freeReqs [] (if u < 128 then slotted 24 16 q else slotted 128 80 q)

section CommandSlot
variable {d : Dev} {u dt : Nat} {arr : List (Nat × Nat × Nat × Bool)} (hu : u < 136)
  (hin : (chanUnits (unitChan u)).contains u = true) (hup : d.f (MC_CHSTAT (unitChan u)) MC_CHSTAT_STATE = 1)
include hu hin hup

/-- A command slot of a running unit with nothing to serve only ages its queue. -/
theorem commandSlot_none (hnone : d.bestReq (slotCands u (slotQueue (d.munit u) dt arr)) = none) :
    d.commandSlot u dt arr = (d.setMunit u { d.munit u with queue := slotQueue (d.munit u) dt arr }).syncUrg := by
  have hlive : (!((chanUnits (unitChan u)).contains u && d.f (MC_CHSTAT (unitChan u)) MC_CHSTAT_STATE == 1)) = false := by
    rw [hin, hup]
    rfl
  unfold slotCands slotQueue at hnone
  simp only [Dev.commandSlot, hnone]
  exact (if_neg (Nat.not_le.mpr hu)).trans (ite_of_false hlive _ _)

/-- A command slot of a running unit issues its best request once that is urgent. -/
theorem commandSlot_some {b : MReq} (hb : d.bestReq (slotCands u (slotQueue (d.munit u) dt arr)) = some b) (hurg : d.urgency b ≠ 0) :
    let d2 := (d.setMunit u { d.munit u with queue := (slotQueue (d.munit u) dt arr).erase b }).issue u b
    d.commandSlot u dt arr =
      (if b.age ≥ d.target b.port then d2.cntF (MC_QOS (b.port - 1)) MC_QOS_LAT_MISS 1 else d2).syncUrg := by
  have hlive : (!((chanUnits (unitChan u)).contains u && d.f (MC_CHSTAT (unitChan u)) MC_CHSTAT_STATE == 1)) = false := by
    rw [hin, hup]
    rfl
  unfold slotCands slotQueue at hb
  simp only [Dev.commandSlot, hb, hurg, false_and, if_false]
  exact (if_neg (Nat.not_le.mpr hu)).trans (ite_of_false hlive _ _)

end CommandSlot

/-- Settles O18: each event's rule, on the branch that its conditions select. -/
theorem storeRowsComplete : Obligations.StoreRowsComplete := by
  intro s d
  refine ⟨fun who ho => next_dev (if_pos ho), fun who ho => next_dev (ite_of_false ho _ _),
    fun who ho hpart => next_dev ((if_pos ho).trans (if_pos hpart)), ?_, ?_, ?_, ?_, ?_,
    fun seg off len x hwr hseg hopen => execCapDrop_of_open hwr hseg hopen, ?_, ?_, ?_, ?_, ?_⟩
  · intro who ho hwhole hidle hold sw d1
    exact ⟨fun hr => next_dev ((if_pos ho).trans ((swapRequest_of_idle hwhole hidle hold).trans (if_pos hr))),
      fun hr => next_dev ((if_pos ho).trans ((swapRequest_of_idle hwhole hidle hold).trans (ite_of_false hr _ _)))⟩
  · intro x rest hq hcut hslot d1
    have hopen : (!x.cut && s.dev.run.inSlot == some x.q && x.batch + 1 == s.dev.run.closed) = false := by
      rw [show s.dev.run.inSlot = none from hslot, hcut]
      rfl
    have hstep := beamStep_of_head hq hopen
    exact (congrArg Host.Outcome.next hstep).trans (next_dev (congrArg (Dev.oldDone · x) (ite_of_false hcut _ _)))
  · intro x rest hq hcut d1
    have hopen : (!x.cut && s.dev.run.inSlot == some x.q && x.batch + 1 == s.dev.run.closed) = false := by
      rw [hcut]
      rfl
    have hstep := beamStep_of_head hq hopen
    exact (congrArg Host.Outcome.next hstep).trans (next_dev (congrArg (Dev.oldDone · x) (if_pos hcut)))
  · intro pin rising hold hpin hen hsrc ignored
    have hon : ¬ (pin ≥ 4 ∨ (!bit (d.f CAP_CTRL CAP_CTRL_PIN_EN) pin) = true ∨ (!bit (d.f CAP_CTRL CAP_CTRL_SRC_EN) 0) = true) :=
      not_or.mpr ⟨Nat.not_le.mpr hpin, not_or.mpr ⟨by simp [hen], by simp [hsrc]⟩⟩
    exact ⟨fun hi => next_dev ((if_neg hon).trans (if_pos hi)), fun hi => next_dev ((if_neg hon).trans (ite_of_false hi _ _))⟩
  · intro pin hpin hen hto hfirst d1
    have hon : ¬ (pin ≥ 4 ∨ (!bit (d.f CAP_CTRL CAP_CTRL_PIN_EN) pin) = true ∨ d.f CAP_TRIG CAP_TRIG_PIN_TIMEOUT = 0 ∨
        (d.trigPin pin).2 = true) :=
      not_or.mpr ⟨Nat.not_le.mpr hpin, not_or.mpr ⟨by simp [hen], not_or.mpr ⟨hto, by simp [hfirst]⟩⟩⟩
    exact if_neg hon
  · intro u dt arr hu hin hup x q0 cand
    refine ⟨fun hnone => next_dev (commandSlot_none hu hin hup hnone), ?_⟩
    intro b hb hurg d2
    refine ⟨fun hmet => ?_, fun hmiss => ?_⟩
    · exact next_dev ((commandSlot_some hu hin hup hb hurg).trans (congrArg Dev.syncUrg (if_neg (Nat.not_le.mpr hmet))))
    · exact next_dev ((commandSlot_some hu hin hup hb hurg).trans (congrArg Dev.syncUrg (if_pos hmiss)))
  · intro u rows hu x
    refine ⟨fun lim hfree => congrArg (nextDev s) ((if_neg (Nat.not_le.mpr hu)).trans (ite_of_false ?_ _ _)),
      fun hurg => congrArg (nextDev s) ((if_neg (Nat.not_le.mpr hu)).trans (if_pos ?_))⟩
    · obtain hcalm | hlim := hfree
      · rw [show s.dev.urgent u false = false from hcalm]; rfl
      · rw [hlim]; exact Bool.and_false _
    · rw [show s.dev.urgent u false = true from hurg]; rfl
  · intro c hc hup
    have hopen : ¬ (c ≥ 72 ∨ d.f (MC_CHSTAT c) MC_CHSTAT_STATE ≠ 1) := not_or.mpr ⟨Nat.not_le.mpr hc, not_not_intro hup⟩
    exact ⟨fun hcalm => congrArg (nextDev s) ((if_neg hopen).trans (ite_of_false hcalm _ _)),
      fun hurg => congrArg (nextDev s) ((if_neg hopen).trans (if_pos hurg))⟩
  · intro c t hc hdue
    refine congrArg (nextDev s) (if_neg (not_or.mpr ⟨Nat.not_le.mpr hc, ?_⟩))
    rw [show (s.dev.mchan c).dueAt = some t from hdue]
    exact Bool.false_ne_true
  · intro c hc hup x d1 d2
    have hopen : ¬ (c ≥ 72 ∨ d.f (MC_CHSTAT c) MC_CHSTAT_STATE = 3) := not_or.mpr ⟨Nat.not_le.mpr hc, hup⟩
    refine ⟨next_dev ((if_neg hopen).trans (if_pos rfl)), ?_⟩
    intro n d3
    exact ⟨fun hthird => next_dev ((if_neg hopen).trans ((if_neg (by simp)).trans (if_pos hthird))),
      fun hbelow => next_dev ((if_neg hopen).trans ((if_neg (by simp)).trans (if_neg (Nat.not_le.mpr hbelow))))⟩

/-! The rows of the matrix and of the DMA engine. -/

/-- A burst that the matrix carries: of at most 8 beats, within 4 KiB (R340). -/
theorem burst_fits {a n : Nat} (hlen : n ≤ 512) (hpage : n = 0 ∨ a / 4096 = (a + n - 1) / 4096) :
    ¬ (n > 512 ∨ (n ≠ 0 ∧ a / 4096 ≠ (a + n - 1) / 4096)) := by
  rintro (hlong | ⟨hne, hcross⟩)
  · exact Nat.not_lt.mpr hlen hlong
  · exact hpage.elim hne hcross

/-- AGE held to its range (R340). -/
theorem clampN_age (x : Nat) : clampN 16 4096 x = min 4096 (max 16 x) := by
  unfold clampN
  split
  · omega
  · split <;> omega

section Arbitration
variable {d : Dev} {t m o w ow age : Nat} (hage : clampN 16 4096 (d.f XB_CTRL XB_CTRL_AGE) = age)
include hage

/-- Of an aged request and one that has waited less, the aged one goes first (R340). -/
theorem goesBefore_of_aged (haged : age ≤ w) (hless : ow < w) :
    d.goesBefore t m w o ow = true ∧ d.goesBefore t o ow m w = false := by
  by_cases hother : age ≤ ow
  · simp [Dev.goesBefore, hage, haged, hother, hless, Nat.ne_of_gt hless, Nat.ne_of_lt hless, Nat.le_of_lt hless]
  · simp [Dev.goesBefore, hage, haged, hother]

/-- Of two requests not aged, the one of higher PRIO goes first (R340). -/
theorem goesBefore_of_prio (hyoung : w < age) (hother : ow < age)
    (hprio : bits (d.rdN (XB_PRIO o)) (4 * t + 3) (4 * t) < bits (d.rdN (XB_PRIO m)) (4 * t + 3) (4 * t)) :
    d.goesBefore t m w o ow = true ∧ d.goesBefore t o ow m w = false := by
  simp [Dev.goesBefore, hage, Nat.not_le.mpr hyoung, Nat.not_le.mpr hother, hyoung, hother, hprio, Nat.ne_of_lt hprio,
    Nat.ne_of_gt hprio, Nat.le_of_lt hprio]

/-- Of two requests not aged and of one PRIO, the master that was granted last goes last (R340). -/
theorem goesBefore_of_turn (hm : m < 12) (ho : o < 12) (hne : m ≠ o) (hlast : tget (fun _ => none) d.xbLast t = some o)
    (hyoung : w < age) (hother : ow < age)
    (hprio : bits (d.rdN (XB_PRIO o)) (4 * t + 3) (4 * t) = bits (d.rdN (XB_PRIO m)) (4 * t + 3) (4 * t)) :
    d.goesBefore t m w o ow = true := by
  have hturn : (m + 11 - o) % 12 < 11 := by omega
  simp [Dev.goesBefore, hage, Nat.not_le.mpr hyoung, Nat.not_le.mpr hother, hprio, hlast, hturn]

end Arbitration

/-- A write of DC_CTRL by firmware or by the owner of the channel is obeyed (R347). -/
theorem dmaByOwner_of_open {n who : Nat} {s : State} (f : State → State) (hn : n < 16)
    (hwho : who = 0 ∨ (who = 1 ∨ who = 2) ∧ s.dev.f (DC_CTRL n) DC_CTRL_OWNER = who) : dmaByOwner n who f s = f s :=
  (if_neg (Nat.not_le.mpr hn)).trans (if_pos hwho)

/-- RESUME at the end of a list whose tail has been linked on goes on at the new link (R354). -/
theorem dmaResume_of_linked {n w : Nat} {s : State} (hend : (s.dev.ch n).endCheck = false) (hat : s.dev.chState n = DMA_AT_END)
    (hw : (reread n s).1 = some w) (hlink : bit w 48 = false) :
    let t := (reread n s).2
    dmaResume n s = { t with dev := ((t.dev.setCh n {}).wrN (DC_CUR n) (w % 2 ^ 48)).setF (DC_STAT n) DC_STAT_STATE DMA_RUNNING } := by
  simp only [dmaResume, hw]
  exact (ite_of_false hend _ _).trans ((if_pos hat).trans (ite_of_false hlink _ _))

/-- A descriptor whose reserved bits, link and lists are as Table 11.5 wants them is taken up (R348). -/
theorem dmaFetch_open {n : Nat} {s : State} (hrun : s.dev.chState n = DMA_RUNNING) (hcopy : (s.dev.ch n).copying = false)
    (hend : (s.dev.ch n).endCheck = false) :
    ¬ (s.dev.chState n ≠ DMA_RUNNING ∨ (s.dev.ch n).copying = true ∨ (s.dev.ch n).endCheck = true) :=
  not_or.mpr ⟨not_not_intro hrun, not_or.mpr ⟨by simp [hcopy], by simp [hend]⟩⟩

/-- The end of a completed tail is checked again (R353). -/
theorem dmaEndCheck_of_read {n w : Nat} {s : State} (hend : (s.dev.ch n).endCheck = true) (hheld : (s.dev.ch n).heldResume = false)
    (hw : (reread n s).1 = some w) :
    let t := (reread n s).2
    let e := t.dev.setCh n {}
    dmaEndCheck n s = if bit w 48 then { t with dev := e.setF (DC_STAT n) DC_STAT_STATE DMA_AT_END }
      else { t with dev := (e.wrN (DC_CUR n) (w % 2 ^ 48)).cntF (DC_RES n) HI32 1 } := by
  simp only [dmaEndCheck, hw]
  exact (ite_not_of_true hend _ _).trans (ite_of_false hheld _ _)

/-- Settles O19: each event's rule, on the branch that its conditions select. -/
theorem matrixRowsComplete : Obligations.MatrixRowsComplete := by
  intro s d
  refine ⟨?_, ?_, ?_, ?_, fun t m w => rfl, ?_, fun who a n v => rfl, fun a => rfl,
    fun who hopen => congrArg (nextDev s) (if_pos hopen), ?_, ?_, ?_, ?_, ?_, ?_⟩
  · intro m w others a n bytes lanes ecc hm hlen hpage hgrant s0
    exact congrArg Host.Outcome.next ((if_neg (Nat.not_le.mpr hm)).trans ((if_neg (burst_fits hlen hpage)).trans
      ((ite_not_of_true hgrant _ _).trans (if_neg Bool.false_ne_true))))
  · intro m w others a len bytes lanes ecc hm hlen hpage hgrant s0
    exact congrArg Host.Outcome.next ((if_neg (Nat.not_le.mpr hm)).trans ((if_neg (burst_fits hlen hpage)).trans
      ((ite_not_of_true hgrant _ _).trans (if_pos rfl))))
  · intro m w others a n bytes lanes ecc hm hwide
    exact congrArg Host.Outcome.next ((if_neg (Nat.not_le.mpr hm)).trans (if_pos hwide))
  · intro m w others a n bytes lanes ecc hm hlen hpage hwait
    exact congrArg Host.Outcome.next ((if_neg (Nat.not_le.mpr hm)).trans ((if_neg (burst_fits hlen hpage)).trans
      (if_pos (congrArg not hwait))))
  · intro t m w o ow hm ho hne age prio
    have hage : clampN 16 4096 (d.f XB_CTRL XB_CTRL_AGE) = age := clampN_age _
    exact ⟨goesBefore_of_aged hage, goesBefore_of_prio hage, goesBefore_of_turn hage hm ho hne⟩
  · intro who hwho hqdp
    refine congrArg (nextDev s) (if_neg (not_or.mpr ⟨hwho, ?_⟩))
    rintro ⟨hq, hlevel, hhalt⟩
    exact (hqdp hq).elim (fun hn => hn hlevel) (fun hn => hn hhalt)
  · intro n who hn hwho
    refine ⟨fun hst => ?_, fun hst => ?_, fun hec => ?_, fun hec hst => ?_, ?_, fun hst hcp moved => ?_, ?_⟩
    · exact (congrArg Host.Outcome.next (dmaByOwner_of_open _ hn hwho)).trans (next_dev (if_neg hst))
    · exact (congrArg Host.Outcome.next (dmaByOwner_of_open _ hn hwho)).trans (next_dev (if_pos hst))
    · exact congrArg Host.Outcome.next ((dmaByOwner_of_open _ hn hwho).trans (if_pos hec))
    · exact congrArg Host.Outcome.next ((dmaByOwner_of_open _ hn hwho).trans ((ite_of_false hec _ _).trans (if_neg hst)))
    · intro hec hst w hw hlink t
      exact congrArg Host.Outcome.next ((dmaByOwner_of_open _ hn hwho).trans (dmaResume_of_linked hec hst hw hlink))
    · exact congrArg Host.Outcome.next ((dmaByOwner_of_open _ hn hwho).trans
        ((if_neg (not_not_intro hst)).trans (ite_of_false hcp _ _)))
    · intro hst hcp moved t
      exact congrArg Host.Outcome.next ((dmaByOwner_of_open _ hn hwho).trans ((if_neg (not_not_intro hst)).trans (if_pos hcp)))
  · intro n who hn h0 h1 h2
    refine congrArg Host.Outcome.next ((if_neg (Nat.not_le.mpr hn)).trans (if_neg (not_or.mpr ⟨h0, ?_⟩)))
    exact fun ⟨hcore, _⟩ => hcore.elim h1 h2
  · intro n hn hrun hcopy hend r s1
    have hopen := dmaFetch_open hrun hcopy hend
    refine ⟨fun hbad => congrArg Host.Outcome.next ((if_pos hn).trans ((if_neg hopen).trans (if_pos hbad))), ?_⟩
    intro hok hclean b c y h6 h14 hres hhigh hlow hlink hsrc hdst
    have hanswered : ¬ (r.1.kind ≠ .ok ∨ r.1.poison = true) := not_or.mpr ⟨not_not_intro hok, by simp [hclean]⟩
    have hgood : (at' b 6 2 != 0 || at' b 14 2 != 0 || bits c 7 3 != 0 || bits c 31 16 != 0 || at' b 30 2 / 2 != 0 ||
        (!y.fin && y.nxt % 32 != 0) || (y.srcSg && (s.dev.route y.src).1 == .blocks) ||
        (y.dstSg && (s.dev.route y.dst).1 == .blocks)) = false := by
      rw [h6, h14, hres, hhigh, hlow, hsrc, hdst]
      obtain hfin | hnext := hlink
      · rw [hfin]; rfl
      · rw [hnext]; cases y.fin <;> rfl
    exact congrArg Host.Outcome.next ((if_pos hn).trans ((if_neg hopen).trans ((if_neg hanswered).trans (ite_of_false hgood _ _))))
  · intro n hn hrun hcopy x c
    have hopen : ¬ (d.chState n ≠ DMA_RUNNING ∨ (!(d.ch n).copying) = true) :=
      not_or.mpr ⟨not_not_intro hrun, by simp [hcopy]⟩
    refine ⟨fun herr => congrArg Host.Outcome.next ((if_pos hn).trans ((if_neg hopen).trans (if_pos herr))), ?_⟩
    intro herr hback t e
    have hcomplete : exec (.descriptorComplete n) s = _ := congrArg Host.Outcome.next ((if_pos hn).trans ((if_neg hopen).trans
      ((if_neg (not_not_intro herr)).trans (ite_not_of_true hback _ _))))
    refine ⟨fun hfin => hcomplete.trans (next_dev ?_), fun hfin hirq => hcomplete.trans (next_dev ?_),
      fun hfin hirq => hcomplete.trans (next_dev ?_)⟩
    · exact (if_pos (by rw [hfin]; exact Bool.or_true _)).trans (congrArg (Dev.dmaEoc · n) (if_pos hfin))
    · exact (if_pos (by rw [hirq]; rfl)).trans (congrArg (Dev.dmaEoc · n) (ite_of_false hfin _ _))
    · exact (ite_of_false (by rw [hirq, hfin]; rfl) _ _).trans (ite_of_false hfin _ _)
  · intro n w hn hend hheld hw t e
    exact ⟨fun hlast => congrArg Host.Outcome.next ((if_pos hn).trans ((dmaEndCheck_of_read hend hheld hw).trans (if_pos hlast))),
      fun hlink => congrArg Host.Outcome.next ((if_pos hn).trans
        ((dmaEndCheck_of_read hend hheld hw).trans (ite_of_false hlink _ _)))⟩

end Sys2Proof.Proofs
end

section
/-!
SUPPORT. The rows of data integrity and of the Rhaex cores.
-/
namespace Sys2Proof.Proofs
set_option Elab.async false
open Sys2Proof.Machine Sys2Proof.Laws

/-! The rows of data integrity. -/

/-- A pass of a class goes on where its scrubbing is on and the class holds something (R390). -/
theorem patrolScrub_of_on {k err : Nat} {s : State} (hk : k ≤ 6) (hon : s.dev.on (EC_CTRL k) EC_CTRL_SCRUB_EN = true)
    (hsize : (s.dev.classSize k).1 ≠ 0) :
    let off := bits (s.dev.rdN (EC_POS k)) 47 0
    let n := bits (s.dev.rdN (EC_POS k)) 63 48
    let s1 := scrubOne k (classAddr k off) err s
    patrolScrub k err s =
      if off + (s.dev.classSize k).2 < (s.dev.classSize k).1 then
        { s1 with dev := s1.dev.wrN (EC_POS k) (off + (s.dev.classSize k).2 + n * 2 ^ 48) }
      else { s1 with
        dev := { s1.dev.wrN (EC_POS k) ((n + 1) % 2 ^ 16 * 2 ^ 48) with
          scrub := { s1.dev.scrub with start := tset (fun _ => 0) s1.dev.scrub.start k s1.dev.now,
                                       late := if bit s1.dev.scrub.late k then s1.dev.scrub.late - 2 ^ k else s1.dev.scrub.late } } } := by
  have hopen : (decide (k > 6) || !s.dev.on (EC_CTRL k) EC_CTRL_SCRUB_EN || decide ((s.dev.classSize k).1 = 0)) = false := by
    rw [hon, decide_eq_false (Nat.not_lt.mpr hk), decide_eq_false hsize]
    rfl
  exact ite_of_false hopen _ _

/-- Whether a HARD address has no spare row left for it (R388). -/
def noSpare (d : Dev) (k e : Nat) (spare : Bool) : Bool :=
  let used := d.ret.spare.repairs.countP fun r => r.1 == k && spareUnit k r.2 == spareUnit k (d.ecEntry k e).addr
  (decide (k ≥ 5) && !spare) || (decide (k < 5) && decide (used ≥ spareRows k))

theorem noSpare_of_none {d : Dev} {k e : Nat} {spare : Bool}
    (h : if k < 5 then spareRows k ≤ d.ret.spare.repairs.countP fun r => r.1 == k && spareUnit k r.2 == spareUnit k (d.ecEntry k e).addr
      else spare = false) : noSpare d k e spare = true := by
  unfold noSpare
  by_cases hk : k < 5
  · rw [if_pos hk] at h
    simp [hk, h]
  · rw [if_neg hk] at h
    simp [h, Nat.not_lt.mp hk]

theorem noSpare_of_some {d : Dev} {k e : Nat} {spare : Bool}
    (h : if k < 5 then (d.ret.spare.repairs.countP fun r => r.1 == k && spareUnit k r.2 == spareUnit k (d.ecEntry k e).addr) < spareRows k
      else spare = true) : noSpare d k e spare = false := by
  unfold noSpare
  by_cases hk : k < 5
  · rw [if_pos hk] at h
    simp [hk, Nat.not_le.mpr hk, h]
  · rw [if_neg hk] at h
    simp [h, hk]

/-- The oldest error is taken and logged unless one has been taken (R396). -/
theorem errorHandling_of_waiting {s : State} {e : ErrEntry} {rest : List ErrEntry} (hq : s.dev.errq = e :: rest)
    (hfree : s.dev.scrub.taken = false) :
    let log := s.dev.ret.errLog ++ [e]
    execErrorHandling s = .next { s with
      dev := { s.dev with ret := { s.dev.ret with errLog := log.drop (log.length - 512) },
                          scrub := { s.dev.scrub with taken := true } } } := by
  simp only [execErrorHandling, hq]
  exact congrArg (nextDev s) (ite_of_false hfree _ _)

/-- A writer that may write a check-value unit is obeyed (R398). -/
theorem cvWrite_of_open {d : Dev} {u who : Nat} (a : Nat) (f : Dev → Dev) (hu : u < 8) (ho : d.cvOpen u who = true) :
    d.cvWrite u who a f = f d := (if_neg (Nat.not_le.mpr hu)).trans (if_pos ho)

/-- A received byte is fed and its step from the last one judged (R399). -/
theorem cvAlive_verify {d : Dev} {u r : Nat} (hmode : d.f (CV_CFG u) CV_CFG_ALIVE = 2) :
    let e := (d.cvFeed u (.b (r % 256))).setF (CV_ALIVE u) CV_ALIVE_LAST (r % 256)
    let df := serialDiff (r % 256) (d.f (CV_ALIVE u) CV_ALIVE_COUNT) 8
    d.cvAlive u r =
      if (e.cv u).first then (e.setCv u { e.cv u with first := false }).setF (CV_ALIVE u) CV_ALIVE_COUNT (r % 256)
      else if df > 0 then
        let e1 := e.setF (CV_ALIVE u) CV_ALIVE_COUNT (r % 256)
        if df > 1 then (e1.setF (CV_CFG u) CV_CFG_GAP 1).cntF (CV_CNT u) HI32 (df - 1).toNat else e1
      else (e.setF (CV_CFG u) CV_CFG_REPEAT 1).cntF (CV_CNT u) LO32 1 := by
  simp only [Dev.cvAlive, hmode]

/-- COUNT is fed and moves on (R399). -/
theorem cvAlive_count {d : Dev} {u : Nat} (r : Nat) (hmode : d.f (CV_CFG u) CV_CFG_ALIVE = 1) :
    d.cvAlive u r = (d.cvFeed u (.b (d.f (CV_ALIVE u) CV_ALIVE_COUNT))).setF (CV_ALIVE u) CV_ALIVE_COUNT
      ((d.f (CV_ALIVE u) CV_ALIVE_COUNT + 1) % 256) := by
  simp only [Dev.cvAlive, hmode]

/-- The oldest feed of a unit is absorbed (R398). -/
theorem cvAbsorb_of_queue {d : Dev} {u : Nat} {q : Feed} {rest : List Feed} (hq : (d.cv u).queue = q :: rest) :
    let w := d.cvWidth u
    d.cvAbsorb u = d.setCv u { d.cv u with
      reg := q.bytes.foldl (crcByte w (d.rdN (CV_POLY u) % 2 ^ w) (d.on (CV_CFG u) CV_CFG_REFIN)) ((d.cv u).reg % 2 ^ w),
      queue := rest } := by
  simp only [Dev.cvAbsorb, hq]

/-- Settles O20: each event's rule, on the branch that its conditions select. -/
theorem integrityRowsComplete : Obligations.IntegrityRowsComplete := by
  intro s d
  refine ⟨?_, ?_, ?_, ?_, fun e rest hq hfree => errorHandling_of_waiting hq hfree, rfl, rfl, rfl, ?_, ?_,
    fun u q rest hq => congrArg (nextDev s) (cvAbsorb_of_queue hq), fun u => rfl⟩
  · intro k err hk hon hsize off n s1
    exact ⟨fun hmore => congrArg Host.Outcome.next ((patrolScrub_of_on hk hon hsize).trans (if_pos hmore)),
      fun hlast => congrArg Host.Outcome.next ((patrolScrub_of_on hk hon hsize).trans (if_neg (Nat.not_lt.mpr hlast)))⟩
  · intro k e err hk hlive he hon hlogged s1
    have hdead : (decide (k ≥ 5) && d.dead (d.ecEntry k e).addr) = false :=
      Bool.and_eq_false_iff.mpr (hlive.imp (fun h => decide_eq_false (Nat.not_le.mpr h)) id)
    have hopen : (decide (k > 6) || decide (e ≥ 32) || !d.on (EC_CTRL k) EC_CTRL_TARGETED || (d.ecEntry k e).state != EC_LOGGED ||
        (decide (k ≥ 5) && d.dead (d.ecEntry k e).addr)) = false := by
      rw [hon, hlogged, hdead, decide_eq_false (Nat.not_lt.mpr hk), decide_eq_false (Nat.not_le.mpr he)]
      rfl
    exact ite_of_false hopen _ _
  · intro k hk hon hlate hdue
    have hopen : (decide (k > 6) || !d.on (EC_CTRL k) EC_CTRL_SCRUB_EN || bit d.scrub.late k ||
        decide (d.now < tget (fun _ => 0) d.scrub.start k + 2 * clampN 1 604800 (d.f (EC_CTRL k) EC_CTRL_PERIOD_S) * 10 ^ 9)) = false := by
      rw [hon, hlate, decide_eq_false (Nat.not_lt.mpr hk), decide_eq_false (Nat.not_lt.mpr hdue)]
      rfl
    exact congrArg (nextDev s) (ite_of_false hopen _ _)
  · intro k e b hk he hhard x used
    have hopen : ¬ (k > 6 ∨ e ≥ 32 ∨ (d.ecEntry k e).state ≠ EC_HARD) :=
      not_or.mpr ⟨Nat.not_lt.mpr hk, not_or.mpr ⟨Nat.not_le.mpr he, not_not_intro hhard⟩⟩
    refine ⟨fun hnone => congrArg (nextDev s) ((if_neg hopen).trans (if_pos (noSpare_of_none hnone))), ?_⟩
    intro hsome left d1 d2 d3
    exact congrArg (nextDev s) ((if_neg hopen).trans (ite_of_false (noSpare_of_some hsome) _ _))
  · intro u who hu ho
    refine ⟨congrArg (nextDev s) (cvWrite_of_open _ _ hu ho), ?_, ?_, ?_⟩
    · intro v e
      exact ⟨congrArg (nextDev s) (cvWrite_of_open _ _ hu ho), congrArg (nextDev s) (cvWrite_of_open _ _ hu ho),
        congrArg (nextDev s) (cvWrite_of_open _ _ hu ho)⟩
    · intro r hmode e df
      have hgo : exec (.cvAliveGo u who r) s = _ :=
        congrArg (nextDev s) ((cvWrite_of_open _ _ hu ho).trans (cvAlive_verify (r := r) hmode))
      exact ⟨fun hfirst => hgo.trans (next_dev (if_pos hfirst)),
        fun hfirst hone => hgo.trans (next_dev ((ite_of_false hfirst _ _).trans
          ((if_pos (by omega)).trans (if_neg (by omega))))),
        fun hfirst hgap => hgo.trans (next_dev ((ite_of_false hfirst _ _).trans
          ((if_pos (Int.lt_trans Int.one_pos hgap)).trans (if_pos hgap)))),
        fun hfirst hback => hgo.trans (next_dev ((ite_of_false hfirst _ _).trans (if_neg (Int.not_lt.mpr hback))))⟩
    · intro r hmode n
      exact congrArg (nextDev s) ((cvWrite_of_open _ _ hu ho).trans (cvAlive_count r hmode))
  · intro u who v hu hclosed
    exact congrArg (nextDev s) ((if_neg (Nat.not_le.mpr hu)).trans (ite_of_false hclosed _ _))

/-! Writes of the core registers by firmware. -/

/-- The base and the width of the row that covers an address. -/
def rowForm (a : Nat) : Option (Nat × Nat) := (regRow a).map fun r => (r.base, r.width)

theorem rowForm_ctrl {c : Nat} (hc : c < 4) : rowForm (CR_CTRL c) = some (CR_CTRL 0, 32) := by
  have hall : ∀ k : Fin 4, rowForm (CR_CTRL k) = some (CR_CTRL 0, 32) := by decide
  exact hall ⟨c, hc⟩

theorem rowForm_wdog {c : Nat} (hc : c < 4) : rowForm (CR_WDOG c) = some (CR_WDOG 0, 32) := by
  have hall : ∀ k : Fin 4, rowForm (CR_WDOG k) = some (CR_WDOG 0, 32) := by decide
  exact hall ⟨c, hc⟩

theorem rowForm_swLine {c l : Nat} (hc : c < 4) (hlo : 40 ≤ l) (hhi : l < 48) : rowForm (CR_INT c l) = some (CR_INT 0 0, 32) := by
  have hall : ∀ k : Fin 4, ∀ i : Fin 8, rowForm (CR_INT k (40 + i)) = some (CR_INT 0 0, 32) := by decide
  have hl : 40 + (l - 40) = l := Nat.add_sub_cancel' hlo
  have hline := hall ⟨c, hc⟩ ⟨l - 40, by omega⟩
  rwa [hl] at hline

theorem form_of_row {a b w : Nat} {r : RegRow} (hform : rowForm a = some (b, w)) (hrow : regRow a = some r) : r.base = b ∧ r.width = w := by
  unfold rowForm at hform
  rw [hrow] at hform
  exact Prod.mk.inj (Option.some.inj hform)

/-- A 32-bit write by firmware of a register of the device that the bond table does not hold (R7, R18). -/
theorem regWrite_firmware {a v : Nat} {r : RegRow} {s : State} (hrow : regRow a = some r) (hwidth : r.width = 32) (halign : a % 4 = 0)
    (hwdog : a ≠ SC_WDOG) (hbond : r.base ≠ BT_ENTRY 0 0 0) :
    (regWrite 0 a 4 v s).2 = writeActs 0 r a (2 ^ 32 - 1) (v % 2 ^ 32) s
      { s with dev := s.dev.wrN a (plainWrite r (s.dev.rdN a) (2 ^ 32 - 1) (v % 2 ^ 32)) } := by
  have hopen : s.dev.writable r 0 a = 2 ^ 64 - 1 := by simp [Dev.writable, hwdog]
  simp [regWrite, hrow, hwidth, halign, hopen, hbond]

section WriteActs
variable {c : Nat} (hc : c < 4) {r : RegRow} {v : Nat} {old s : State}
include hc

/-- A write of CR_CTRL gives the command that it holds (R306). -/
theorem writeActs_ctrl (hbase : r.base = CR_CTRL 0) : writeActs 0 r (CR_CTRL c) (2 ^ 32 - 1) (v % 2 ^ 32) old s =
    { s with dev := s.dev.coreCmd c (v % 4) } := by
  have hpage : (CR_CTRL c - 0x40F00000) / 0x10000 = c := by unfold CR_CTRL; omega
  have hcmd : bits (v % 2 ^ 32 &&& (2 ^ 32 - 1)) 1 0 = v % 4 := by
    rw [Nat.and_two_pow_sub_one_eq_mod]
    unfold bits
    omega
  simp only [writeActs, hpage, hcmd, hbase]
  simp [LN_CTRL, LN_EYE, LN_PRBS, XC_CTRL, BM_WCTRL, TIM_PHASE, TIM_XO_TEMP, ER_CMD, CV_CFG, CV_FEED_B_R, CV_FEED_H_R, CV_FEED_W_R,
    CV_ALIVE_GO_R, CR_WDOG, CR_INT, SC_REMAP, DC_CTRL, CR_CTRL]

/-- A write of CR_WDOG with bit 31 set restarts the timeout (R333). -/
theorem writeActs_wdog (hbase : r.base = CR_WDOG 0) (hkick : v / 2 ^ 31 % 2 = 1) :
    writeActs 0 r (CR_WDOG c) (2 ^ 32 - 1) (v % 2 ^ 32) old s =
      { s with dev := s.dev.setCore c { s.dev.core c with wdogAt := s.dev.now } } := by
  have hpage : (CR_WDOG c - 0x40F00000) / 0x10000 = c := by unfold CR_WDOG; omega
  have hbit : bit (v % 2 ^ 32 &&& (2 ^ 32 - 1)) 31 = true := by
    rw [Nat.and_two_pow_sub_one_eq_mod, bit, Nat.testBit_eq_decide_div_mod_eq]
    exact decide_eq_true (by omega)
  simp only [writeActs, hpage, hbit, hbase, if_true]
  simp [LN_CTRL, LN_EYE, LN_PRBS, XC_CTRL, BM_WCTRL, TIM_PHASE, TIM_XO_TEMP, ER_CMD, CV_CFG, CV_FEED_B_R, CV_FEED_H_R, CV_FEED_W_R,
    CV_ALIVE_GO_R, CR_WDOG]

/-- A write of a software line's CR_INT with bit 3 set makes it pending (R327). -/
theorem writeActs_swLine {l : Nat} (hlo : 40 ≤ l) (hhi : l < 48) (hbase : r.base = CR_INT 0 0) (hset : v / 2 ^ 3 % 2 = 1) :
    writeActs 0 r (CR_INT c l) (2 ^ 32 - 1) (v % 2 ^ 32) old s =
      { s with dev := (s.dev.setF (CR_INT c l) CR_INT_SWSET 0).lineOn c l } := by
  have hpage : (CR_INT c l - 0x40F00000) / 0x10000 = c := by unfold CR_INT; omega
  have hline : (CR_INT c l - CR_INT c 0) / 4 = l := by unfold CR_INT; omega
  have hbit : bit (v % 2 ^ 32 &&& (2 ^ 32 - 1)) 3 = true := by
    rw [Nat.and_two_pow_sub_one_eq_mod, bit, Nat.testBit_eq_decide_div_mod_eq]
    exact decide_eq_true (by omega)
  simp only [writeActs, hpage, hline, hbit, hbase, decide_eq_true hlo, Bool.and_self, if_true]
  simp [LN_CTRL, LN_EYE, LN_PRBS, XC_CTRL, BM_WCTRL, TIM_PHASE, TIM_XO_TEMP, ER_CMD, CV_CFG, CV_FEED_B_R, CV_FEED_H_R, CV_FEED_W_R,
    CV_ALIVE_GO_R, CR_WDOG, CR_INT]

end WriteActs

/-- An enabled pending line of level 1 is taken below that level (R328). -/
theorem level1_of_taken {d : Dev} {c l : Nat} (hbest : d.bestLine c = some (l, 1)) (htake : d.canTake c = true)
    (hcs : d.coreCs c = false) (hipl : d.ipl c < 2) : d.level1 c = d.intEntry c l RC_SPC RC_SSR 2 true := by
  simp only [Dev.level1, hbest]
  exact if_pos (by rw [htake, hcs, decide_eq_true hipl]; rfl)

/-- An enabled pending line of level 2 is taken below that level (R329). -/
theorem level2_of_taken {d : Dev} {c l : Nat} (hbest : d.bestLine c = some (l, 2)) (htake : d.canTake c = true)
    (hipl : d.ipl c = 0) : d.level2 c = d.intEntry c l RC_IPC2 RC_ISR2 1 false := by
  simp only [Dev.level2, hbest]
  exact if_pos (by rw [htake, hipl]; rfl)

/-- Settles O21: each event's rule, on the branch that its conditions select. -/
theorem coreRowsComplete : Obligations.CoreRowsComplete := by
  intro c s hc d
  have hcore : ¬ c ≥ 4 := Nat.not_le.mpr hc
  refine ⟨?_, ?_, ?_, ?_, ?_, ?_, ?_, ?_, ?_, ?_⟩
  · exact fun l hbest htake hcs hipl => congrArg (nextDev s) (level1_of_taken hbest htake hcs hipl)
  · exact fun l hbest htake hipl => congrArg (nextDev s) (level2_of_taken hbest htake hipl)
  · intro hready hskip hbp hbound
    have hopen : ((d.core c).skipBp || !d.breakAt c (d.core c).ctx.pc) = false := by
      rw [hskip, hbp]
      rfl
    have hcheck : s.breakCheck c = some { s with dev := d.coreHalt c 2 } := (ite_of_false hopen _ _).trans (if_pos hbound)
    exact congrArg Host.Outcome.next ((if_pos hready).trans (congrArg (Option.getD · s) hcheck))
  · exact fun hw => congrArg (nextDev s) (if_neg (not_or.mpr ⟨hcore, hw⟩))
  · intro hen hq hrun hdue d1
    have hopen : ¬ (c ≥ 4 ∨ (!d.on (CR_CTRL c) CR_CTRL_WDOG_EN) = true ∨ (d.core c).qhalt ≠ 0 ∨ d.coreState c ≠ CORE_RUN ∨
        d.now < (d.core c).wdogAt + d.wdogMs c * 10 ^ 6) :=
      not_or.mpr ⟨hcore, not_or.mpr ⟨by simp [hen], not_or.mpr ⟨not_not_intro hq, not_or.mpr ⟨not_not_intro hrun, Nat.not_lt.mpr hdue⟩⟩⟩⟩
    refine ⟨fun hother => congrArg (nextDev s) ((if_neg hopen).trans (if_pos hother)), ?_⟩
    intro hzero d2
    exact congrArg (nextDev s) ((if_neg hopen).trans (if_neg (not_not_intro hzero)))
  · exact fun hen heq => congrArg (nextDev s) (if_pos ⟨hc, hen, heq⟩)
  · intro r hrow e
    obtain ⟨hbase, hwidth⟩ := form_of_row (rowForm_ctrl hc) hrow
    have hcmd (k : Nat) (hk : k < 4) : cmdWrite c 0 k s = { s with dev := (e k).coreCmd c k } := by
      have hwrite := regWrite_firmware (v := d.rdN (CR_CTRL c) / 4 * 4 + k) (s := s) hrow hwidth (by unfold CR_CTRL; omega)
        (by unfold CR_CTRL SC_WDOG; omega) (by rw [hbase]; decide)
      have hlow : (d.rdN (CR_CTRL c) / 4 * 4 + k) % 4 = k := by omega
      exact (if_pos hc).trans (hwrite.trans ((writeActs_ctrl hc hbase).trans (by rw [hlow])))
    exact ⟨congrArg Host.Outcome.next (hcmd 1 (by decide)), congrArg Host.Outcome.next (hcmd 2 (by decide)),
      congrArg Host.Outcome.next (hcmd 3 (by decide))⟩
  · intro r hrow e
    obtain ⟨hbase, hwidth⟩ := form_of_row (rowForm_wdog hc) hrow
    have hlow : (d.rdN (CR_WDOG c) % 2 ^ 31 + 2 ^ 31) % 2 ^ 32 = d.rdN (CR_WDOG c) % 2 ^ 31 + 2 ^ 31 := by omega
    have hwrite := regWrite_firmware (v := d.rdN (CR_WDOG c) % 2 ^ 31 + 2 ^ 31) (s := s) hrow hwidth (by unfold CR_WDOG; omega)
      (by unfold CR_WDOG SC_WDOG; omega) (by rw [hbase]; decide)
    have hkick := writeActs_wdog (v := d.rdN (CR_WDOG c) % 2 ^ 31 + 2 ^ 31) (old := s) (s := { s with dev := e }) hc hbase (by omega)
    rw [hlow] at hwrite hkick
    exact congrArg Host.Outcome.next ((if_pos hc).trans (hwrite.trans hkick))
  · intro l r hlo hhi hrow e
    obtain ⟨hbase, hwidth⟩ := form_of_row (rowForm_swLine hc hlo hhi) hrow
    have hlow : (d.rdN (CR_INT c l) % 4 + 8) % 2 ^ 32 = d.rdN (CR_INT c l) % 4 + 8 := by omega
    have hwrite := regWrite_firmware (v := d.rdN (CR_INT c l) % 4 + 8) (s := s) hrow hwidth (by unfold CR_INT; omega)
      (by unfold CR_INT SC_WDOG; omega) (by rw [hbase]; decide)
    have hset := writeActs_swLine (v := d.rdN (CR_INT c l) % 4 + 8) (old := s) (s := { s with dev := e }) hc hlo hhi hbase (by omega)
    rw [hlow] at hwrite hset
    exact congrArg Host.Outcome.next ((if_pos ⟨hc, hhi⟩).trans (hwrite.trans hset))
  · intro hidle hlive s1
    have hopen : ¬ (d.coreState (d.physOf 3) = CORE_RUN ∨ d.coreState (d.physOf 3) = CORE_RETIRED) := not_or.mpr ⟨hidle, hlive⟩
    exact ⟨congrArg Host.Outcome.next (if_neg hopen), congrArg Host.Outcome.next (if_neg hopen)⟩

/-! One instruction of a Rhaex core. -/

/-- The words of an instruction. -/
def words (i : RIns) : Nat := if i.long then 2 else 1

section Instruction
variable {c : Nat} {i : RIns} {s s1 : State} {pick : RIns → Option (State → RM Flow)} {w : State → RM Flow}
  (hnext : nextIs c i s s1) (hpick : pick i = some w)
include hnext hpick

/-- An instruction that is the next one and meets no trap completes with its work. -/
theorem rowR_of_ok {f : Flow} {t : State} (hw : w s1 = .ok (f, t)) : rowR c s pick = .next (doneR c (words i) f t) := by
  obtain ⟨hready, hi, htrap, hbp, hs1⟩ := hnext
  subst hi
  subst hs1
  simp only [rowR, runR, htrap, hpick, hbp, hw, hready, Bool.not_true, Bool.false_eq_true, if_false]
  rfl

/-- An instruction that is the next one and traps leaves nothing of itself in the core. -/
theorem rowR_of_error {v : Nat} {t : State} (hw : w s1 = .error (v, t)) :
    rowR c s pick = .next ((t.setCore c (s1.core c)).trap c v) := by
  obtain ⟨hready, hi, htrap, hbp, hs1⟩ := hnext
  subst hi
  subst hs1
  simp only [rowR, runR, htrap, hpick, hbp, hw, hready, Bool.not_true, Bool.false_eq_true, if_false]

end Instruction

/-! Control words and branches. -/

/-- RTS goes to the address that it read, with P7 one higher (R326). -/
theorem doRts_of_read {c v : Nat} {s t : State}
    (hread : dataRead c false
      (if s.dev.coreCs c then s.rv c (tD (s.core c)) (RC_P0 + 7) % 2 ^ 16 else s.rv c (tD (s.core c)) (RC_P0 + 7)) s = .ok (v, t)) :
    doRts c s = branchTo c 1 true v (t.rw c (tD (s.core c)) (RC_P0 + 7)
      (wrapN (if s.dev.coreCs c then 16 else 24) ((s.rv c (tD (s.core c)) (RC_P0 + 7) : Int) + 1))) := by
  simp only [doRts, hread]

/-- Settles O22: each word's work, through the rule for one instruction. -/
theorem rhaexControlComplete : Obligations.RhaexControlComplete := by
  intro c s s1 cs x dest
  refine ⟨fun h => rowR_of_ok h rfl rfl, ?_, fun h => rowR_of_ok h rfl rfl, fun h => rowR_of_ok h rfl rfl,
    fun h => rowR_of_ok h rfl rfl, fun h => rowR_of_ok h rfl rfl, fun h hsync => rowR_of_ok h (if_pos hsync) rfl,
    fun h => rowR_of_ok h rfl rfl, fun h => rowR_of_error h rfl rfl, fun h => rowR_of_error h rfl rfl,
    fun k h => rowR_of_ok h rfl rfl, fun k t h hcall => rowR_of_ok (w := fun u => callTo c 1 (u.dispTo c k) u) h rfl hcall,
    fun cc k h => rowR_of_ok h rfl rfl, fun a h => rowR_of_ok h rfl rfl, fun a t h hcall => rowR_of_ok h rfl hcall,
    fun cc a h => rowR_of_ok h rfl rfl, ?_, ?_, ?_, ?_,
    fun reg v h => rowR_of_ok h rfl rfl, fun n h => rowR_of_ok h rfl rfl⟩
  · intro h v t hread t1
    exact rowR_of_ok h rfl (doRts_of_read hread)
  · intro reg v off h hroom hcount e
    exact rowR_of_ok h rfl ((if_neg (Nat.not_le.mpr hroom)).trans (if_neg (fun hz => hcount hz.1)))
  · intro reg v off h hroom hcount hcs
    exact rowR_of_ok h rfl ((if_neg (Nat.not_le.mpr hroom)).trans (if_pos ⟨hcount, congrArg not hcs⟩))
  · intro reg v off h hfull
    exact rowR_of_error h rfl (if_pos hfull)
  · intro off n h hroom hcount e
    exact rowR_of_ok h rfl ((if_neg (Nat.not_le.mpr hroom)).trans (if_neg (fun hz => hcount hz.1)))

/-! MOVEL loads one stage earlier than O23 says. -/

/-- What a step that may trap leaves. -/
def left {α : Type} (r : RM α) : State := match r with | .ok (_, t) => t | .error (_, t) => t

/-- The word that a read gives. -/
def got (r : RM Nat) : Nat := match r with | .ok (v, _) => v | .error _ => 0

/-- A step that may trap does not. -/
def passes {α : Type} (r : RM α) : Bool := match r with | .ok _ => true | .error _ => false

theorem eq_ok_of_passes {r : RM Nat} (h : passes r = true) : r = .ok (got r, left r) := by
  cases r with
  | error e => exact absurd h Bool.false_ne_true
  | ok p => rfl

/-- Core 1 runs at address 0 of its program memory, which holds MOVEL Y:(P7), A0. -/
def movelState : State :=
  { State.reset with
    dev := State.reset.dev.setCoreState 1 CORE_RUN
    mem := ({} : Mem).wr 0x51000000 (leBytes 4 0x716380 ++ leBytes 4 0) }

/-- What that instruction acts on. -/
def movelStart : State :=
  (fetchR 1 movelState).2.2.setCore 1 { (fetchR 1 movelState).2.2.core 1 with acc := [], skipBp := false }

/-- The read of H, at the address of P7. -/
def readH : RM Nat := dataRead 1 true (agu 1 7 0 2 movelStart).1 (agu 1 7 0 2 movelStart).2

/-- The read of L, at the address after it. -/
def readL : RM Nat := dataRead 1 true (((agu 1 7 0 2 movelStart).1 + 1) % 2 ^ 24) (left readH)

/-- The accumulator written at a time. -/
def movelEnd (time : Nat) : State := (left readL).setAcc 1 time 0 (sext 48 (got readH * 2 ^ 24 + got readL))

theorem movel_next : nextIs 1 (.movel true false 0 7 0) movelState movelStart :=
  ⟨by decide +kernel, by decide +kernel, by decide +kernel, Option.isNone_iff_eq_none.mp (by decide +kernel), rfl⟩

theorem readH_ok : readH = .ok (got readH, left readH) := eq_ok_of_passes (by decide +kernel)

theorem readL_ok : readL = .ok (got readL, left readL) := eq_ok_of_passes (by decide +kernel)

/-- MOVEL writes its accumulator at the end of E1 (R315, log entry 23). -/
theorem doMovel_load {c k pn mode h l : Nat} {y : Bool} {s t u : State}
    (hh : dataRead c y (agu c pn mode 2 s).1 (agu c pn mode 2 s).2 = .ok (h, t))
    (hl : dataRead c y (((agu c pn mode 2 s).1 + 1) % 2 ^ 24) t = .ok (l, u)) :
    doMovel c y false k pn mode s = .ok (.next, u.setAcc c (tE1 (u.core c)) k (sext 48 (h * 2 ^ 24 + l))) := by
  simp only [doMovel, Bool.false_eq_true, if_false, hh, hl]

/-- The time at which the accumulator lands shows in the core. -/
theorem movelEnd_differ :
    ((doneR 1 2 .next (movelEnd (tE1 ((left readL).core 1)))).core 1).pend ≠
      ((doneR 1 2 .next (movelEnd (tE2 ((left readL).core 1)))).core 1).pend := by decide +kernel

/-- Refutes O23: its clause for a MOVEL load lands the accumulator at the end of E2, and the model at the end of E1, as every other
load; core 1 with MOVEL Y:(P7), A0 at address 0 shows the difference in the writes that are on their way. -/
theorem not_rhaexMovesComplete : ¬ Obligations.RhaexMovesComplete := by
  intro hall
  obtain ⟨_, _, _, _, _, _, _, _, hload, _⟩ := hall 1 movelState movelStart
  have hsaid := hload true 0 7 0 movel_next (got readH) (got readL) (left readH) (left readL) readH_ok readL_ok
  have hdone : exec (.rMovel 1) movelState = .next (doneR 1 2 .next (movelEnd (tE1 ((left readL).core 1)))) :=
    rowR_of_ok movel_next rfl (doMovel_load readH_ok readL_ok)
  have hsame := Host.Outcome.next.inj (hdone.symm.trans hsaid)
  exact movelEnd_differ (congrArg (fun t : State => (t.core 1).pend) hsame)

/-! PAR words. -/

/-- A PAR word whose moves do not trap completes with its operation made before them. -/
theorem rowR_par {c op k src xm ym : Nat} {s s1 t : State} (f : Nat → Nat → State → State) (hnext : nextIs c (.par op k src xm ym) s s1)
    (hmove : parMoves c xm ym (f k src s1) = .ok ((), t)) : rowR c s (parPick c op f) = .next (doneR c 1 .next t) := by
  have hpick : parPick c op f (.par op k src xm ym) = parWork c xm ym (f k src) := if_pos rfl
  have hgo : (parMoves c xm ym (f k src s1)).go = .ok (.next, t) := by rw [hmove]; rfl
  exact rowR_of_ok hnext hpick hgo

/-- Settles O24: each word's operation, through the rule for PAR words. -/
theorem rhaexParallelComplete : Obligations.RhaexParallelComplete := by
  intro c s s1 k src xm ym t par a b p o
  refine ⟨rowR_par fun _ _ => id,
    rowR_par fun k src s => s.arith c k (s.prodOf c src) false,
    rowR_par fun k src s => accAdd c k (s.prodOf c src) s,
    rowR_par fun k src s => accSub c k (s.prodOf c src) s,
    rowR_par fun k src s => s.arithRnd c k (s.prodOf c src) false,
    rowR_par fun k src s => s.arithRnd c k (s.accNow c k + s.prodOf c src) (carryAdd (s.accNow c k) (s.prodOf c src)),
    rowR_par fun k _ => twoProducts c k false,
    rowR_par fun k _ => twoProducts c k true,
    rowR_par fun k src s => accAdd c k (s.opndHigh c src) s,
    rowR_par fun k src s => accSub c k (s.opndHigh c src) s,
    rowR_par fun k src s => accAdd c k (s.accNow c src) s,
    rowR_par fun k src s => accSub c k (s.accNow c src) s,
    rowR_par fun k src s => s.flags c (!in56 (s.accNow c k - s.opndHigh c src)) (borrowSub (s.accNow c k) (s.opndHigh c src))
      (keep56 (s.accNow c k - s.opndHigh c src)),
    rowR_par fun k _ s => s.flags c false false (s.accNow c k),
    rowR_par fun k _ s => s.arith c k 0 false,
    rowR_par fun k _ => accNeg c k,
    fun hpos h hmove => rowR_par _ h ((congrArg (parMoves c xm ym) (if_neg (Int.not_lt.mpr hpos))).trans hmove),
    fun hneg h hmove => rowR_par _ h ((congrArg (parMoves c xm ym) (if_pos hneg)).trans hmove),
    rowR_par fun k src s => s.arith c k (s.accNow c src) false,
    rowR_par fun k _ s => s.arithRnd c k (s.accNow c k) false,
    rowR_par fun k _ s => s.arith c k (2 * s.accNow c k) (decide (s.accNow c k < 0)),
    rowR_par fun k _ s => s.arith c k (s.accNow c k / 2) false,
    rowR_par fun k src => doNorm c k (opndReg src),
    rowR_par fun k src => doExp c k (opndReg src),
    fun code h => rowR_of_ok h rfl rfl, ?_⟩
  intro y q
  exact ⟨fun h => rowR_of_ok h rfl rfl, fun h => rowR_of_ok h rfl rfl, fun h => rowR_of_ok h rfl rfl⟩

end Sys2Proof.Proofs
end

section
/-!
SUPPORT. The rows of the network and of time.
-/
namespace Sys2Proof.Proofs
set_option Elab.async false
open Sys2Proof.Machine Sys2Proof.Laws

/-! The rows of the ports. -/

section Received
variable {d : Dev} {m : Nat} (hm : m < 20) (hmode : d.macMode m ≠ 0) (hlink : d.on (EM_STAT m) EM_STAT_LINK = true)
include hm hmode hlink

theorem portUp : ¬ (m ≥ 20 ∨ d.macMode m = 0 ∨ (!d.on (EM_STAT m) EM_STAT_LINK) = true) :=
  not_or.mpr ⟨Nat.not_le.mpr hm, not_or.mpr ⟨hmode, by simp [hlink]⟩⟩

/-- An untagged frame of a port that is up, its FCS right (R244, R245). -/
theorem ethRx_of_untagged {bs : List Nat} (fill : Nat) (htag : beAt bs 12 2 ≠ 0x8100) :
    d.ethRx m true bs fill =
      if beAt bs 12 2 = 0x8808 ∧ beAt (bs.drop 14) 0 2 = 1 then d.cnt (EMC_PAUSE_RX m) 1
      else if beAt bs 12 2 = 0x8808 ∧ beAt (bs.drop 14) 0 2 = 0x0101 then d.pfcRx m (bs.drop 14)
      else if bs.length + 4 < 64 ∨ bs.length + 4 > d.f (EM_CTRL m) EM_CTRL_MAX_FRAME ∨
          (!d.on (EM_CTRL m) EM_CTRL_UNTAGGED) = true ∨ (!d.acceptsDst m (at' bs 0 6) (beAt bs 12 2)) = true then d.rxDrop m
      else (d.cnt (EMC_RX_FRAMES m) 1).frameRx m (beAt bs 12 2) (at' bs 6 6) fill (bs.drop 14) := by
  have htagged : (beAt bs 12 2 == 0x8100) = false := beq_false_of_ne htag
  simp only [Dev.ethRx, htagged, Bool.false_eq_true, if_false]
  exact (if_neg (portUp hm hmode hlink)).trans (if_neg (by simp))

end Received

/-- An untagged frame that is no MAC control frame is no pause. -/
theorem not_control {p : Prop} {type : Nat} (h : type ≠ 0x8808) : ¬ (type = 0x8808 ∧ p) := fun hc => h hc.1

/-- The transmit port sends the first candidate of the highest priority (R249). -/
theorem transmit_of_candidate {d : Dev} {m pri i : Nat} {x : Stream} {r : Ready} (hsends : d.portSends m = true)
    (hcand : ([2, 3, 4, 5, 6].findSome? fun pri => (d.candidates m pri).head?.map fun x => (pri, x)) = some (pri, i, x, r)) :
    let rate := d.txRate i x r
    let left := if rate = 0 then x.tokens else x.bucket d.now rate - (r.body.length + ipHeader x.v6) * 8000
    let d1 := d.setStream i (some { x with tokens := left, tokAt := d.now, sentThrough := if r.gap then x.sentThrough else some r.seq })
    let d2 := { d1 with net := { d1.net with rr := tset (fun _ => none) d1.net.rr (8 * m + pri) (some i) } }
    d.transmit m = (d2.sendFrame m (d2.streamFrame x ((d2.nextMac x).getD 0) r.body)).sentPacket i x r := by
  simp only [Dev.transmit, hcand]
  exact ite_not_of_true hsends _ _

/-- A resolved entry that firmware refreshes is asked for again, and given up after three refreshes that failed (R254). -/
theorem execEntryRefresh_of_resolved {s : State} {m ip : Nat} {v6 : Bool} {r : Res} (hres : s.dev.res m v6 ip = some r)
    (hdyn : r.static = false) (hresolved : r.resolved = true) :
    execEntryRefresh m v6 ip s = nextDev s (if r.fails ≥ 3 then s.dev.setRes { r with resolved := false, fails := 0 }
      else (s.dev.setRes { r with fails := r.fails + 1 }).askFor m v6 ip) := by
  have hopen : (r.static || !r.resolved) = false := by rw [hdyn, hresolved]; rfl
  simp only [execEntryRefresh, hres]
  exact congrArg (nextDev s) (ite_of_false hopen _ _)

/-- A trigger message that has waited too long is dropped (R258). -/
theorem execTrigTxDrop_of_waiting {s : State} {m : Nat} {x : Pkt} (hstream : s.dev.streamIs m 5 = true)
    (hx : ((s.dev.waiting m).find? fun p => !p.gap) = some x) :
    let r := s.dev.abandonPkts (fun p => p == x) 1 false
    execTrigTxDrop m s = nextDev s { r.1 with net := { r.1.net with trigTxDrop := r.1.net.trigTxDrop + r.2 } } := by
  simp only [execTrigTxDrop, hx]
  exact congrArg (nextDev s) (ite_not_of_true hstream _ _)

/-- Settles O25: each event's rule, on the branch that its conditions select. -/
theorem networkRowsComplete : Obligations.NetworkRowsComplete := by
  intro m s d
  refine ⟨?_, ?_, ?_, ?_, ?_, ?_, rfl, ?_, fun x hstream hx => execTrigTxDrop_of_waiting hstream hx⟩
  · intro fill hm hmode hlink
    refine ⟨fun bs => next_dev ((if_neg (portUp hm hmode hlink)).trans (if_pos rfl)), fun bs hctrl hpause => next_dev ?_,
      fun bs hctrl hpfc => next_dev ?_, ?_⟩
    · have htag : beAt bs 12 2 ≠ 0x8100 := by rw [hctrl]; decide
      exact (ethRx_of_untagged hm hmode hlink fill htag).trans (if_pos ⟨hctrl, hpause⟩)
    · have htag : beAt bs 12 2 ≠ 0x8100 := by rw [hctrl]; decide
      have hnot : ¬ (beAt bs 12 2 = 0x8808 ∧ beAt (bs.drop 14) 0 2 = 1) := by rw [hpfc]; exact fun h => absurd h.2 (by decide)
      exact (ethRx_of_untagged hm hmode hlink fill htag).trans ((if_neg hnot).trans (if_pos ⟨hctrl, hpfc⟩))
    · rintro bs _ ⟨rfl, htag, hdata⟩
      refine ⟨fun hmin hmax huntagged hdst => next_dev ?_, fun hshort => next_dev ?_⟩
      · have hok : ¬ (bs.length + 4 < 64 ∨ bs.length + 4 > d.f (EM_CTRL m) EM_CTRL_MAX_FRAME ∨
            (!d.on (EM_CTRL m) EM_CTRL_UNTAGGED) = true ∨ (!d.acceptsDst m (at' bs 0 6) (beAt bs 12 2)) = true) :=
          not_or.mpr ⟨by omega, not_or.mpr ⟨Nat.not_lt.mpr hmax, not_or.mpr ⟨by simp [huntagged], by simp [hdst]⟩⟩⟩
        exact (ethRx_of_untagged hm hmode hlink fill htag).trans
          ((if_neg (not_control hdata)).trans ((if_neg (not_control hdata)).trans (if_neg hok)))
      · exact (ethRx_of_untagged hm hmode hlink fill htag).trans
          ((if_neg (not_control hdata)).trans ((if_neg (not_control hdata)).trans (if_pos (Or.inl (by omega)))))
  · intro pri hm hpri
    refine ⟨fun hst => congrArg (nextDev s) (if_pos ⟨hm, hpri, by simp [show s.dev.stormed m pri = false from hst]⟩), fun hp => ?_,
      fun hst => congrArg (nextDev s) (if_pos ⟨hm, hst⟩)⟩
    exact congrArg (nextDev s) (if_neg (not_or.mpr ⟨Nat.not_le.mpr hm, not_or.mpr ⟨Nat.not_le.mpr hpri, by
      simp [show bit (s.dev.f (EM_STAT m) EM_STAT_PAUSED) pri = true from hp]⟩⟩))
  · exact fun fill hm hen hsent hfill => congrArg (nextDev s) (if_pos ⟨hm, hen, hsent, hfill⟩)
  · intro lf fec hm hlink
    exact congrArg (nextDev s) ((if_neg (fun h => absurd hm (Nat.not_lt.mpr h.1))).trans (if_neg (not_or.mpr ⟨Nat.not_le.mpr hm, by
      simp [show s.dev.on (EM_STAT m) EM_STAT_LINK = true from hlink]⟩)))
  · intro rf hm hmode
    exact congrArg (nextDev s) ((if_neg (fun h => absurd hm (Nat.not_lt.mpr h.1))).trans
      (if_neg (not_or.mpr ⟨Nat.not_le.mpr hm, hmode⟩)))
  · intro pri i x r hm hsends hcand rate left d1 d2
    exact congrArg (nextDev s) ((if_pos hm).trans (transmit_of_candidate hsends hcand))
  · intro v6 ip r hres hdyn hresolved
    exact ⟨fun hlost => (execEntryRefresh_of_resolved hres hdyn hresolved).trans (congrArg (nextDev s) (if_pos hlost)),
      fun hagain => (execEntryRefresh_of_resolved hres hdyn hresolved).trans
        (congrArg (nextDev s) (if_neg (Nat.not_le.mpr hagain)))⟩

/-! The times of O26's PTP measurement are natural numbers, whose differences stop at zero. -/

/-- Port 0 is a PTP slave that measures end to end, with no latency of its own, and the time of day follows PTP. -/
def slaveState : State :=
  { State.reset with dev := (State.reset.dev.setF TSU_CTRL TSU_CTRL_SRC 1).setPort 0 { State.reset.dev.port 0 with ptp := 2 } }

/-- The mean path delay of port 0 after a step. -/
def meanAfter (o : Host.Outcome State Fault Refusal) : Int := match o with | .next t => (t.dev.port 0).mean | _ => 0

theorem slaveState_measures : slaveState.dev.f TSU_CTRL TSU_CTRL_SRC = 1 ∧ (slaveState.dev.port 0).ptp = 2 ∧
    (slaveState.dev.port 0).hist.length ≠ 8 := by decide +kernel

/-- A slave clock one unit behind its master measures a path delay of half a unit less, rounded down (R266). -/
theorem meanAfter_slaveState : meanAfter (exec (.offsetMeasurement 0 1 0 0 0 0) slaveState) = -1 := by decide +kernel

/-- Refutes O26: its clause for a PTP measurement takes the times as natural numbers, so t2 − t1 with t2 = 0 and t1 = 1 is 0 there and
-1 in the model, whose mean path delay is then -1 where the clause says 0. -/
theorem not_timeRowsComplete : ¬ Obligations.TimeRowsComplete := by
  intro hall
  obtain ⟨_, _, _, hptp, _⟩ := hall 0 slaveState
  obtain ⟨hsrc, hslave, hlen⟩ := slaveState_measures
  have hsaid := congrArg meanAfter (hptp 1 0 0 0 0 hsrc hslave hlen)
  exact absurd (meanAfter_slaveState.symm.trans hsaid) (by decide +kernel)

end Sys2Proof.Proofs
end

section
/-!
SUPPORT. The rows of the timing core, of heat and wear, and of the lease link.
-/
namespace Sys2Proof.Proofs
set_option Elab.async false
open Sys2Proof.Machine Sys2Proof.Laws

/-! The rows of the timing core. -/

/-- An edge of a PPS pin is counted or stamped (R278). -/
theorem execPpsInEdge_eq {r ns : Nat} {rising : Bool} {s : State} (hr : r < 2) :
    execPpsInEdge r rising ns s = nextDev s (
      if rising == s.dev.on (TIM_REF (4 + r)) TIM_REF_POL || decide (ns < s.dev.tim.ppsMpw) ||
          (tget (fun _ => none) s.dev.tim.ppsAt r).any (fun t => decide (s.dev.now < t + 5 * 10 ^ 8)) then
        s.dev.cntF TIMC_PPS_IGN (if r = 0 then LO32 else HI32) 1
      else { s.dev with tim := { s.dev.tim with ppsAt := tset (fun _ => none) s.dev.tim.ppsAt r (some s.dev.now),
                                                ppsStamp := tset (fun _ => 0) s.dev.tim.ppsStamp r (s.dev.tod / 2 ^ 24) } }) := by
  unfold execPpsInEdge
  dsimp only
  rw [if_neg (Nat.not_le.mpr hr)]
  split
  · next t hpps => rw [hpps, Option.any_some]
  · next hpps => rw [hpps, Option.any_none]

/-- The limits of a reference's offset, in units of 10^-9 (R279). -/
def softLim (d : Dev) (r : Nat) : Nat := max 1 (d.f (TIM_REFTH r) TIM_REFTH_SOFT)
def hardLim (d : Dev) (r : Nat) : Nat := max (softLim d r) (d.f (TIM_REFTH r) TIM_REFTH_HARD)

/-- The status of an active reference without period fault, with its offset and whether it is beyond the hard limit (R279). -/
def measuredRef (d : Dev) (r : Nat) (y : Int) (h : Nat) : Dev :=
  (((d.setF (TIM_REFSTAT r) TIM_REFSTAT_ACT_FAULT 0).setF (TIM_REFSTAT r) TIM_REFSTAT_PER_FAULT 0).setF
    (TIM_REFSTAT r) TIM_REFSTAT_HARD h).setF (TIM_REFSTAT r) TIM_REFSTAT_OFFSET (wrapN 32 (y / 10 ^ 5))

/-- The soft window of a reference is closed (R279). -/
def closeSoft (d : Dev) (r : Nat) : Dev := { d with tim := { d.tim with ts := tset (fun _ => none) d.tim.ts r none } }

theorem b2n_true : b2n true = 1 := rfl

theorem b2n_false : b2n false = 0 := rfl

section Measurement
variable {d : Dev} {r : Nat} {y : Int}

/-- An offset beyond the hard limit disqualifies (R279). -/
theorem freqMeasure_hard (h : hardLim d r * 10 ^ 7 < y.natAbs) :
    d.freqMeasure r y true true = (measuredRef d r y 1).disqualify r (d.todSec - 2) := by
  unfold hardLim softLim at h
  have hbeyond : decide (y.natAbs > max (max 1 (d.f (TIM_REFTH r) TIM_REFTH_SOFT)) (d.f (TIM_REFTH r) TIM_REFTH_HARD) * 10 ^ 7) = true :=
    decide_eq_true h
  simp only [Dev.freqMeasure, measuredRef, hbeyond, Bool.not_true, Bool.or_true, if_true, b2n_true, b2n_false, -Nat.reducePow]

/-- An offset beyond the soft limit alone ends the proofing of a reference (R280). -/
theorem freqMeasure_soft_proofing (hsoft : softLim d r * 10 ^ 7 < y.natAbs) (hhard : y.natAbs ≤ hardLim d r * 10 ^ 7)
    (hq : d.qstate r = 2) : d.freqMeasure r y true true =
      ((measuredRef d r y 0).setF (TIM_REFSTAT r) TIM_REFSTAT_QSTATE 4).setF (TIM_REFSTAT r) TIM_REFSTAT_PROOF_LEFT 0 := by
  unfold hardLim softLim at hhard
  unfold softLim at hsoft
  have hwithin : decide (y.natAbs > max (max 1 (d.f (TIM_REFTH r) TIM_REFTH_SOFT)) (d.f (TIM_REFTH r) TIM_REFTH_HARD) * 10 ^ 7) = false :=
    decide_eq_false (Nat.not_lt.mpr hhard)
  have hbeyond : decide (y.natAbs > max 1 (d.f (TIM_REFTH r) TIM_REFTH_SOFT) * 10 ^ 7) = true := decide_eq_true hsoft
  simp only [Dev.freqMeasure, measuredRef, hwithin, hbeyond, hq, Bool.not_true, Bool.or_false, Bool.false_eq_true, if_false, if_true,
    b2n_false, -Nat.reducePow]

/-- A clean measurement closes the soft window (R279, R280). -/
theorem freqMeasure_clean (hclean : y.natAbs ≤ softLim d r * 10 ^ 7) : d.freqMeasure r y true true =
    if d.qstate r = 3 then (closeSoft (measuredRef d r y 0) r).setF (TIM_REFSTAT r) TIM_REFSTAT_QSTATE 1
    else (closeSoft (measuredRef d r y 0) r).cleanMeasure r := by
  have hhard : y.natAbs ≤ hardLim d r * 10 ^ 7 := Nat.le_trans hclean (Nat.mul_le_mul_right _ (Nat.le_max_left _ _))
  unfold hardLim softLim at hhard
  unfold softLim at hclean
  have hwithin : decide (y.natAbs > max (max 1 (d.f (TIM_REFTH r) TIM_REFTH_SOFT)) (d.f (TIM_REFTH r) TIM_REFTH_HARD) * 10 ^ 7) = false :=
    decide_eq_false (Nat.not_lt.mpr hhard)
  have hwithin' : decide (y.natAbs > max 1 (d.f (TIM_REFTH r) TIM_REFTH_SOFT) * 10 ^ 7) = false :=
    decide_eq_false (Nat.not_lt.mpr hclean)
  simp only [Dev.freqMeasure, measuredRef, closeSoft, hwithin, hwithin', Bool.not_true, Bool.or_false, Bool.false_eq_true, if_false,
    b2n_false, -Nat.reducePow]

end Measurement

/-- A locked reference's mean is compared with the model once (R292). -/
theorem execXoChanged_of_due {s : State} {x : HistRec} (hlock : 60 ≤ s.dev.tim.lockSecs) (hfirst : s.dev.tim.xoChecked = false)
    (hmodel : s.dev.ret.hist.modelValid = true) (hday : s.dev.ret.hist.days.getLast? = some x) :
    let d1 := { s.dev with tim := { s.dev.tim with xoChecked := true } }
    execXoChanged s = nextDev s (
      if (roundDiv s.dev.tim.lockSum 60 - s.dev.predict x.off x.t).natAbs ≤ clampN 1 10000 (s.dev.f TIM_HO TIM_HO_XO_JUMP) * 10 ^ 7 then d1
      else (({ d1 with ret := { d1.ret with hist := d1.ret.hist.discard } } : Dev).cntF TIMC_TEMP_STALE HI32 1).raise 0x0102 0xFF 0 0) := by
  have hopen : ¬ (s.dev.tim.lockSecs < 60 ∨ s.dev.tim.xoChecked = true ∨ (!s.dev.ret.hist.modelValid) = true) :=
    not_or.mpr ⟨Nat.not_lt.mpr hlock, not_or.mpr ⟨by simp [hfirst], by simp [hmodel]⟩⟩
  simp only [execXoChanged, hday, -Nat.reducePow]
  exact congrArg (nextDev s) (if_neg hopen)

section Sysref
variable {n : Nat} {s : State} (hn : n < 4) (hper : s.dev.f (TIM_SYSREF n) TIM_SYSREF_SPER ≠ 0)
  (hsn : s.dev.sngCount (s.dev.f (TIM_SYSREF n) TIM_SYSREF_SNG) % s.dev.f (TIM_SYSREF n) TIM_SYSREF_SPER = 0)
include hn hper hsn

theorem sysrefDue : ¬ (n ≥ 4 ∨ s.dev.f (TIM_SYSREF n) TIM_SYSREF_SPER = 0 ∨
    s.dev.sngCount (s.dev.f (TIM_SYSREF n) TIM_SYSREF_SNG) % s.dev.f (TIM_SYSREF n) TIM_SYSREF_SPER ≠ 0) :=
  not_or.mpr ⟨Nat.not_le.mpr hn, not_or.mpr ⟨hper, not_not_intro hsn⟩⟩

/-- A continuous SYSREF output pulses at each count of its period (R298). -/
theorem execSysrefOutPulse_continuous (hmode : s.dev.f (TIM_SYSREF n) TIM_SYSREF_MODE = 1) :
    execSysrefOutPulse n s = nextDev s (s.dev.emit .pin (16 + n) [s.dev.sngCount (s.dev.f (TIM_SYSREF n) TIM_SYSREF_SNG)]) := by
  simp only [execSysrefOutPulse, hmode]
  exact congrArg (nextDev s) (if_neg (sysrefDue hn hper hsn))

/-- A gapped SYSREF output pulses from its start on and has one pulse less to give (R298). -/
theorem execSysrefOutPulse_gapped {start left : Nat} (hmode : s.dev.f (TIM_SYSREF n) TIM_SYSREF_MODE = 2)
    (hgap : tget (fun _ => none) s.dev.tim.gap n = some (start, left + 2))
    (hstart : start ≤ s.dev.sngCount (s.dev.f (TIM_SYSREF n) TIM_SYSREF_SNG)) :
    execSysrefOutPulse n s = nextDev s
      (({ s.dev with tim := { s.dev.tim with gap := tset (fun _ => none) s.dev.tim.gap n (some (start, left + 1)) } } : Dev).emit
        .pin (16 + n) [s.dev.sngCount (s.dev.f (TIM_SYSREF n) TIM_SYSREF_SNG)]) := by
  have hlast : ¬ left + 2 = 1 := by omega
  have hdone : ¬ (s.dev.sngCount (s.dev.f (TIM_SYSREF n) TIM_SYSREF_SNG) < start ∨ left + 2 = 0) := by omega
  simp only [execSysrefOutPulse, hmode, hgap, hlast, if_false]
  exact congrArg (nextDev s) ((if_neg (sysrefDue hn hper hsn)).trans (if_neg hdone))

end Sysref

/-- Settles O27: each event's rule, on the branch that its conditions select. -/
theorem timingRowsComplete : Obligations.TimingRowsComplete := by
  intro r s d hold
  have hheld (h : hold) : ¬ (d.timSt ≠ TS_HOLDOVER ∧ d.timSt ≠ TS_HOLDOVER_POOR) := fun hn => h.elim hn.1 hn.2
  refine ⟨fun hon => congrArg (nextDev s) (if_pos hon), fun hon hptp => congrArg (nextDev s) (if_pos ⟨hon, hptp⟩), ?_, ?_,
    fun hst => congrArg (nextDev s) (if_pos hst), ?_, fun hst hsel => congrArg (nextDev s) (if_pos ⟨hst, hsel⟩),
    fun hst hn => congrArg (nextDev s) ((if_neg (not_not_intro hst)).trans (if_pos hn)),
    fun hst hn => congrArg (nextDev s) ((if_neg (not_not_intro hst)).trans (if_neg (Nat.not_lt.mpr hn))), ?_, ?_,
    fun hst => congrArg (nextDev s) (if_neg hst), fun h => congrArg (nextDev s) (if_neg (hheld h)), ?_, ?_, ?_,
    fun hext => congrArg (nextDev s) (if_pos hext), fun v hext => congrArg (nextDev s) (if_pos hext),
    fun v hst => congrArg (nextDev s) (if_pos hst), fun v hst => congrArg (nextDev s) (if_neg hst), ?_⟩
  · intro rising ns hr early no
    exact ⟨fun hno => (execPpsInEdge_eq hr).trans (congrArg (nextDev s) (if_pos hno)),
      fun hno => (execPpsInEdge_eq hr).trans (congrArg (nextDev s) (ite_of_false hno _ _))⟩
  · intro y hon soft hard e clear
    exact ⟨fun hbeyond => congrArg (nextDev s) ((if_pos hon).trans (freqMeasure_hard hbeyond)),
      fun hbeyond hwithin hq => congrArg (nextDev s) ((if_pos hon).trans (freqMeasure_soft_proofing hbeyond hwithin hq)),
      fun hclean hq => congrArg (nextDev s) ((if_pos hon).trans ((freqMeasure_clean hclean).trans (if_pos hq))),
      fun hclean hq => congrArg (nextDev s) ((if_pos hon).trans ((freqMeasure_clean hclean).trans (if_neg hq)))⟩
  · intro hst
    have hnot : ¬ d.timSt = TS_SWITCH := by rw [hst]; decide
    exact congrArg (nextDev s) ((if_neg hnot).trans (if_pos hst))
  · intro hst
    have hin : (! [TS_NARROW, TS_LOCKED, TS_SWITCH].contains d.timSt) = false := by
      obtain h | h := hst
      · rw [h]; decide
      · rw [h]; decide
    have hnot : ¬ d.timSt = TS_SWITCH := by
      obtain h | h := hst
      · rw [h]; decide
      · rw [h]; decide
    exact congrArg (nextDev s) ((ite_of_false hin _ _).trans (if_neg hnot))
  · intro hst
    have hin : (! [TS_NARROW, TS_LOCKED, TS_SWITCH].contains d.timSt) = false := by rw [hst]; decide
    exact congrArg (nextDev s) ((ite_of_false hin _ _).trans (if_pos hst))
  · intro h hlim hover hnoted
    exact congrArg (nextDev s) (if_neg (not_or.mpr ⟨hheld h, not_or.mpr ⟨hlim, not_or.mpr ⟨Nat.not_le.mpr hover, by
      simp [show s.dev.tim.hoNoted = false from hnoted]⟩⟩⟩))
  · intro y hst hq hlock h e
    have hopen : ¬ (d.timSt ≠ TS_LOCKED ∨ (!d.qualified d.timSel) = true) := not_or.mpr ⟨not_not_intro hst, by simp [hq]⟩
    exact congrArg (nextDev s) ((if_neg hopen).trans (congrArg
      (fun t => { d with ret := { d.ret with hist := { h with secs := (h.secs ++ [e]).drop (h.secs.length + 1 - 86400) } }, tim := t })
      (if_neg (Nat.not_lt.mpr hlock))))
  · intro hlock hfirst hmodel x hday d1 lim diff
    exact ⟨fun hle => (execXoChanged_of_due hlock hfirst hmodel hday).trans (congrArg (nextDev s) (if_pos hle)),
      fun hgt => (execXoChanged_of_due hlock hfirst hmodel hday).trans (congrArg (nextDev s) (if_neg (Nat.not_le.mpr hgt)))⟩
  · intro n hn hper hsn
    exact ⟨execSysrefOutPulse_continuous hn hper hsn, fun start left => execSysrefOutPulse_gapped hn hper hsn⟩

/-! The rows of heat and wear. -/

/-- A digital shutdown that two sensors agreed on is latched (R407). -/
theorem execShutdownAssert_of_agreed {s : State} {x a b : Nat} (hshut : s.dev.therm.shut = some (x, a, b))
    (hfw : s.dev.fwState ≠ FW_SHUTDOWN) :
    let d1 := (((s.dev.setF TH_LATCH TH_LATCH_DIGITAL 1).setF TH_LATCH TH_LATCH_SENS_A a).setF TH_LATCH TH_LATCH_SENS_B b).raise
      0x0A04 0xFF 0 0
    execShutdownAssert s = nextDev s
      ({ d1 with pwr := { d1.pwr with auxShut := some (s.dev.errEntry 0x0A04 0xFF 0 0) } } : Dev).shutDown := by
  simp only [execShutdownAssert, hshut]
  exact congrArg (nextDev s) (if_neg hfw)

/-- The lowest margin of the units in use (R409). -/
def lowMargin (d : Dev) (margins : List Int) : Int :=
  (((List.range 79).filter d.unitActive).map fun u => margins.getD u 0).foldl min (margins.getD 68 0)

/-- A margin below its target raises the voltage by a step (R409). -/
theorem avsAdjust_up {d : Dev} {margins : List Int} {ack : Bool} (hen : d.on AV_CTRL AV_CTRL_EN = true) (hserving : d.serving = true)
    (hlow : lowMargin d margins < (clampN 50 1000 (d.f AV_CTRL AV_CTRL_M_TARGET) : Int))
    (hv : d.f AV_CTRL AV_CTRL_VSET_MV < 850) (hup : d.therm.upAt = none) :
    let tab := (List.range 79).foldl (fun (t : Tbl Int) u => tset (fun _ => 0) t u (margins.getD u 0)) []
    let d0 : Dev := { d with therm := { d.therm with margins := tab, upAt := some d.now } }
    let d1 := (d0.setVolt (d.f AV_CTRL AV_CTRL_VSET_MV + 5) ack).cntF THC_AV_STEPS LO32 1
    d.avsAdjust margins ack = { d1 with therm := { d1.therm with avLimit := false } } := by
  unfold lowMargin at hlow
  have hne : ¬ d.f AV_CTRL AV_CTRL_VSET_MV = 850 := Nat.ne_of_lt hv
  simp only [Dev.avsAdjust, hen, hserving, hlow, hv, hup, hne, Bool.not_true, Bool.false_eq_true, or_self, if_false, if_true, and_self,
    false_and, decide_false, Bool.false_and, ne_eq, not_false_eq_true, -Nat.reducePow]

/-- Settles O28: each event's rule, on the branch that its conditions select. -/
theorem heatRowsComplete : Obligations.HeatRowsComplete := by
  intro s d
  refine ⟨?_, ?_, fun x a b hshut hfw => execShutdownAssert_of_agreed hshut hfw, fun hfw => congrArg (nextDev s) (if_neg hfw),
    fun hfw => congrArg (nextDev s) (if_pos hfw), ?_, rfl⟩
  · intro temps bad hshut hfw d1 d3
    have hopen : ¬ (d.therm.shut.isSome = true ∨ d.fwState = FW_SHUTDOWN) := by
      rw [show d.therm.shut = none from hshut]
      exact not_or.mpr ⟨Bool.false_ne_true, hfw⟩
    refine ⟨fun hoff => congrArg (nextDev s) ((if_neg hopen).trans (if_pos (congrArg not hoff))), ?_⟩
    intro hon d4
    exact ⟨fun hduty => congrArg (nextDev s) ((if_neg hopen).trans ((ite_not_of_true hon _ _).trans
        (congrArg Dev.syncThermal (if_neg (Nat.not_lt.mpr (Nat.le_of_eq hduty)))))),
      fun hduty => congrArg (nextDev s) ((if_neg hopen).trans ((ite_not_of_true hon _ _).trans
        (congrArg Dev.syncThermal (if_pos hduty))))⟩
  · intro k hprim d1
    exact congrArg (nextDev s) (ite_not_of_true hprim _ _)
  · intro margins ack hen hserving tab act low v d0 hlow hv hup d1
    exact congrArg (nextDev s) (avsAdjust_up hen hserving hlow hv hup)

/-! The rows of the lease link. -/

/-- A bad word of the lease link is counted (R416). -/
theorem leaseRx_bad {d : Dev} {w : List Nat} (type : Nat) (act : Dev → Dev) (hnode : (d.isTwin || d.isArb) = true)
    (hbad : d.leaseBad w = true) : d.leaseRx type w act = d.cntF LSC_LS_BAD LO32 1 :=
  (ite_not_of_true hnode _ _).trans (if_pos hbad)

/-- A good word of the lease link is kept and acts (R416). -/
theorem leaseRx_good {d : Dev} {w : List Nat} {type : Nat} (act : Dev → Dev)
    (hgood : ((d.isTwin || d.isArb) && !d.leaseBad w) = true) (htype : at' w 2 1 = type) :
    d.leaseRx type w act = (act { d with twin := { d.twin with words := (w :: d.twin.words).take 16 } }).syncLease := by
  obtain ⟨hnode, hok⟩ := Bool.and_eq_true_iff.mp hgood
  exact (ite_not_of_true hnode _ _).trans ((if_neg (by simpa using hok)).trans (if_neg (not_not_intro htype)))

/-- The arbiter renews a valid holder (R418). -/
theorem execArbiterRenew_of_valid {s : State} {h : Nat} (harb : s.dev.isArb = true) (hstarted : s.dev.twin.waiting = false)
    (hhold : s.dev.twin.hold = some h) (hrenew : s.dev.mayRenew h = true) :
    execArbiterRenew s = nextDev s (s.dev.sendGrant h s.dev.twin.gen) := by
  have hopen : (!s.dev.isArb || s.dev.twin.waiting) = false := by rw [harb, hstarted]; rfl
  simp only [execArbiterRenew, hhold]
  exact congrArg (nextDev s) ((ite_of_false hopen _ _).trans (if_pos hrenew))

/-- The arbiter grants the other twin once the holder may not be renewed and its lease is surely over (R418). -/
theorem execArbiterGrant_of_safe {s : State} {h : Nat} (harb : s.dev.isArb = true) (hstarted : s.dev.twin.waiting = false)
    (hhold : s.dev.twin.hold = some h) (hrenew : s.dev.mayRenew h = false) (hcfg : s.dev.twin.cfgBad = false)
    (hgrant : s.dev.mayGrant (1 - h) = true) (hsafe : s.dev.grantSafe h = true) :
    execArbiterGrant s = nextDev s (s.dev.sendGrant (1 - h) ((s.dev.twin.gen + 1) % 2 ^ 16)) := by
  have hopen : (!s.dev.isArb || s.dev.twin.waiting) = false := by rw [harb, hstarted]; rfl
  have hmay : (s.dev.mayRenew h || s.dev.twin.cfgBad || !s.dev.mayGrant (1 - h) || !s.dev.grantSafe h) = false := by
    rw [hrenew, hcfg, hgrant, hsafe]
    rfl
  simp only [execArbiterGrant, hhold]
  exact congrArg (nextDev s) ((ite_of_false hopen _ _).trans (ite_of_false hmay _ _))

/-- Settles O29: each event's rule, on the branch that its conditions select. -/
theorem leaseRowsComplete : Obligations.LeaseRowsComplete := by
  intro w s d kept good
  refine ⟨fun hnode hbad => ⟨?_, ?_, ?_, ?_⟩, fun hgood htype => congrArg (nextDev s) (leaseRx_good _ hgood htype), ?_, ?_, ?_, ?_, ?_, ?_,
    ?_, fun h harb hstarted hhold hrenew => execArbiterRenew_of_valid harb hstarted hhold hrenew,
    fun h harb hstarted hhold hrenew hcfg hgrant hsafe => execArbiterGrant_of_safe harb hstarted hhold hrenew hcfg hgrant hsafe, ?_, ?_⟩
  · exact congrArg (nextDev s) (leaseRx_bad _ _ hnode hbad)
  · exact congrArg (nextDev s) (leaseRx_bad _ _ hnode hbad)
  · exact congrArg (nextDev s) (leaseRx_bad _ _ hnode hbad)
  · exact congrArg (nextDev s) (leaseRx_bad _ _ hnode hbad)
  · intro hgood htype htwin hme
    have hmine : (d.isTwin && at' w 4 1 == d.f LS_CTRL LS_CTRL_NODE) = true := by
      rw [htwin, hme]
      exact beq_self_eq_true _
    exact congrArg (nextDev s) ((leaseRx_good _ hgood htype).trans (congrArg Dev.syncLease (if_pos hmine)))
  · intro hgood htype htwin
    exact ⟨fun hsoon => congrArg (nextDev s) ((leaseRx_good _ hgood htype).trans
        (congrArg Dev.syncLease ((ite_not_of_true htwin _ _).trans (if_pos hsoon)))),
      fun hdue => congrArg (nextDev s) ((leaseRx_good _ hgood htype).trans
        (congrArg Dev.syncLease ((ite_not_of_true htwin _ _).trans (ite_of_false hdue _ _))))⟩
  · intro hgood htype
    exact ⟨fun harb => congrArg (nextDev s) ((leaseRx_good _ hgood htype).trans (congrArg Dev.syncLease (if_pos harb))),
      fun harb => congrArg (nextDev s) ((leaseRx_good _ hgood htype).trans (congrArg Dev.syncLease (ite_of_false harb _ _)))⟩
  · intro htwin hholder hend
    exact congrArg (nextDev s) (if_pos (by rw [htwin, hholder, decide_eq_true hend]; rfl))
  · intro htwin hseen hlate
    exact congrArg (nextDev s) (if_pos (by rw [htwin, hseen, decide_eq_true hlate]; rfl))
  · intro htwin e n d1
    exact congrArg (nextDev s) (ite_not_of_true htwin _ _)
  · intro harb d1
    exact congrArg (nextDev s) (ite_not_of_true harb _ _)
  · intro k hk harb
    have hopen : (!d.isArb || decide (k ≥ 2)) = false := by
      rw [harb, decide_eq_false (Nat.not_le.mpr hk)]
      rfl
    refine ⟨fun hgot => congrArg (nextDev s) ((ite_of_false hopen _ _).trans (if_pos hgot)), ?_⟩
    intro hgot n d1
    exact ⟨fun hthird => congrArg (nextDev s) ((ite_of_false hopen _ _).trans ((ite_of_false hgot _ _).trans (if_pos hthird))),
      fun hbelow => congrArg (nextDev s) ((ite_of_false hopen _ _).trans
        ((ite_of_false hgot _ _).trans (if_neg (Nat.not_le.mpr hbelow))))⟩
  · intro harb hwaiting hdue gens top
    have hopen : (!d.isArb || !d.twin.waiting || decide (d.now < d.twin.startAt + 30000000 + d.twin.g * 1000)) = false := by
      rw [harb, hwaiting, decide_eq_false (Nat.not_lt.mpr hdue)]
      rfl
    exact congrArg (nextDev s) (ite_of_false hopen _ _)

end Sys2Proof.Proofs
end

section
/-!
SUPPORT. The rows of power and of the debug port.
-/
namespace Sys2Proof.Proofs
set_option Elab.async false
open Sys2Proof.Machine Sys2Proof.Laws

/-! The rows of power, reset, boot and retained state. -/

/-- A state of firmware's start is left only by a device that is out of reset and not stuck (R459). -/
theorem startState_open {d : Dev} {v : Nat} (hfw : d.fwState = v) (hreset : d.pwr.inReset = false) (hstuck : d.fwStuck = false) :
    ¬ (d.fwState ≠ v ∨ d.pwr.inReset = true ∨ d.fwStuck = true) :=
  not_or.mpr ⟨not_not_intro hfw, not_or.mpr ⟨by simp [hreset], by simp [hstuck]⟩⟩

/-- The watchdog of logical core 0 resets the device 100 ms after its expiry (R457). -/
theorem execWatchdogReset_of_due {s : State} {t : Nat} (ht : s.dev.pwr.wdogDue = some t) (hdue : t + 100000000 ≤ s.dev.now)
    (hhold : s.dev.on SC_WDOG SC_WDOG_HOLD = false) : execWatchdogReset s = .next (beginReset CAUSE_WDOG s) := by
  have hopen : (decide (s.dev.now < t + 100000000) || s.dev.on SC_WDOG SC_WDOG_HOLD) = false := by
    rw [hhold, decide_eq_false (Nat.not_lt.mpr hdue)]
    rfl
  simp only [execWatchdogReset, ht]
  exact congrArg Host.Outcome.next (ite_of_false hopen _ _)

/-- A commit of the timing history that a low hold-up supply put off is asked for again after an hour (R292). -/
theorem execHourlyCommitRetry_of_due {s : State} {t : Nat} (ht : s.dev.pwr.histLow = some t) (hdue : t + 3600 * 10 ^ 9 ≤ s.dev.now)
    (hserving : s.dev.serving = true) :
    execHourlyCommitRetry s = nextDev s (({ s.dev with pwr := { s.dev.pwr with histLow := none } } : Dev).wantCommit .history none) := by
  have hopen : (decide (s.dev.now < t + 3600 * 10 ^ 9) || !s.dev.serving) = false := by
    rw [hserving, decide_eq_false (Nat.not_lt.mpr hdue)]
    rfl
  simp only [execHourlyCommitRetry, ht, -Nat.reducePow]
  exact congrArg (nextDev s) (ite_of_false hopen _ _)

/-- A commit that is asked for, with the engine idle and the budget not used up, is begun (R467, R469). -/
theorem commitStart_open {d : Dev} {f : Flash} (hreqs : d.pwr.reqs ≠ []) (hcan : d.canCommit = true) (hidle : f.engine = .idle)
    (hbudget : d.recentCommits.length < 12) :
    (d.pwr.reqs.isEmpty || !d.canCommit || f.engine != .idle ||
      !(decide (d.recentCommits.length < 12) || d.pwr.reqs.any fun r => r.why.exempt)) = false := by
  have hsome : d.pwr.reqs.isEmpty = false := by simpa using hreqs
  rw [hsome, hcan, hidle, decide_eq_true hbudget]
  rfl

/-- With no checker failed and the flash answering, the boot ROM starts the first image that verifies (R459 to R461). -/
theorem bootRom_of_core {s s2 : State} {pass : Bool} (hreset : s.dev.pwr.inReset = false) (haux : s.dev.pwr.auxOn = true)
    (hboot : s.dev.fwState = FW_BOOT) (hidle : s.flash.engine = .idle)
    (hcore : bootCore pass { s with flash := s.flash.select, dev := { s.dev with ret := s.flash.select.image } } = some s2)
    (htest : s2.dev.romId.tap.testEn = false) :
    let s3 := { s2 with dev := s2.dev.romId }
    bootRom pass true [] s =
      ((s3.flash.choose s3.dev.bootOrder true).map fun x => bootImage x.1 x.2.1 x.2.2 s3).getD { s3 with dev := s3.dev.setFw FW_HALTED } := by
  have hopen : (s.dev.pwr.inReset || !s.dev.pwr.auxOn || s.dev.fwState != FW_BOOT || s.flash.engine == .programming ||
      s.flash.engine == .verifying) = false := by
    rw [hreset, haux, hboot, hidle]
    rfl
  have herase : ¬ s.flash.engine = .erasing := by rw [hidle]; decide
  unfold bootRom
  dsimp only
  rw [ite_of_false hopen, if_neg herase, if_neg herase, if_pos rfl, hcore]
  dsimp only
  rw [List.any_nil, if_neg Bool.false_ne_true, List.foldl_nil, ite_of_false htest, Bool.not_true, if_neg Bool.false_ne_true]
  split
  · next hnone => rw [hnone, Option.map_none, Option.getD_none]
  · next hsome => rw [hsome, Option.map_some, Option.getD_some]

theorem untrained_nil (d : Dev) : d.untrained [] [] [] = d := rfl

/-- With every unit trained and every test passed, firmware goes on as the image's body says (R459, R461). -/
theorem train_of_trained {s : State} {dimm : List Nat} {rate : Nat} {bodyOk : Bool} (hfw : s.dev.fwState = FW_TRAIN)
    (hreset : s.dev.pwr.inReset = false) (hstuck : s.dev.fwStuck = false) :
    let d1 := (s.dev.memUp dimm rate).reapply
    let d2 := ((List.range 68).filter fun t => d1.tileRole t == 1).foldl (fun (e : Dev) t => e.reserveTest t true) d1
    train dimm rate [] [] [] [] [] bodyOk s = { s with dev := if bodyOk then d2.enterReady else d2.setFw FW_HALTED } := by
  simp only [train, List.filter_nil, untrained_nil, List.contains_nil, Bool.not_false, List.foldl_nil, List.any_nil, Bool.false_eq_true,
    if_false]
  exact if_neg (startState_open hfw hreset hstuck)

/-- Settles O30: each event's rule, on the branch that its conditions select. -/
theorem powerRowsComplete : Obligations.PowerRowsComplete := by
  intro s d f begun
  refine ⟨?_, ?_, ⟨fun whole => rfl, fun straps => rfl⟩, ?_, ?_, ?_, ?_, ?_, ?_, ?_, ?_,
    fun t ht hdue hserving => execHourlyCommitRetry_of_due ht hdue hserving⟩
  · intro haux
    have hbegun (cause : Nat) : beginReset cause s = begun cause := beginReset_of_aux cause haux
    have hmonitor {k : Nat} (hk : k ≤ 10) : ¬ ((!s.dev.pwr.auxOn) = true ∨ k > 10) :=
      not_or.mpr ⟨by simp [show s.dev.pwr.auxOn = true from haux], Nat.not_lt.mpr hk⟩
    refine ⟨fun ns hns => ?_, fun k ns hlo hhi hns => ?_, fun k ns hk hns => ?_, fun step k ns hk hstep => ?_, fun t ht hdue hhold => ?_,
      fun hsys => ?_⟩
    · exact congrArg Host.Outcome.next ((if_neg (Nat.not_lt.mpr hns)).trans (hbegun CAUSE_PIN))
    · have hsupply : ¬ (k = 0 ∨ k > 10 ∨ ns ≤ 2000) := by omega
      exact congrArg Host.Outcome.next ((if_neg hsupply).trans (hbegun CAUSE_SUPPLY))
    · exact congrArg Host.Outcome.next ((if_neg (hmonitor hk)).trans ((if_pos rfl).trans
        ((congrArg (beginReset CAUSE_SUPPLY) (if_neg (Nat.not_lt.mpr hns))).trans (hbegun CAUSE_SUPPLY))))
    · have hnot : ¬ step = 2 := by omega
      exact congrArg Host.Outcome.next ((if_neg (hmonitor hk)).trans ((if_neg hnot).trans (if_pos hstep)))
    · exact (execWatchdogReset_of_due ht hdue hhold).trans (congrArg Host.Outcome.next (hbegun CAUSE_WDOG))
    · exact congrArg Host.Outcome.next ((if_pos hsys).trans (hbegun CAUSE_SYS))
  · intro rec test hreset haux hir e e1 e2
    have hopen : (!d.pwr.inReset || !d.pwr.auxOn || holdsReset d.tap.ir) = false := by
      rw [hreset, haux, hir]
      rfl
    exact ⟨congrArg Host.Outcome.next (ite_of_false hopen _ _), congrArg Host.Outcome.next (ite_of_false hopen _ _)⟩
  · intro hreset haux hboot hidle pass s2 s1 hcore htest s3
    refine congrArg Host.Outcome.next ((bootRom_of_core hreset haux hboot hidle hcore htest).trans ?_)
    cases s3.flash.choose s3.dev.bootOrder true <;> rfl
  · intro ack hfw hreset hstuck d1 d2 d3 s1 s2
    exact congrArg Host.Outcome.next (if_neg (startState_open hfw hreset hstuck))
  · intro dimm rate hfw hreset hstuck d1 d2
    exact ⟨(congrArg Host.Outcome.next (train_of_trained hfw hreset hstuck)).trans (next_dev (if_pos rfl)),
      (congrArg Host.Outcome.next (train_of_trained hfw hreset hstuck)).trans (next_dev (if_neg Bool.false_ne_true))⟩
  · intro us cs ls hfw hreset hstuck
    exact congrArg (nextDev s) (if_neg (startState_open hfw hreset hstuck))
  · intro s0 s1 hreqs hcan hidle hbudget
    have hopen := commitStart_open hreqs hcan hidle hbudget
    refine ⟨fun hclean => ?_, fun hclean hlow => ?_, ?_⟩
    · exact congrArg Host.Outcome.next ((ite_of_false hopen _ _).trans (if_pos (congrArg not hclean)))
    · exact congrArg Host.Outcome.next ((ite_of_false hopen _ _).trans ((ite_not_of_true hclean _ _).trans (if_pos (congrArg not hlow))))
    · intro hclean hpass e
      exact congrArg Host.Outcome.next ((ite_of_false hopen _ _).trans ((ite_not_of_true hclean _ _).trans (ite_not_of_true hpass _ _)))
  · intro hbusy js e fl
    have hopen : ¬ (f.engine ≠ .programming ∧ f.engine ≠ .verifying) := fun hn => hbusy.elim hn.1 hn.2
    refine ⟨congrArg Host.Outcome.next ((if_neg hopen).trans (if_pos rfl)), fun hrunning => ?_⟩
    have hsome : s.dev.pwr.running.isEmpty = false := by simpa using hrunning
    refine congrArg Host.Outcome.next ((if_neg hopen).trans ((if_neg Bool.false_ne_true).trans ?_))
    exact congrArg (fun e : Dev => ({ s with flash := (fl .bad).erase, dev := js.foldl (fun (e : Dev) i => e.endJob i .hwFault 0) e } : State))
      (ite_of_false hsome _ _)
  · intro herasing hsel
    exact congrArg Host.Outcome.next ((if_neg (not_not_intro herasing)).trans
      (congrArg (fun x : Flash => ({ s with flash := { x with engine := .idle } } : State)) (if_pos hsel)))
  · intro herasing hsel
    exact congrArg Host.Outcome.next ((if_neg (not_not_intro herasing)).trans
      (congrArg (fun x : Flash => ({ s with flash := { x with engine := .idle } } : State)) (ite_of_false hsel _ _)))

/-! The rows of the debug port. -/

/-- A core that QDP halted and that is not running is one that RESUME and STEP act on (R513). -/
theorem qdpHalted_of {d : Dev} {c : Nat} (hq : (d.core c).qhalt ≠ 0) (hst : d.coreState c = CORE_HALTED) :
    ¬ ((d.core c).qhalt = 0 ∨ d.coreState c ≠ CORE_HALTED) :=
  not_or.mpr ⟨hq, not_not_intro hst⟩

/-- RESUME of a core that QDP halted (R513). -/
theorem qdpResume_eq_of_halted {d : Dev} {c : Nat} (hq : (d.core c).qhalt ≠ 0) (hst : d.coreState c = CORE_HALTED) :
    d.qdpResume c = (d.setCore c { d.core c with
      qhalt := 0, skipBp := true, wdogAt := (d.core c).wdogAt + (d.now - (d.core c).haltAt) }).setCoreState c CORE_RUN :=
  if_neg (qdpHalted_of hq hst)

/-- STEP runs the resumed core to its next boundary and halts it there where it still runs (R513). -/
theorem qdpStep_of_halted {s : State} {c : Nat} (hq : (s.dev.core c).qhalt ≠ 0) (hst : s.dev.coreState c = CORE_HALTED) :
    qdpStep c s =
      let t := toBoundary c (2 ^ 24 + 4) (stepCore c { s with dev := s.dev.qdpResume c })
      if t.dev.coreState c = CORE_RUN then { t with dev := t.dev.coreHalt c 4 } else t :=
  if_neg (qdpHalted_of hq hst)

/-- A scan while the last access still runs gives busy and discards its own access (R511). -/
theorem qdpScan_of_late {s : State} {scan : Nat} {slow : Bool} {x st : Nat} (hir : s.dev.tap.ir = 0x10)
    (hlate : s.dev.tap.late = some (x, st)) :
    qdpScan scan slow s = { s with
      dev := { s.dev.emit .tdo 0x10 [s.dev.tap.data, 1] with tap := { s.dev.tap with data := x, status := st, late := none } } } := by
  simp only [qdpScan, hlate]
  exact if_neg (not_not_intro hir)

/-- A scan with no access under way makes its own access, which `slow` leaves running (R511). -/
theorem qdpScan_of_idle {s : State} (scan : Nat) (slow : Bool) (hir : s.dev.tap.ir = 0x10) (hlate : s.dev.tap.late = none) :
    let r := qdAccess (bits scan 43 32) (bit scan 44) (scan % 2 ^ 32)
      { s with dev := s.dev.emit .tdo 0x10 [s.dev.tap.data, s.dev.tap.status] }
    let t := r.2.2.dev.tap
    let x := if r.2.1 = 0 then r.1 else s.dev.tap.data
    qdpScan scan slow s = { r.2.2 with
      dev := { r.2.2.dev with tap := if slow then { t with late := some (x, r.2.1) } else { t with data := x, status := r.2.1 } } } := by
  intro r t x
  simp only [qdpScan, hlate]
  exact if_neg (not_not_intro hir)

/-- Settles O31: each row on the branch that the instruction register, the lock and the selected core's state take. -/
theorem debugRowsComplete : Obligations.DebugRowsComplete := by
  intro s d c
  refine ⟨rfl, ?_, ?_, ?_⟩
  · intro code sup haux k d1
    have hload : exec (.instructionLoad code sup) s = .next
        (let d2 := if k = 0x02 then d1.emit .tdo k [idCode] else d1
         if holdsReset k then beginReset CAUSE_QDP { s with dev := d2 } else { s with dev := d2 }) :=
      congrArg Host.Outcome.next (ite_not_of_true haux _ _)
    refine ⟨fun hk => ?_, fun hk hfree => ?_, fun hk hholds => ?_⟩
    · have hfree : holdsReset k = false := by rw [hk]; decide
      exact hload.trans (congrArg Host.Outcome.next ((ite_of_false hfree _ _).trans
        (congrArg (fun e => ({ s with dev := e } : State)) (if_pos hk))))
    · exact hload.trans (congrArg Host.Outcome.next ((ite_of_false hfree _ _).trans
        (congrArg (fun e => ({ s with dev := e } : State)) (if_neg hk))))
    · exact hload.trans (congrArg Host.Outcome.next ((if_pos hholds).trans
        (congrArg (fun e => beginReset CAUSE_QDP { s with dev := e }) (if_neg hk))))
  · intro hopen
    refine ⟨fun hrun hbound => ?_, fun hrun hbound => ?_, fun hq hst => ?_, congrArg Host.Outcome.next (if_pos hopen)⟩
    · exact next_dev ((if_pos hopen).trans ((if_neg (not_not_intro hrun)).trans (if_pos hbound)))
    · exact next_dev ((if_pos hopen).trans ((if_neg (not_not_intro hrun)).trans (ite_of_false hbound _ _)))
    · intro x e
      have hresume : d.qdpResume c = e := qdpResume_eq_of_halted hq hst
      refine ⟨next_dev ((if_pos hopen).trans hresume), ?_⟩
      intro t
      have hstep : exec .step s = .next (if t.dev.coreState c = CORE_RUN then { t with dev := t.dev.coreHalt c 4 } else t) := by
        refine congrArg Host.Outcome.next ((if_pos hopen).trans ((qdpStep_of_halted hq hst).trans ?_))
        rw [hresume]
      exact ⟨fun hrun => hstep.trans (congrArg Host.Outcome.next (if_pos hrun)),
        fun hrun => hstep.trans (congrArg Host.Outcome.next (if_neg hrun))⟩
  · intro scan slow hir
    refine ⟨fun x st hlate => congrArg Host.Outcome.next (qdpScan_of_late hir hlate), ?_⟩
    intro hlate r t x
    have hscan := congrArg (Host.Outcome.next (φ := Fault) (ρ := Refusal)) (qdpScan_of_idle scan slow hir hlate)
    exact ⟨fun hslow => hscan.trans (by rw [hslow]; rfl), fun hslow => hscan.trans (by rw [hslow]; rfl)⟩

end Sys2Proof.Proofs
end
